-- ==== Sys2Proof/Word.lean ====
section
/-! DEFINITION. The word types of the TF832 model and their plainest arithmetic. -/

namespace Sys2Proof

/-- One byte. -/
abbrev Byte := BitVec 8
/-- One 64-bit word: every register and every word of a format (R1, 00_scope). -/
abbrev Word := BitVec 64
/-- A byte string, lowest address first. -/
abbrev Bytes := List Byte

/-- A finite map from numbers to values: the pairs in ascending key order. A key that is not listed has the
value its reader names (`Tab.get`), which is the reset value of the thing the map holds. -/
abbrev Tab (α : Type) := List (Nat × α)

/-- The value at key `k`, or `d` where `k` is not listed. -/
def Tab.get {α : Type} (d : α) : Tab α → Nat → α
  | [], _ => d
  | (j, v) :: r, k => if j = k then v else Tab.get d r k

/-- Writes `v` at key `k`, keeping the keys in ascending order. -/
def Tab.set {α : Type} (k : Nat) (v : α) : Tab α → Tab α
  | [] => [(k, v)]
  | (j, w) :: r => if j = k then (k, v) :: r else if k < j then (k, v) :: (j, w) :: r else (j, w) :: Tab.set k v r

/-- Removes key `k`. -/
def Tab.erase {α : Type} (k : Nat) : Tab α → Tab α
  | [] => []
  | (j, w) :: r => if j = k then Tab.erase k r else (j, w) :: Tab.erase k r

/-- Whether key `k` is listed. -/
def Tab.has {α : Type} : Tab α → Nat → Bool
  | [], _ => false
  | (j, _) :: r, k => (j == k) || Tab.has r k

end Sys2Proof
end

