-- ==== Sys2Proof/Syntax.lean ====
section
/-! DEFINITION. The commands of the TF832: one constructor of `Instr` per row of spec/opcode_table.json. The table gives
the rows no bits; each constructor's operands are what the outside world supplies with that step (a pin's level, a
register value, the bytes the host returns for a read, a word from the front-end, what the tape and the cartridge
present). -/

namespace Sys2Proof

/-- A submission entry, eight words (Table 06-1). -/
structure SubEntry where
  w0 : Word
  w1 : Word
  w2 : Word
  w3 : Word
  w4 : Word
  w5 : Word
  w6 : Word
  w7 : Word
  deriving DecidableEq, Repr, Inhabited

/-- What host memory returns for one command: the descriptors of its list in order (R102), and the bytes of its data
region in order. -/
structure HostData where
  desc : List (Word × Word)
  data : Bytes
  deriving DecidableEq, Repr, Inhabited

/-- How a host read fails (R384, R132). -/
inductive ReadError where
  | unsupportedRequest | completerAbort | poisoned | timeout
  deriving DecidableEq, Repr

/-- Configuration-space registers that a function shows beside the fields of `ConfigOp.read` (R74, R76, R77, R78): its BARs, the VF
BAR0, First VF Offset and VF Stride of the SR-IOV capability, SR-IOV Control, Device Control, Device Control 2, Interrupt Pin, and AER's
status registers. -/
inductive CfgReg where
  | bar0 | bar2 | vfBar0 | vfOffset | vfStride | sriovControl | deviceControl | deviceControl2 | interruptPin | aerUncorrectable | aerCorrectable
  deriving DecidableEq, Repr

/-- A PCIe configuration request (R41, R74, R76, R77, R78): a read of the identification and SR-IOV fields or of one register, a write of
one of the fields the formatter acts on, or of one register. -/
inductive ConfigOp where
  | read
  | readReg (r : CfgReg)
  | writeReg (r : CfgReg) (v : BitVec 64)
  | busMaster (on : Bool)
  | msixEnable (on : Bool)
  | functionMask (on : Bool)
  | vfEnable (on : Bool)
  | numVfs (n : Nat)
  deriving DecidableEq, Repr

/-- A monitored rail (R357). -/
inductive Rail where
  | vddio | vddc | vddm
  deriving DecidableEq, Repr

/-- A monitored clock (R31): the six device clocks of DV_FATAL.CLK_ID, or a clock of lane `n`. -/
inductive Clk where
  | nv | core | ctl | dsp | pcie | mem
  | lane (n : Nat)
  deriving DecidableEq, Repr

/-- A read of the NVM that failed: the copy (true for B) and the offset within the copy of the first byte that the
read should have returned (code 0x0F, Table 04-17a). -/
structure NvmFail where
  copyB : Bool
  off : Nat
  deriving DecidableEq, Repr

/-- A unit whose self-test sets a readiness bit (Table 03-4). -/
inductive SelfTest where
  | codec | seal
  | core (c : Nat)
  deriving DecidableEq, Repr

/-- A Sachet partition (Table 08-3). -/
inductive Partition where
  | dir | ring | shadow | crash
  deriving DecidableEq, Repr

/-- A chain entry (Table 09-5). -/
structure ChainEntry where
  kind : Nat
  gpio : Nat
  count : Nat
  time : Nat
  epoch : Nat
  ref : Nat
  deriving DecidableEq, Repr, Inhabited

/-- A volume entry of the cartridge directory (Table 10-7), and what a volume keeps since its creation for which the table has no
place: the numbers of its marks, the marks and pruned records counted, and the chain entries that wait for its next dataset. -/
structure DirVolume where
  uuid : BitVec 128
  tenant : Nat
  encrypt : Bool
  strict : Bool
  hold : Bool
  deleted : Bool
  used : Bool
  retention : Nat
  kcv : Word
  nextSeq : Nat
  v : Nat
  chainN : Nat
  h : Bytes
  markSeqs : List Nat
  marks : Nat
  pruned : Nat
  waiting : List ChainEntry
  deriving DecidableEq, Repr, Inhabited

/-- An extent entry (Table 10-7). -/
structure Extent where
  vidx : Nat
  wrap : Nat
  firstDsn : Nat
  firstSeq : Nat
  lastSeq : Nat
  newest : Nat
  deriving DecidableEq, Repr, Inhabited

/-- A lost-range entry (Table 10-7). -/
structure LostRange where
  vidx : Nat
  power : Bool
  exFirst : Nat
  first : Nat
  last : Nat
  exLast : Nat
  deriving DecidableEq, Repr, Inhabited

/-- A wrap-group entry (Table 10-7). -/
structure WrapGroup where
  reuseDsn : Nat
  reuses : Nat
  deriving DecidableEq, Repr, Inhabited

/-- A cartridge directory (Tables 10-6 and 10-7). -/
structure Directory where
  dirgen : Nat
  opn : Bool
  locked : Bool
  loader : Word
  eodDsn : Nat
  eodWrap : Nat
  eodInt : Nat
  dsnLimit : Nat
  time : Nat
  vols : Tab DirVolume
  groups : Tab WrapGroup
  extents : List Extent
  lost : List LostRange
  deriving DecidableEq, Repr, Inhabited

/-- A volume region of a dataset with its directory entry (R198, Table 10-3), and the sequence numbers and newest
host timestamp of the records with a byte in it, and the highest number whose record and all lower ones end in it or in an
earlier dataset. -/
structure Region where
  vidx : Nat
  uuid : BitVec 128
  tenant : Nat
  encrypt : Bool
  strict : Bool
  hold : Bool
  retention : Nat
  off : Nat
  bytes : Bytes
  entries : List ChainEntry
  fblk : Option Nat
  chainN : Nat
  h : Bytes
  firstSeq : Nat
  lastSeq : Nat
  newest : Nat
  whole : Nat
  deriving DecidableEq, Repr, Inhabited

/-- A dataset as it stands on tape or in a packer reserve (Table 10-3). `dkind` is 0 for a user dataset and 1 for C3
parity, which has no regions and carries its payload. -/
structure Dataset where
  dsn : Nat
  dkind : Nat
  wrap : Nat
  interval : Nat
  tmask : BitVec 32
  gpos : Nat
  gdsn0 : Nat
  part : Bool
  rewrite : Bool
  origDsn : Nat
  time : Nat
  regions : List Region
  parity : Bytes
  deriving DecidableEq, Repr, Inhabited

/-- A cartridge as the front-end and the tape present it (Tables 13-8, 10-6): its memory, whether its directory area
holds intervals, the replicas of its two directory copies in order of GPOS, each with the directory it decodes to where it passes SCRC
(R212), its datasets in order of writing, and the separators without a dataset, as (wrap, interval). -/
structure Cartridge where
  length : Nat
  step : Nat
  serial : Bytes
  areaWritten : Bool
  dirA : List (Option Directory)
  dirB : List (Option Directory)
  sets : List Dataset
  rwOnly : List (Nat × Nat)
  deriving DecidableEq, Repr, Inhabited

/-- The status of a read-back row unit with the C1 symbols corrected (R245). -/
inductive RowResult where
  | decoded (corrected : Nat)
  | syncMiss (corrected : Nat)
  | headerCrc (corrected : Nat)
  | headerOther (corrected : Nat)
  | c1Failed (corrected : Nat)
  deriving DecidableEq, Repr

/-- The read-back of the directory replicas that a row writes (R212, R219, R225), in order of writing: of each replica the statuses of the
rows that did not read back without a correction. A replica that is not listed reads back without one. -/
abbrev DirRead := List (List RowResult)

/-- What a load sequence meets (R319): how many of its eight steps complete within their bounds, whether both
tachometers show the tape already threaded, the cartridge, what calibration measured (CE_BEMF of each reel and the
parameters it wrote), and the read-back of the directory copies written during the load (R225). -/
structure LoadEnv where
  steps : Nat
  threaded : Bool
  cart : Cartridge
  bemfA : BitVec 32
  bemfB : BitVec 32
  params : List (Nat × Word)
  dir : DirRead
  deriving DecidableEq, Repr, Inhabited

/-- What a tape read meets (R255): for the first pass and each of the two rereads in turn, the sub-datasets of each dataset, by DSN, that
steps 1 and 2 of Table 12-4 do not decode from the copies of all passes so far (a dataset not named decodes whole; a pass not listed
is as the one before), and media changes that no code caught, as user-area bytes to be XORed into a dataset. -/
structure ReadOutcome where
  passes : List (Tab (List Nat))
  flips : List (Nat × Nat × Byte)
  deriving DecidableEq, Repr, Inhabited

/-- Which row unit a status is about: a data or parity row, or a probe row. -/
inductive RowKind where
  | data (dsn sub row : Nat)
  | probe
  | directory (gpos sub row : Nat)
  deriving DecidableEq, Repr

/-- A row unit as the timing loop and the detector deliver it to the framer (stages 2 to 5 of Table 12-1, whose coefficients and gains the
spec does not give): where its sync was found, in channel bits from the expected place (none: nowhere in the row position), and the
channel bits that follow the sync. -/
structure RowUnit where
  sync : Option Int
  bits : List Bool
  deriving DecidableEq, Repr, Inhabited

/-- A row unit of a read-back (R245): the interval it stands in (its ordinal since load), its physical track, the row written there, the
unit as received, and over it the sum of squares of the error at the detector input, in units of 1/4096 (R246). -/
structure RowReport where
  interval : Nat
  track : Nat
  kind : RowKind
  unit : RowUnit
  noise : Nat
  deriving DecidableEq, Repr

/-- One express slot as received: the number of its period on the lane, and the two copies of its word (R267). -/
structure XSlot where
  period : Nat
  copy1 : BitVec 96
  copy2 : BitVec 96
  deriving DecidableEq, Repr, Inhabited

/-- A frame as received: its header words and the bytes after the header (Table 13-2). -/
structure Frame where
  w0 : Word
  w1 : Word
  w2 : Word
  w3 : Word
  body : Bytes
  deriving DecidableEq, Repr, Inhabited

/-- What an uncorrectable buffer error strikes (Table 08-1): records of a volume (its handle and the number of the
segment in the volume's storage), a packer reserve, read-back staging, decompressed output, or manager state. -/
inductive EccTarget where
  | records (vol seg : Nat)
  | packer (t : Nat)
  | staging (t : Nat)
  | output
  | state
  deriving DecidableEq, Repr

/-- Words of crossing FIFOs that a resynchronisation finds in flight, as (XID, words) (R36): what stands in a FIFO at that
moment is a matter of its timing, so the row brings it. -/
abbrev Discards := List (Nat × Nat)

/-- What the mount of Sachet finds (R157, R161, R166): partitions whose control block fails its check, ring offsets of entries whose CRC fails,
crash-record slots whose header fails (false A, true B), journal offsets of entries whose CRC fails, and the checkpoints, by sequence number,
that are not valid. -/
structure MountFinding where
  bad : List Partition
  ring : List Nat
  slots : List Bool
  journal : List Nat
  checkpoints : List Nat
  deriving DecidableEq, Repr, Inhabited

/-- PERST_N low (R38): for how long, in ns; the CK_AO time in µs at the end of the warm reset (R341); how many of the four steps of Table 08-6 are
done when the row ends (R29); and what the FIFOs discard. -/
structure PerstLow where
  ns : Nat
  us : Nat
  upTo : Nat
  disc : Discards
  deriving DecidableEq, Repr, Inhabited

/-- PFAIL_N low (R162): for how long, in ns, and how many of the four steps of Table 08-6 are done when the row ends (R29). -/
structure PfailLow where
  ns : Nat
  upTo : Nat
  deriving DecidableEq, Repr, Inhabited

/-- An arbitration decision: of the admin queues or of the I/O queues, and for queue pairs, as (tenant, queue, bytes), the durable-ring bytes of
the Durable records of the first entry, whose list stands in host memory (R155). -/
structure ArbInput where
  admin : Bool
  ring : List (Nat × Nat × Nat)
  deriving DecidableEq, Repr, Inhabited

/-- What an unload meets: the read-back of the directory copy, and whether servo can be acquired out of service (R320). -/
structure UnloadEnv where
  dir : DirRead
  servoOk : Bool
  deriving DecidableEq, Repr, Inhabited

/-- What a transport reset meets: the load that follows where a cartridge is in, and what the lanes' FIFOs discard (R36, R42). -/
structure ResetEnv where
  load : Option LoadEnv
  disc : Discards
  deriving DecidableEq, Repr, Inhabited

/-- The data of an Image Write, and how many pages are programmed where PFAIL_N or PERST_N arrives first (R73). -/
structure ImageInput where
  data : HostData
  cut : Option Nat
  deriving DecidableEq, Repr, Inhabited

/-- What a Function Level Reset of a virtual function finds: the data wholly read for Write Records, by queue, and how many volumes are sealed where
PERST_N ends it (R50, R141). -/
structure VfReset where
  held : List (Nat × HostData)
  cut : Option Nat
  deriving DecidableEq, Repr, Inhabited

/-- The same of the physical function, the data by tenant and queue (R143). -/
structure PfReset where
  held : List (Nat × Nat × HostData)
  cut : Option Nat
  deriving DecidableEq, Repr, Inhabited

/-- An uncorrectable codeword: its period on the lane, and what the lane's FIFOs discard where it fails the lane (R36, R262). -/
structure BadCodeword where
  period : Nat
  disc : Discards
  deriving DecidableEq, Repr, Inhabited

/-- A lane that loses slot lock, and what its FIFOs discard (R36, R269). -/
structure LockLoss where
  lane : Nat
  disc : Discards
  deriving DecidableEq, Repr, Inhabited

/-- The trigger of a power-state exit (Table 16-6, PM_STS.LAST_WAKE). -/
inductive WakeCause where
  | doorbell | wakeWrite | tlp | transportRequest | notify | tamper | policy | idleTimer | perst
  deriving DecidableEq, Repr

/-- How a measurement is lost (R305). -/
inductive StaleKind where
  | stale | frozen
  deriving DecidableEq, Repr

/-- A host register write (R374, R375): function, BAR, offset, and the bytes of the TLP with their byte enables. -/
structure RegWrite where
  fn : Nat
  bar : Nat
  offset : Nat
  bytes : List (Byte × Bool)
  deriving DecidableEq, Repr, Inhabited

/-- The commands, one constructor per row of spec/opcode_table.json, in its order. `u` is a tenant, `q` a queue pair,
`t` a transport, `n` a lane, `c` a core, `v` a volume handle. `upTo` of POWER_FAIL and PERST_N_FALL is how many of the four
steps of Table 08-6 are done when the row ends (4 where nothing ends the sequence midway, R29); `cut` of IMAGE_WRITE is, where
PFAIL_N or PERST_N arrives during it, the number of pages programmed by then (R73). `cut` of the Function Level Resets is, where
PERST_N ends them midway, the number of volumes sealed by then (R50). `cut` of the entries to a power state is the exit trigger that
arrives during the entry, for PS3 with the number of its three steps done by then (R350). `us` of PERST_N_FALL and EPOCH_BOUNDARY is the
CK_AO time, µs since POR_N. `ring` of ARBITRATION_DECISION gives, for the head entries of queues,
the durable-ring bytes of their Durable records (R155), as (tenant, queue, bytes). -/
inductive Instr where
  | porNAssert
  | porNRelease (straps : BitVec 3)
  | supplyMonitorReset (rail : Rail) (mv us : Nat)
  | perstNFall (p : PerstLow)
  | ctlCoreWarmReset (c : Nat) (after3s : Bool)
  | perstNRise
  | configRequest (fn : Nat) (op : ConfigOp)
  | powerFail (p : PfailLow)
  | clockLoss (clk : Clk)
  | crystalStop (us : Nat)
  | dieTempMeasure (sensors rails : List (BitVec 16))
  | gpioInputChange (pin : Nat) (level : Bool) (heldMs : Nat)
  | tamper (pin : Nat)
  | earlyBlockLoaded (fails : List NvmFail)
  | imageLoadComplete (fails : List NvmFail)
  | sachetMounted (m : MountFinding)
  | bufferInitDone (trained : Bool)
  | unitSelfTestDone (unit : SelfTest) (pass : Bool)
  | tqCfgEnable (u : Nat)
  | tqCfgDisable (u : Nat)
  | sqTailDoorbell (u q : Nat) (value : BitVec 64) (entries : List SubEntry)
  | cqHeadDoorbell (u q : Nat) (value : BitVec 64)
  | arbitrationDecision (a : ArbInput)
  | ringAccessError (u q : Nat) (err : ReadError)
  | hostDataError (u q : Nat) (err : ReadError) (addr : Word)
  | cqAggTimer (u q : Nat)
  | allocatorDecision
  | identify (u : Nat) (h : HostData)
  | createQueuePair (u : Nat)
  | deleteQueuePair (u : Nat)
  | setQueueClass (u : Nat)
  | getLog (u : Nat) (h : HostData)
  | setFeatures (u : Nat)
  | getFeatures (u : Nat)
  | restartQueues (u : Nat)
  | createVolume (u : Nat)
  | deleteVolume (u : Nat)
  | setVolumeHold (u : Nat)
  | loadKey (u : Nat) (h : HostData)
  | clearKey (u : Nat)
  | tcQuery
  | tcLoad (env : LoadEnv)
  | loadStepTimeout (t : Nat)
  | scanComplete (t : Nat)
  | tcUnload (x : UnloadEnv)
  | latchRelease (t : Nat)
  | tcPark
  | tcRelax
  | tcOutOfService
  | tcReturnToService
  | tcReset (x : ResetEnv)
  | tcEmergencyStop
  | tcDiscardPending
  | tcReplacedMechanism
  | lsQuery
  | lsQuarantine
  | lsQuarantineHeld
  | lsRelease
  | lsReset
  | csQuery
  | csTakeOut
  | csReturn
  | csResetAdaptation
  | imageWrite (x : ImageInput)
  | imageActivate (fails : List NvmFail)
  | setPowerPolicy
  | writeRecords (u q : Nat) (h : HostData)
  | readRecords (u q : Nat) (h : HostData)
  | locate (u q : Nat)
  | writeMark (u q : Nat)
  | flush (u q : Nat)
  | readPosition (u q : Nat) (h : HostData)
  | verifyRange (u q : Nat)
  | excursionStart (t : Nat)
  | excursionEnd (t : Nat)
  | vfFlr (u : Nat) (x : VfReset)
  | pfFlr (x : PfReset)
  | tqEvtClr (u : Nat) (value : Word)
  | evStsClear (i : Nat) (value : Word)
  | pmCtlWake
  | scRingRel (lossId : Word)
  | coefCommit (t s : Nat) (clrState : Bool)
  | registerWrite (w : RegWrite)
  | smbReadTemperature
  | smbReadPowerState
  | smbReadReady
  | smbNack (command : Byte) (write : Bool)
  | pressureEvaluation
  | burstStart (t : Nat)
  | burstStop (t : Nat)
  | blockCutTimer (v : Nat)
  | compressDone (v : Nat) (body : Option Bytes) (fault : Bool)
  | sealDone (v : Nat) (fault : Bool)
  | datasetClose (t : Nat)
  | intervalStart (t : Nat)
  | turnaround (t : Nat)
  | rowStatus (t : Nat) (r : RowReport)
  | gapEntryTimer (v : Nat) (tag : BitVec 16)
  | gapEntryPlace (v : Nat)
  | bufferUncorrectable (target : EccTarget)
  | bufferScrub (corrected : Nat)
  | directoryCommit
  | crashSnapshot
  | lifeCheckpoint
  | epochBoundary (us : Nat)
  | snapshotReady
  | ps1Entry
  | ps2Entry
  | ps3Entry
  | powerStateExit (cause : WakeCause)
  | powerStateExitDone
  | relaxTimer (t : Nat)
  | unloadTimer (t : Nat) (dir : DirRead)
  | trainingTimeout (n : Nat)
  | trainingRetry (n : Nat)
  | trainWord (n : Nat) (slot : XSlot)
  | ident (n : Nat) (w0 w1 w2 w3 : Word)
  | laneUp (n : Nat)
  | uncorrectableCodeword (n : Nat) (x : BadCodeword)
  | slotLockLoss (x : LockLoss)
  | linkQuarantineRx (n : Nat) (slot : XSlot)
  | rejoinStart (n : Nat)
  | linkAck (n : Nat) (slot : XSlot)
  | proposeTimeout (n : Nat)
  | sampleFrame (n : Nat) (f : Frame)
  | resendRequest (t sn : Nat)
  | sampleFrameLost (t sn : Nat)
  | controlFrame (n : Nat) (f : Frame) (sinceMs : Nat)
  | managementResponse (n : Nat) (f : Frame)
  | managementTimeout (t tag : Nat)
  | cartridgeInserted (t : Nat) (env : LoadEnv)
  | cartridgeRemoved (t : Nat)
  | powerStageFault (t : Nat)
  | autonomousStop (t : Nat)
  | servoWord (n : Nat) (slot : XSlot)
  | servoTimeout (t : Nat)
  | tachWord (n : Nat) (slot : XSlot)
  | senseWord (n : Nat) (slot : XSlot)
  | statusWord (n : Nat) (slot : XSlot)
  | wclkSend (t : Nat)
  | solRestate (t : Nat)
  | pullinEnd (t : Nat)
  | brakeFault (t brake : Nat)
  | slotRelease (t s : Nat)
  | slotJob (t s : Nat)
  | deadlineMiss (t s : Nat)
  | staleDetect (t s : Nat) (kind : StaleKind)
  | servoHoldTimeout (t : Nat)
  | servoAcquireFail (t : Nat)
  | targetReached (t : Nat) (o : ReadOutcome)
  | stopComplete (t : Nat)
  | envelopeExit (t : Nat)
  | sensorlessStopLimit (t : Nat)
  | laneResetTimeout (n : Nat)
  | supplyMonitorRelease
  deriving DecidableEq, Repr

end Sys2Proof
end

