-- ==== Sys2Proof/Decode.lean ====
section
/-! DEFINITION. The command a word of the opcode table spells. The table gives no row any bits ("fields" is empty in every
row), so no word spells a command: the commands reach the part as pin edges, TLPs, queue entries, link words and timers,
and `Instr` carries their operands. -/

namespace Sys2Proof

/-- No row of spec/opcode_table.json gives bits: no word spells a command. -/
def decodeTableWord (_nbits _w : Nat) : Option Instr := none

end Sys2Proof
end

