-- ==== Sys2Proof/Machine/Bits.lean ====
section
/-! DEFINITION. Bit fields, byte order (R1) and small list helpers used by every format. -/

namespace Sys2Proof.Machine

/-- Field [hi:lo] of a word, as a number. -/
def fld (w : Word) (hi lo : Nat) : Nat := (w.toNat >>> lo) % 2 ^ (hi + 1 - lo)

/-- Bit `n` of a word. -/
def bit (w : Word) (n : Nat) : Bool := w.getLsbD n

/-- A word made of (position, value) fields that do not overlap. -/
def mkw (fs : List (Nat × Nat)) : Word := BitVec.ofNat 64 (fs.foldl (fun a f => a + f.2 * 2 ^ f.1) 0)

/-- 1 for true. -/
def b2n (b : Bool) : Nat := if b then 1 else 0

/-- `n` in `k` bytes, least significant first (R1). -/
def leBytes : Nat → Nat → Bytes
  | 0, _ => []
  | k + 1, n => BitVec.ofNat 8 n :: leBytes k (n / 256)

/-- The number whose bytes stand least significant first (R1). -/
def leNat : Bytes → Nat
  | [] => 0
  | b :: r => b.toNat + 256 * leNat r

/-- The number whose bytes stand most significant first (byte strings of the cited standards). -/
def beNat (bs : Bytes) : Nat := bs.foldl (fun a b => a * 256 + b.toNat) 0

/-- `n` in `k` bytes, most significant first. -/
def beBytes (k n : Nat) : Bytes := (leBytes k n).reverse

/-- The bytes of a word (R1). -/
def wordBytes (w : Word) : Bytes := leBytes 8 w.toNat

/-- The bytes of a list of words. -/
def wordsBytes (ws : List Word) : Bytes := ws.flatMap wordBytes

/-- Bytes [off, off + len); a byte beyond the end reads 0. -/
def slice (bs : Bytes) (off len : Nat) : Bytes :=
  let r := (bs.drop off).take len
  r ++ List.replicate (len - r.length) 0

/-- Word `k` of a byte string that begins at `off`. -/
def wordAt (bs : Bytes) (off : Nat) : Word := BitVec.ofNat 64 (leNat (slice bs off 8))

/-- The words of a byte string whose length is a multiple of 8. -/
def bytesWords (bs : Bytes) : List Word := (List.range (bs.length / 8)).map fun k => wordAt bs (8 * k)

/-- `n` rounded up to a multiple of `m`. -/
def roundUp (n m : Nat) : Nat := (n + m - 1) / m * m

/-- `n / m` rounded up. -/
def ceilDiv (n m : Nat) : Nat := (n + m - 1) / m

/-- A signed number of `k` bits. -/
def signed (k n : Nat) : Int := if n % 2 ^ k < 2 ^ (k - 1) then (n % 2 ^ k : Nat) else ((n % 2 ^ k : Nat) : Int) - 2 ^ k

/-- The two's-complement field of `k` bits of a number. -/
def toField (k : Nat) (i : Int) : Nat := (i % (2 ^ k : Nat)).toNat

/-- The first index at which a byte string differs from another of the same length. -/
def firstDiff : Bytes → Bytes → Nat
  | a :: r, b :: q => if a = b then 1 + firstDiff r q else 0
  | _, _ => 0

/-- Whether the elements of a list are pairwise different. -/
def distinct : List Nat → Bool
  | [] => true
  | a :: r => !r.contains a && distinct r

/-- A counter of `k` bits that holds at its greatest value (R376). -/
def satAdd {k : Nat} (c : BitVec k) (n : Nat) : BitVec k := BitVec.ofNat k (min (2 ^ k - 1) (c.toNat + n))

/-- A counter that wraps. -/
def wrapAdd {k : Nat} (c : BitVec k) (n : Nat) : BitVec k := c + BitVec.ofNat k n

/-- The bit `n` of a register set or cleared. -/
def setBit {k : Nat} (x : BitVec k) (n : Nat) (b : Bool) : BitVec k :=
  if b then x ||| (1#k <<< n) else x &&& ~~~(1#k <<< n)

end Sys2Proof.Machine
end

