-- ==== Sys2Proof/Machine/Crypto.lean ====
section
/-! DEFINITION. The checks and ciphers the spec names: CRC-32C (R55), the CRC-16 of the SMBus and link words' polynomial
division, SHA-256 and SHA-384 (FIPS 180-4), ECDSA P-384 (FIPS 186-5) and AES-256-GCM (SP 800-38D). The spec cites the
standards without printing them: their text is PRESUMED (assumption 8), CRC-32C is the spec's own. -/

namespace Sys2Proof.Machine

/-! ### CRCs -/

/-- One byte into a reflected CRC of polynomial `poly` (least significant bit first). -/
def crcRefl (k poly : Nat) : Nat → Nat
  | c => (List.range k).foldl (fun c _ => if c % 2 = 1 then (c / 2) ^^^ poly else c / 2) c

/-- CRC-32C (R55): reflected polynomial 0x82F6_3B78, preset and complemented. -/
def crc32c (bs : Bytes) : Nat :=
  (bs.foldl (fun c b => crcRefl 8 0x82F63B78 (c ^^^ b.toNat)) 0xFFFFFFFF) ^^^ 0xFFFFFFFF

/-- One byte into a CRC of `w` bits taken most significant bit first. -/
def crcMsb (w poly c : Nat) (b : Byte) : Nat :=
  (List.range 8).foldl (fun c _ => if c / 2 ^ (w - 1) % 2 = 1 then ((c * 2) % 2 ^ w) ^^^ poly else (c * 2) % 2 ^ w)
    (c ^^^ (b.toNat * 2 ^ (w - 8)))

/-- The packet error code of SMBus 3.1: CRC-8 of polynomial 0x07 (PRESUMED, assumption 8). -/
def crc8 (bs : Bytes) : Byte := BitVec.ofNat 8 (bs.foldl (crcMsb 8 0x07) 0)

/-! ### SHA-2 -/

/-- Round constants of SHA-256 (FIPS 180-4). -/
def sha256K : List (BitVec 32) :=
    [0x428A2F98, 0x71374491, 0xB5C0FBCF, 0xE9B5DBA5, 0x3956C25B, 0x59F111F1, 0x923F82A4, 0xAB1C5ED5] ++
    [0xD807AA98, 0x12835B01, 0x243185BE, 0x550C7DC3, 0x72BE5D74, 0x80DEB1FE, 0x9BDC06A7, 0xC19BF174] ++
    [0xE49B69C1, 0xEFBE4786, 0x0FC19DC6, 0x240CA1CC, 0x2DE92C6F, 0x4A7484AA, 0x5CB0A9DC, 0x76F988DA] ++
    [0x983E5152, 0xA831C66D, 0xB00327C8, 0xBF597FC7, 0xC6E00BF3, 0xD5A79147, 0x06CA6351, 0x14292967] ++
    [0x27B70A85, 0x2E1B2138, 0x4D2C6DFC, 0x53380D13, 0x650A7354, 0x766A0ABB, 0x81C2C92E, 0x92722C85] ++
    [0xA2BFE8A1, 0xA81A664B, 0xC24B8B70, 0xC76C51A3, 0xD192E819, 0xD6990624, 0xF40E3585, 0x106AA070] ++
    [0x19A4C116, 0x1E376C08, 0x2748774C, 0x34B0BCB5, 0x391C0CB3, 0x4ED8AA4A, 0x5B9CCA4F, 0x682E6FF3] ++
    [0x748F82EE, 0x78A5636F, 0x84C87814, 0x8CC70208, 0x90BEFFFA, 0xA4506CEB, 0xBEF9A3F7, 0xC67178F2]

/-- Round constants of SHA-384 (FIPS 180-4). -/
def sha512K : List (BitVec 64) :=
    [0x428A2F98D728AE22, 0x7137449123EF65CD, 0xB5C0FBCFEC4D3B2F, 0xE9B5DBA58189DBBC] ++
    [0x3956C25BF348B538, 0x59F111F1B605D019, 0x923F82A4AF194F9B, 0xAB1C5ED5DA6D8118] ++
    [0xD807AA98A3030242, 0x12835B0145706FBE, 0x243185BE4EE4B28C, 0x550C7DC3D5FFB4E2] ++
    [0x72BE5D74F27B896F, 0x80DEB1FE3B1696B1, 0x9BDC06A725C71235, 0xC19BF174CF692694] ++
    [0xE49B69C19EF14AD2, 0xEFBE4786384F25E3, 0x0FC19DC68B8CD5B5, 0x240CA1CC77AC9C65] ++
    [0x2DE92C6F592B0275, 0x4A7484AA6EA6E483, 0x5CB0A9DCBD41FBD4, 0x76F988DA831153B5] ++
    [0x983E5152EE66DFAB, 0xA831C66D2DB43210, 0xB00327C898FB213F, 0xBF597FC7BEEF0EE4] ++
    [0xC6E00BF33DA88FC2, 0xD5A79147930AA725, 0x06CA6351E003826F, 0x142929670A0E6E70] ++
    [0x27B70A8546D22FFC, 0x2E1B21385C26C926, 0x4D2C6DFC5AC42AED, 0x53380D139D95B3DF] ++
    [0x650A73548BAF63DE, 0x766A0ABB3C77B2A8, 0x81C2C92E47EDAEE6, 0x92722C851482353B] ++
    [0xA2BFE8A14CF10364, 0xA81A664BBC423001, 0xC24B8B70D0F89791, 0xC76C51A30654BE30] ++
    [0xD192E819D6EF5218, 0xD69906245565A910, 0xF40E35855771202A, 0x106AA07032BBD1B8] ++
    [0x19A4C116B8D2D0C8, 0x1E376C085141AB53, 0x2748774CDF8EEB99, 0x34B0BCB5E19B48A8] ++
    [0x391C0CB3C5C95A63, 0x4ED8AA4AE3418ACB, 0x5B9CCA4F7763E373, 0x682E6FF3D6B2B8A3] ++
    [0x748F82EE5DEFB2FC, 0x78A5636F43172F60, 0x84C87814A1F0AB72, 0x8CC702081A6439EC] ++
    [0x90BEFFFA23631E28, 0xA4506CEBDE82BDE9, 0xBEF9A3F7B2C67915, 0xC67178F2E372532B] ++
    [0xCA273ECEEA26619C, 0xD186B8C721C0C207, 0xEADA7DD6CDE0EB1E, 0xF57D4F7FEE6ED178] ++
    [0x06F067AA72176FBA, 0x0A637DC5A2C898A6, 0x113F9804BEF90DAE, 0x1B710B35131C471B] ++
    [0x28DB77F523047D84, 0x32CAAB7B40C72493, 0x3C9EBE0A15C9BEBC, 0x431D67C49C100D4C] ++
    [0x4CC5D4BECB3E42B6, 0x597F299CFC657E2A, 0x5FCB6FAB3AD6FAEC, 0x6C44198C4A475817]

/-- Initial hash value of SHA-256 (FIPS 180-4). -/
def sha256Init : List (BitVec 32) :=
    [0x6A09E667, 0xBB67AE85, 0x3C6EF372, 0xA54FF53A, 0x510E527F, 0x9B05688C, 0x1F83D9AB, 0x5BE0CD19]

/-- Initial hash value of SHA-384 (FIPS 180-4). -/
def sha384Init : List (BitVec 64) :=
    [0xCBBB9D5DC1059ED8, 0x629A292A367CD507, 0x9159015A3070DD17, 0x152FECD8F70E5939] ++
    [0x67332667FFC00B31, 0x8EB44A8768581511, 0xDB0C2E0D64F98FA7, 0x47B5481DBEFA4FA4]

/-- The rotations of a SHA-2 function: of the two sums and of the two schedule functions (the last of each a shift). -/
structure ShaRot where
  s0 : Nat × Nat × Nat
  s1 : Nat × Nat × Nat
  g0 : Nat × Nat × Nat
  g1 : Nat × Nat × Nat

def sha256Rot : ShaRot := ⟨(2, 13, 22), (6, 11, 25), (7, 18, 3), (17, 19, 10)⟩
def sha512Rot : ShaRot := ⟨(28, 34, 39), (14, 18, 41), (1, 8, 7), (19, 61, 6)⟩

def shaSum {n : Nat} (r : Nat × Nat × Nat) (x : BitVec n) : BitVec n :=
  x.rotateRight r.1 ^^^ x.rotateRight r.2.1 ^^^ x.rotateRight r.2.2
def shaSched {n : Nat} (r : Nat × Nat × Nat) (x : BitVec n) : BitVec n :=
  x.rotateRight r.1 ^^^ x.rotateRight r.2.1 ^^^ (x >>> r.2.2)

/-- One round: the eight working variables and the window of the next sixteen schedule words. -/
def shaRound {n : Nat} (p : ShaRot) : List (BitVec n) × List (BitVec n) → BitVec n → List (BitVec n) × List (BitVec n)
  | ([a, b, c, d, e, f, g, h], w), k =>
    let w0 := w.headD 0
    let t1 := h + shaSum p.s1 e + ((e &&& f) ^^^ (~~~e &&& g)) + k + w0
    let t2 := shaSum p.s0 a + ((a &&& b) ^^^ (a &&& c) ^^^ (b &&& c))
    let nw := shaSched p.g1 (w.getD 14 0) + w.getD 9 0 + shaSched p.g0 (w.getD 1 0) + w0
    ([t1 + t2, a, b, c, d + t1, e, f, g], w.drop 1 ++ [nw])
  | s, _ => s

/-- One block of sixteen words. -/
def shaBlock {n : Nat} (p : ShaRot) (ks h w : List (BitVec n)) : List (BitVec n) :=
  List.zipWith (· + ·) h (ks.foldl (shaRound p) (h, w)).1

/-- Takes one byte: the hash so far, the bytes of the current word, the words of the current block. -/
def shaByte {n : Nat} (p : ShaRot) (ks : List (BitVec n)) (m : Nat) :
    List (BitVec n) × Bytes × List (BitVec n) → Byte → List (BitVec n) × Bytes × List (BitVec n)
  | (h, bs, ws), b =>
    let bs := bs ++ [b]
    if bs.length < m then (h, bs, ws)
    else
      let ws := ws ++ [BitVec.ofNat n (beNat bs)]
      if ws.length < 16 then (h, [], ws) else (shaBlock p ks h ws, [], [])

/-- The padding: a 1 bit, zeros, and the length in bits. -/
def shaPad (block lenBytes n : Nat) : Bytes :=
  let z := (block - (n + 1 + lenBytes) % block) % block
  0x80#8 :: (List.replicate z 0 ++ beBytes lenBytes (8 * n))

/-- SHA-256 of a byte string. -/
def sha256 (bs : Bytes) : Bytes :=
  ((bs ++ shaPad 64 8 bs.length).foldl (shaByte sha256Rot sha256K 4) (sha256Init, [], [])).1.flatMap fun w => beBytes 4 w.toNat

/-- SHA-384 of a byte string. -/
def sha384 (bs : Bytes) : Bytes :=
  (((bs ++ shaPad 128 16 bs.length).foldl (shaByte sha512Rot sha512K 8) (sha384Init, [], [])).1.take 6).flatMap fun w =>
    beBytes 8 w.toNat

/-! ### ECDSA P-384 -/

def p384p : Nat := 2 ^ 384 - 2 ^ 128 - 2 ^ 96 + 2 ^ 32 - 1
def p384n : Nat := 0xFFFFFFFFFFFFFFFFFFFFFFFFFFFFFFFFFFFFFFFFFFFFFFFFC7634D81F4372DDF581A0DB248B0A77AECEC196ACCC52973
def p384b : Nat := 0xB3312FA7E23EE7E4988E056BE3F82D19181D9C6EFE8141120314088F5013875AC656398D8A2ED19D2A85C8EDD3EC2AEF
def p384gx : Nat := 0xAA87CA22BE8B05378EB1C71EF320AD746E1D3B628BA79B9859F741E082542A385502F25DBF55296C3A545E3872760AB7
def p384gy : Nat := 0x3617DE4A96262C6F5D9E98BF9292DC29F8F41DBD289A147CE9DA3113B5F0B8C00A60B1CE1D7E819D7A431D7C90EA0E5F

/-- b ^ e mod m, on `fuel` bits of e from the least significant. -/
def powMod (m : Nat) : Nat → Nat → Nat → Nat
  | 0, _, _ => 1 % m
  | fuel + 1, b, e => let r := powMod m fuel (b * b % m) (e / 2); if e % 2 = 1 then b * r % m else r

/-- The inverse modulo a prime. -/
def invMod (m a : Nat) : Nat := powMod m 384 (a % m) (m - 2)

/-- Points of the curve; none is the point at infinity. -/
def ecAdd : Option (Nat × Nat) → Option (Nat × Nat) → Option (Nat × Nat)
  | none, q => q
  | p, none => p
  | some (x1, y1), some (x2, y2) =>
    let p := p384p
    if x1 = x2 && (y1 + y2) % p = 0 then none
    else
      let l := if x1 = x2 then (3 * x1 * x1 + (p - 3)) * invMod p (2 * y1) % p
               else (y2 + p - y1) * invMod p (x2 + p - x1) % p
      let x3 := (l * l + 2 * p - x1 - x2) % p
      some (x3, (l * (x1 + p - x3) + p - y1) % p)

/-- A multiple of a point, on `fuel` bits. -/
def ecMul : Nat → Nat → Option (Nat × Nat) → Option (Nat × Nat)
  | 0, _, _ => none
  | fuel + 1, k, q => let r := ecMul fuel (k / 2) (ecAdd q q); if k % 2 = 1 then ecAdd q r else r

/-- ECDSA P-384 with SHA-384 over `msg` (R63): `key` is 0x04 ‖ X ‖ Y, `sig` is r ‖ s. -/
def ecdsaOk (key sig msg : Bytes) : Bool :=
  let x := beNat (slice key 1 48)
  let y := beNat (slice key 49 48)
  let r := beNat (slice sig 0 48)
  let s := beNat (slice sig 48 48)
  let p := p384p
  let n := p384n
  let onCurve := decide (x < p) && decide (y < p) && (y * y % p == (x * x % p * x + (p - 3) * x + p384b) % p)
  let w := invMod n s
  let e := beNat (sha384 msg)
  key.headD 0 == 0x04 && onCurve && decide (0 < r) && decide (r < n) && decide (0 < s) && decide (s < n) &&
    (match ecAdd (ecMul 384 (e * w % n) (some (p384gx, p384gy))) (ecMul 384 (r * w % n) (some (x, y))) with
     | some (px, _) => px % n == r
     | none => false)

/-! ### AES-256-GCM -/

/-- Product in GF(2^8) of the reduction polynomial `poly` (0x1B for AES, 0x1D for the tape's code). -/
def gfMul (poly : Byte) (a b : Byte) : Byte :=
  ((List.range 8).foldl (fun (acc : Byte × Byte) k =>
    (if b.getLsbD k then acc.1 ^^^ acc.2 else acc.1, (acc.2 <<< 1) ^^^ (if acc.2.msb then poly else 0))) (0, a)).1

/-- The inverse in GF(2^8), a^254; 0 for 0. -/
def gfInv (poly a : Byte) : Byte :=
  ((List.range 7).foldl (fun (acc : Byte × Byte) _ =>
    let sq := gfMul poly acc.2 acc.2
    (gfMul poly acc.1 sq, sq)) (1, a)).1

/-- The AES S-box. -/
def aesSbox : Array Byte := ((List.range 256).map fun k =>
  let x := gfInv 0x1B (BitVec.ofNat 8 k)
  x ^^^ x.rotateLeft 1 ^^^ x.rotateLeft 2 ^^^ x.rotateLeft 3 ^^^ x.rotateLeft 4 ^^^ 0x63).toArray

def aesSub (b : Byte) : Byte := aesSbox.getD b.toNat 0

/-- One word of the AES-256 key schedule from the eight before it, oldest first. -/
def aesNext (i : Nat) (w : List Bytes) : Bytes :=
  let prev := w.getD 7 []
  let t := if i % 8 = 0 then
      let r := (prev.drop 1 ++ prev.take 1).map aesSub
      let rc := (List.range (i / 8 - 1)).foldl (fun c _ => gfMul 0x1B c 2) (1 : Byte)
      (r.headD 0 ^^^ rc) :: r.drop 1
    else if i % 8 = 4 then prev.map aesSub else prev
  List.zipWith (· ^^^ ·) (w.headD []) t

/-- The sixty words of the AES-256 key schedule. -/
def aesKeys (key : Bytes) : List Bytes :=
  let w0 := (List.range 8).map fun k => slice key (4 * k) 4
  ((List.range 52).foldl (fun (acc : List Bytes × List Bytes) k =>
    let n := aesNext (k + 8) acc.2
    (acc.1 ++ [n], acc.2.drop 1 ++ [n])) (w0, w0)).1

/-- The round keys, sixteen bytes each. -/
def aesRoundKeys (key : Bytes) : List Bytes :=
  let ws := aesKeys key
  (List.range 15).map fun r => (ws.drop (4 * r)).take 4 |>.flatten

def aesShift (s : Bytes) : Bytes := (List.range 16).map fun k => s.getD ((k + 4 * (k % 4)) % 16) 0

def aesMix (s : Bytes) : Bytes := (List.range 16).map fun k =>
  let c := k / 4 * 4
  let a := fun (j : Nat) => s.getD (c + (k + j) % 4) 0
  gfMul 0x1B (a 0) 2 ^^^ gfMul 0x1B (a 1) 3 ^^^ a 2 ^^^ a 3

/-- AES-256 of one block, under its round keys. -/
def aesBlock (rk : List Bytes) (b : Bytes) : Bytes :=
  let x := List.zipWith (· ^^^ ·) b (rk.headD [])
  let y := ((rk.drop 1).take 13).foldl (fun s k => List.zipWith (· ^^^ ·) (aesMix (aesShift (s.map aesSub))) k) x
  List.zipWith (· ^^^ ·) (aesShift (y.map aesSub)) (rk.getD 14 [])

/-- Product of GHASH: bit 0 of a block is its most significant bit. -/
def ghashMul (x y : Nat) : Nat :=
  ((List.range 128).foldl (fun (acc : Nat × Nat) k =>
    (if x / 2 ^ (127 - k) % 2 = 1 then acc.1 ^^^ acc.2 else acc.1,
     if acc.2 % 2 = 1 then (acc.2 / 2) ^^^ (0xE1 * 2 ^ 120) else acc.2 / 2)) (0, y)).1

/-- Sixteen-byte blocks of a byte string, the last filled with zeros. -/
def blocks16 (bs : Bytes) : List Bytes := (List.range (ceilDiv bs.length 16)).map fun k => slice bs (16 * k) 16

/-- The keystream over `n` bytes from counter 2 on (a 96-bit IV). -/
def gcmStream (rk : List Bytes) (iv : Bytes) (n : Nat) : Bytes :=
  ((List.range (ceilDiv n 16)).flatMap fun k => aesBlock rk (iv ++ beBytes 4 (k + 2))).take n

/-- The tag of a ciphertext and its additional data. -/
def gcmTag (rk : List Bytes) (iv aad ct : Bytes) : Bytes :=
  let h := beNat (aesBlock rk (List.replicate 16 0))
  let lens := beBytes 8 (8 * aad.length) ++ beBytes 8 (8 * ct.length)
  let g := (blocks16 aad ++ blocks16 ct ++ [lens]).foldl (fun a b => ghashMul (a ^^^ beNat b) h) 0
  List.zipWith (· ^^^ ·) (beBytes 16 g) (aesBlock rk (iv ++ beBytes 4 1))

/-- AES-256-GCM encryption with a 96-bit IV: ciphertext and 16-byte tag. -/
def gcmSeal (key iv aad pt : Bytes) : Bytes × Bytes :=
  let rk := aesRoundKeys key
  let ct := List.zipWith (· ^^^ ·) pt (gcmStream rk iv pt.length)
  (ct, gcmTag rk iv aad ct)

/-- AES-256-GCM decryption: the plaintext where the tag is right. -/
def gcmOpen (key iv aad ct tag : Bytes) : Option Bytes :=
  let rk := aesRoundKeys key
  if gcmTag rk iv aad ct = tag then some (List.zipWith (· ^^^ ·) ct (gcmStream rk iv ct.length)) else none

end Sys2Proof.Machine
end

