-- ==== Sys2Proof/Machine/State.lean ====
section
/-! DEFINITION. The state of the TF832: every register, pin, buffer, log, queue and persistent record the spec gives it,
as plain data, and the state after reset. Per-unit state stands in `Tab`s keyed by the unit's number; an unlisted unit
has the reset value named beside its structure. -/

namespace Sys2Proof.Machine

/-- Why a step stops with a fault. No command of the table stops: `unspecified` is kept for R373, where a rail other
than the three monitored ones leaves its range and the spec says the behaviour is not specified; no row of the table is
that event, so no meaning raises it. Safe: raising it would only stop a run. -/
inductive Fault where
  /-- R373: raised by no command. Safe. -/
  | unspecified
  deriving DecidableEq, Repr

/-- Why a step refuses. -/
inductive Refusal where
  /-- A command that has no meaning yet: raised only by an arm of `exec` that is not written. Safe. -/
  | notModelled (mnemonic : String)
  deriving DecidableEq, Repr

/-! ### Outputs: what the outside world sees of a step -/

/-- An observable output. `State.out` holds them oldest first. -/
inductive Output where
  /-- a completion entry written to CQ `q` of tenant `u` at slot `slot` (Table 06-2) -/
  | completion (u q slot : Nat) (w0 w1 : Word)
  /-- command data written to host memory for the command with ID `cid` of queue `q` of tenant `u` -/
  | hostData (u q cid : Nat) (data : Bytes)
  /-- an MSI-X message (R78, R337) -/
  | msix (fn vector : Nat)
  /-- the answer to a configuration read: Request Retry Status, or NumVFs, VF Enable and TotalVFs -/
  | cfgRetry (fn : Nat)
  | cfgAnswer (fn vid did subVid subDid totalVfs numVfs : Nat) (vfEnable : Bool)
  /-- the answer to the read of one configuration register -/
  | cfgReg (fn : Nat) (r : CfgReg) (value : Word)
  /-- an AER report of function `fn`: true for Uncorrectable Internal Error, false for advisory non-fatal -/
  | aer (fn : Nat) (uncorrectable : Bool)
  /-- an SMBus answer: data bytes and the packet error code; or a negative acknowledge -/
  | smbus (bytes : Bytes) (pec : Byte)
  | smbusNack
  /-- a downstream express word of transport `t`, sent on lane `n` (Table 13-3) -/
  | express (t n : Nat) (word : BitVec 96)
  /-- a management request or response sent to the front-end of transport `t` (Table 13-6) -/
  | management (t op tag : Nat) (resp : Bool) (arg : Word) (data : Bytes)
  /-- WAKE_N, THERM_N, CLKREQ_N: level driven (false is low) -/
  | wakeN (high : Bool)
  | thermN (high : Bool)
  | clkreqN (high : Bool)
  /-- an interval written to wrap `wrap` of transport `t` as its interval `index` (R206): mask, P, Q, the dataset it carries,
  and for each track the rewritten rows in position order as (DSN, SUB, ROW, RWC) -/
  | interval (t wrap index : Nat) (tmask : BitVec 32) (p q : Nat) (set : Option Dataset) (rewrites : List (List (Nat × Nat × Nat × Nat)))
  /-- a directory copy written (R212): true for copy B -/
  | directory (t : Nat) (copyB : Bool) (dir : Directory)
  /-- the lane `n` starts training: TRAIN words with this transmit preset -/
  | train (n preset : Nat)
  deriving DecidableEq, Repr

/-! ### Configuration -/

/-- TEN settings (Table 04-6). -/
structure TenCfg where
  weight : Nat := 1
  pruneEn : Bool := false
  freeze : Bool := false
  maxQp : Nat := 16
  floor : Nat := 256
  maxVol : Nat := 64
  maxQdepth : Nat := 1024
  keySlots : Nat := 4
  deriving DecidableEq, Repr, Inhabited

/-- TRN settings (Table 04-8). -/
structure TrnCfg where
  ratedSs : Nat := 2000000
  maxSpeed : Nat := 12
  locate : Nat := 100
  verifyV : Nat := 2
  bstart : Nat := 2048
  bstop : Nat := 256
  feMatch : Nat := 0
  deriving DecidableEq, Repr, Inhabited

/-- LOOP settings of one slot (Table 04-9): W0, W1 and the 51 coefficient words. -/
structure LoopCfg where
  w0 : Word := 0
  w1 : Word := 0
  coefs : List Word := []
  deriving DecidableEq, Repr, Inhabited

/-- SOL settings (Table 04-10). -/
structure SolCfg where
  pullinMa : Nat := 1200
  holdMa : Nat := 300
  pullinMs : Nat := 30
  gapMs : Nat := 2
  hsLimitMa : Nat := 1800
  deriving DecidableEq, Repr, Inhabited

/-- PRN settings (Table 04-11). -/
structure PrnCfg where
  l1 : Nat := 85
  l2 : Nat := 92
  l3 : Nat := 97
  hyst : Nat := 5
  gapAggMs : Nat := 1000
  spdIntMs : Nat := 2000
  avgMs : Nat := 250
  margin : Nat := 1050
  burst : Nat := 950
  deriving DecidableEq, Repr, Inhabited

/-- An EVT entry (Table 04-12). -/
structure EvtCfg where
  event : Nat
  owner : Nat
  vector : Nat
  enable : Bool
  deriving DecidableEq, Repr, Inhabited

/-- Early-block settings (Table 04-2). -/
structure EarlyCfg where
  subsysVid : Nat := 0
  subsysDid : Nat := 0
  totalVfs : Nat := 0
  maxSpeed : Nat := 0
  maxWidth : Nat := 0
  aspmL1 : Bool := false
  l11 : Bool := false
  l12 : Bool := false
  classCode : Nat := 0
  deriving DecidableEq, Repr, Inhabited

/-- Every setting of a configuration image (Tables 04-1 to 04-14). -/
structure Settings where
  seq : Nat := 0
  digest : Bytes := []
  signed : Bool := false
  early : EarlyCfg := default
  memCh : Nat := 0
  memPkg : Nat := 0
  memRate : Nat := 0
  trace : Nat := 1
  gpio : BitVec 32 := 0
  dqA : BitVec 48 := 0
  dqB : BitVec 48 := 0
  ten : Tab TenCfg := []
  lanes : BitVec 8 := 0
  paired : BitVec 4 := 0
  txpre : Word := 0
  trn : Tab TrnCfg := []
  loops : Tab LoopCfg := []
  sol : Tab SolCfg := []
  prn : PrnCfg := {}
  evt : List EvtCfg := []
  epochMs : Nat := 1000
  pwr0 : Word := 0
  pwr1 : Word := 0
  deriving DecidableEq, Repr, Inhabited

/-! ### Tenants and queues -/

/-- Queue classes (Table 06-5). -/
inductive QClass where
  | medium | high | low | urgent
  deriving DecidableEq, Repr, Inhabited

/-- A class, a weight and a burst (Table 06-5). -/
structure QSched where
  cls : QClass := .medium
  weight : Nat := 1
  burst : Nat := 1
  deriving DecidableEq, Repr, Inhabited

/-- A queue pair (R82 to R88, R93, R132, R154). `ring` holds the available entries from the SQ head on, as the host
published them (R83); `lookahead` says that the first has been read ahead (R85); `grant` is the segment grant held for
it as (from the shared pool, from the floor); `next` is a Set Queue Class that takes effect at the next decision (R98). -/
structure QueuePair where
  sqBase : Word := 0
  cqBase : Word := 0
  sqDepth : Nat := 2
  cqDepth : Nat := 2
  sqHead : Nat := 0
  sqTail : Nat := 0
  ring : List SubEntry := []
  lookahead : Bool := false
  stopped : Bool := false
  deleting : Bool := false
  sched : QSched := {}
  next : Option QSched := none
  grant : Option (Nat × Nat) := none
  /-- the grant's segments stand in a volume's storage, and its LEN is claimed there (R152) -/
  bound : Bool := false
  /-- MODEL FIELD: durable-ring bytes of the first entry's Durable records, as the decision in progress is given them (R155) -/
  ringNeed : Nat := 0
  vector : Nat := 0
  aggCount : Nat := 0
  aggTime : Nat := 0
  cqTail : Nat := 0
  cqHead : Nat := 0
  phase : Bool := true
  reserved : Nat := 0
  unsignalled : Nat := 0
  aggTimer : Bool := false
  deriving DecidableEq, Repr, Inhabited

/-- A log of 64-byte entries (Table 07-4): its entries oldest first, each of eight words, the entries lost, and the COUNT
the next entry will carry. -/
structure Log where
  entries : List (List Word) := []
  lost : Nat := 0
  next : Nat := 1
  deriving DecidableEq, Repr, Inhabited

/-- An MSI-X table entry with its pending bit (R78). -/
structure MsixVec where
  addr : Word := 0
  data : BitVec 32 := 0
  masked : Bool := true
  pending : Bool := false
  deriving DecidableEq, Repr, Inhabited

/-- The configuration-space fields and MSI-X structures of one PCIe function (R74, R76, R78): the base addresses of its BARs and, on the
PF, of the VFs' BAR0; Device Control; ARI Capable Hierarchy; the status registers of AER. The layouts and the reset values that the spec
leaves to PCI Express Base 6.0 are PRESUMED (assumption 75). -/
structure PcieFn where
  bar0 : Word := 0
  bar2 : Word := 0
  vfBar0 : Word := 0
  devCtl : BitVec 16 := 0x2810
  ari : Bool := false
  aerUnc : BitVec 32 := 0
  aerCor : BitVec 32 := 0
  busMaster : Bool := false
  msixEn : Bool := false
  msixMask : Bool := false
  msix : Tab MsixVec := []
  deriving DecidableEq, Repr, Inhabited

/-- A tenant's freeze (TQ_FRZ, R137). -/
structure Freeze where
  frozen : Bool := false
  sc : Nat := 0
  st : Nat := 0
  sqid : Nat := 0
  cid : Nat := 0
  deriving DecidableEq, Repr, Inhabited

/-- A tenant's weighted round robin (R94): the queue in service, the place after its visit at which the round goes on (256 × its rank +
its ID + 1), the class its burst began under (R98), the grants left in its visit, and the entries left in its burst. -/
structure Wrr where
  queue : Option Nat := none
  pos : Nat := 0
  cls : QClass := .medium
  grants : Nat := 0
  burst : Nat := 0
  deriving DecidableEq, Repr, Inhabited

/-- One tenant: its PCIe function's fields, BAR0 registers, queue pairs, arbitration state and on-chip logs. -/
structure Tenant where
  fn : PcieFn := {}
  cfgEn : Bool := false
  rdy : Bool := false
  cfgErr : Bool := false
  aqa : Word := 0
  asq : Word := 0
  acq : Word := 0
  func : Bool := false
  inFlr : Bool := false
  qps : Tab QueuePair := []
  /-- the admin pair is being deleted because EN was cleared (R81) -/
  disabling : Bool := false
  deficit : Int := 0
  wrr : Wrr := {}
  frz : Freeze := {}
  errLog : Log := {}
  defLog : Log := {}
  pruneLog : Log := {}
  /-- resets of the tenant since POR_N (GEN of Table 07-4) -/
  gen : Nat := 0
  /-- the readable snapshot has been consumed (R343), and the snapshots replaced unread -/
  snapRead : Bool := true
  snapLost : Nat := 0
  deriving DecidableEq, Repr, Inhabited

/-- A record or gap entry held in the buffer: its sequence number (`none` for a gap entry), its bytes as admitted, its
place [start, start + bytes) in the volume's record stream, its place in the volume's buffer storage, the fields of its
header the formatter acts on, its tenant's GEN at admission (R142), and whether an Urgent command admitted it (R129). A
record leaves the list when it is verified, lost or discarded. -/
structure BufRec where
  seq : Option Nat
  bytes : Bytes
  start : Nat
  place : Nat
  tag : Nat
  time : Nat
  durable : Bool
  mark : Bool
  gen : Nat
  urgent : Bool
  deriving DecidableEq, Repr

/-- Where a fetched command stands: not yet executed; or executed and waiting for the condition of R128. -/
inductive CmdStage where
  | fetched
  /-- Flush: every record up to this number verified (R125) -/
  | flushing (upTo : Nat)
  /-- Read Records, Verify Range or a moving Locate waits for its excursion (R121 to R123) or runs in it -/
  | reading (inExcursion : Bool)
  /-- Delete Queue Pair `q` waits for the fetched commands of the pair (R97) -/
  | deletingQp (q : Nat)
  /-- Delete Volume or Clear Key waits for the earlier commands of the volume, named here (R109, R114) -/
  | waitingFor (cmds : List Nat)
  /-- a Transport Control, Lane Service or Channel Service that completes when its condition holds -/
  | service
  /-- Image Write or Image Activate waits for the load to finish (R72) -/
  | afterLoad
  deriving DecidableEq, Repr

/-- A fetched command: its ordinal in fetch order, its tenant and queue, its entry, the SQ head to report, the Pruning
level taken at fetch (R117), whether it came from an Urgent queue, the read-output segments it holds, and its stage.
`data` keeps the host data of a command that waits. -/
structure Cmd where
  id : Nat
  u : Nat
  q : Nat
  entry : SubEntry
  sqhd : Nat
  level : Nat
  urgent : Bool
  cls : QClass
  segs : Nat × Nat
  bound : Bool
  stage : CmdStage
  /-- the highest number assigned to its volume when it was fetched (R125) -/
  seqAt : Nat
  data : HostData
  /-- the records pinned for it in the buffer (R120), as copies -/
  pins : List BufRec := []
  /-- SACHET was set when it was fetched (R46, R145) -/
  sachet : Bool := true
  /-- durable-ring bytes that it claims until it is admitted (R155) -/
  ring : Nat := 0
  deriving DecidableEq, Repr

/-! ### Volumes -/

/-- How far a block has come (R170 to R182). -/
inductive BlockStage where
  | cut | compressed | sealed
  deriving DecidableEq, Repr

/-- A block of a volume from its cut until its datasets are verified: its uncompressed bytes, the start of them in the
record stream, its cut code, the header fields of Table 09-1, its body, its IV, its stored bytes once sealed, and the
DSNs of the datasets that hold its fragments with the bytes already placed. -/
structure Block where
  ordinal : Nat
  raw : Bytes
  start : Nat
  cut : Nat
  bseq : Nat
  foff : Option Nat
  isRaw : Bool
  body : Bytes
  iv : Bytes
  stored : Bytes
  placed : Nat
  dsns : List Nat
  stage : BlockStage
  /-- its place in the order in which all blocks were cut (R172) -/
  cutNo : Option Nat := none
  deriving DecidableEq, Repr

/-- An open gap entry of one stream tag (R236). -/
structure GapOpen where
  time : Nat
  lastTime : Nat
  records : Nat
  level : Nat
  classes : Nat
  bytes : Nat
  deriving DecidableEq, Repr, Inhabited

/-- An online volume. -/
structure Volume where
  uuid : BitVec 128
  tenant : Nat
  transport : Nat
  vidx : Nat
  encrypt : Bool
  strict : Bool
  hold : Bool
  retention : Nat
  nextSeq : Nat
  acked : Nat
  verified : Nat
  key : Option Bytes := none
  kcv : Word := 0
  /-- the ID of the command, where Clear Key has been dispatched (R114), and where Delete Volume has been (R109): it concerns the
  commands fetched after it -/
  clearing : Option Nat := none
  deleting : Option Nat := none
  recs : List BufRec := []
  /-- verified records whose segments have not returned yet (R127) -/
  done : List BufRec := []
  /-- bytes of the record stream so far, and of buffer storage used so far -/
  streamPos : Nat := 0
  bufPos : Nat := 0
  /-- buffer segments held: number in the volume's storage, and the bytes of the granted segments not yet used -/
  segs : List Nat := []
  spare : Nat := 0
  claimed : Nat := 0
  /-- the open block (R170): its bytes, where it starts, and its first header -/
  opn : Bytes := []
  opnStart : Nat := 0
  opnSeq : Nat := 0
  opnFoff : Option Nat := none
  blocks : List Block := []
  nextBlock : Nat := 0
  gaps : Tab GapOpen := []
  /-- closed gap entries that wait for a segment (R236), as their 64 bytes with tag and time -/
  gapWait : List (Nat × Bytes) := []
  /-- AFTER_SEQ of the gap entries that entered the stream since the volume came online -/
  gapAfter : List Nat := []
  chainN : Nat := 0
  chainH : Bytes := []
  chainWait : List ChainEntry := []
  /-- entries waited beyond 16, and 16 or more still do: the volume's datasets close early (R186) -/
  chainOver : Bool := false
  /-- highest verified chain index since the load, with its LAST_SEQ and H (R189) -/
  anchored : Option (Nat × Nat × Bytes) := none
  pruned : Nat := 0
  /-- sequence numbers of marks and marked records, and the marks written since creation -/
  markSeqs : List Nat := []
  marks : Nat := 0
  /-- an armed report: the first and last lost number of the earliest unreported entry (R134) -/
  report : Option (Nat × Nat) := none
  hint : Option Nat := none
  /-- durable records still to be replayed, as (seq, record bytes), and the LOSS_ID of their loss (R166) -/
  replay : List (Nat × Bytes) := []
  replayLoss : Nat := 0
  deriving DecidableEq, Repr

/-! ### Sachet -/

/-- A durable-ring entry (Table 08-4): volume, sequence number, record bytes, its ring offset, whether its CRC passes,
whether it is held for replay and of which loss, and whether its space may be reclaimed. -/
structure RingEntry where
  uuid : BitVec 128
  seq : Nat
  body : Bytes
  off : Nat
  crcOk : Bool
  held : Option Nat
  done : Bool
  deriving DecidableEq, Repr

/-- A crash-record volume entry (Table 08-5). -/
structure CrashVol where
  uuid : BitVec 128
  v : Nat
  a : Nat
  vol : Nat
  tenant : Nat
  transport : Nat
  durable : Nat
  ringFirst : Option Nat
  cart : Word
  deriving DecidableEq, Repr, Inhabited

/-- A crash-record slot: header (Table 08-5a) and volume entries. -/
structure CrashSlot where
  snapSeq : Nat
  lossId : Nat
  reason : Nat
  jstart : Nat
  vols : List CrashVol
  /-- the header passes its CRC -/
  ok : Bool := true
  deriving DecidableEq, Repr, Inhabited

/-- A crash-journal entry (Table 08-5b), its offset in the journal, and whether its CRC passes. -/
structure JournalEntry where
  value : Nat
  slot : Nat
  isV : Bool
  pass : Nat
  off : Nat := 0
  ok : Bool := true
  deriving DecidableEq, Repr, Inhabited

/-- A loss whose Lost Record entry is still to be written at the next load (R166): the volume as the crash record gives
it, with LOSS_ID and REASON. -/
structure PendingLoss where
  vol : CrashVol
  lossId : Nat
  reason : Nat
  /-- a load has applied it -/
  applied : Bool
  /-- the steward gave up its replay (SC_RING_REL) -/
  released : Bool := false
  deriving DecidableEq, Repr

/-- A checkpoint of the life counters (R387): its sequence number, the counts of Sachet writes, the start/stop counts and the last
LOSS_ID. -/
structure Checkpoint where
  seq : Nat := 0
  written : Tab Nat := []
  ss : Tab Nat := []
  lossId : Nat := 0
  deriving DecidableEq, Repr, Inhabited

/-- The persistent memory (Table 08-3, R387), which survives every reset. `dirs` are the cartridge directories in
Sachet by area number, with the cartridge's serial and whether it is loaded; `dirLive` their values with the changes not
yet committed (R165). -/
structure Sachet where
  dirs : Tab (Bytes × Directory) := []
  /-- area numbers of unloaded cartridges, least recently unloaded first -/
  idle : List Nat := []
  anchors : Tab Log := []
  lostRec : Tab Log := []
  orphan : Tab Log := []
  ring : List RingEntry := []
  ringHead : Nat := 0
  shadowSeq : Nat := 0
  shadowDigest : Bytes := []
  /-- start/stop counts by transport number, and the last LOSS_ID -/
  ss : Tab Nat := []
  lossId : Nat := 0
  slotA : CrashSlot := default
  slotB : CrashSlot := default
  /-- entries of the last two snapshots' passes, oldest first -/
  journal : List JournalEntry := []
  journalPos : Nat := 0
  /-- per directory area the deltas of its directory that still stand in the delta ring, in bytes, and where the oldest one begins, in
  bytes written to the ring before it (R387) -/
  deltas : Tab (Nat × Nat) := []
  /-- what has been written since first use, from which the passes of every 4 KiB page follow (R158, R387): bytes to the delta ring (0),
  the durable ring (1), the crash journal (3); checkpoints (2), snapshots (4), image blocks (5), and whole writes of directory area a (8 + a) -/
  written : Tab Nat := []
  /-- the last checkpoint and the one before it -/
  ckpt : Checkpoint := {}
  ckptWas : Checkpoint := {}
  pendingLoss : List PendingLoss := []
  deriving DecidableEq, Repr, Inhabited

/-! ### Lanes -/

/-- Lane states (Table 13-7). -/
inductive LaneState where
  | absent | down | training | up | quarantined | rejoining
  deriving DecidableEq, Repr, Inhabited

/-- One lane. -/
structure Lane where
  state : LaneState := .absent
  rxInv : Bool := false
  txInv : Bool := false
  held : Bool := false
  preset : Nat := 0
  /-- transmit taps in force, in units of 0.025: pre-cursor and post-cursor -/
  tapPre : Int := 0
  tapPost : Int := 0
  feId : BitVec 32 := 0
  /-- training: TRAIN words seen with RX_READY; own receiver ready; training done (IDENT accepted) -/
  feReady : Bool := false
  trained : Bool := false
  /-- the lane returns to Up only after a clean window (R276) -/
  needClean : Bool := false
  mismatch : Bool := false
  corrected : BitVec 32 := 0
  uncorr : BitVec 16 := 0
  /-- periods of the uncorrectable codewords in the window of R275 -/
  window : List Nat := []
  bad : BitVec 24 := 0
  dup : BitVec 16 := 0
  framesBad : BitVec 12 := 0
  wdog : BitVec 12 := 0
  reqd : BitVec 32 := 0
  lost : BitVec 32 := 0
  switchSn : BitVec 48 := 0
  rejoins : BitVec 8 := 0
  quarantines : BitVec 8 := 0
  /-- slots in a row with no well-formed copy, and with one (slot lock, R269) -/
  badRun : Nat := 0
  goodRun : Nat := 0
  locked : Bool := false
  rxUncorr : BitVec 16 := 0
  /-- PROPOSE sent and unanswered, and how often -/
  proposing : Bool := false
  proposals : Nat := 0
  /-- a Lane Service Reset of this lane runs -/
  resetting : Bool := false
  /-- the request of the last TRAIN word received -/
  trainReq : Nat := 0
  deriving DecidableEq, Repr, Inhabited

/-! ### Transports -/

/-- Transport states (Table 15-1). -/
inductive TState where
  | absent | unloaded | loading | relaxed | parked | streaming | locating | stopping | unloading | outOfService
  deriving DecidableEq, Repr, Inhabited

/-- A motion target (R314, Table 15-10). -/
structure Target where
  x : Int
  dir : Bool
  speed : Nat
  kind : Nat
  deriving DecidableEq, Repr, Inhabited

/-- A row to be rewritten (R209): its identity, the RWC its next copy carries, the track that last carried it, and the
position on the wrap (in channel bits) from which a separator may carry it. -/
structure RewriteRow where
  dsn : Nat
  sub : Nat
  row : Nat
  rwc : Nat
  track : Nat
  due : Nat
  deriving DecidableEq, Repr

/-- An interval written and not yet wholly read back: its ordinal since load, the dataset it carries (if any), mask, P
and Q, the verify threshold in force at its separator (R219), where it begins and ends on the wrap in channel bits, the rows of its
dataset whose status is known, the rewritten rows in it without one (with the RWC
and the track of this copy), and per channel the rows read back: (rows, failed, probes, probes failed). -/
structure IntervalRec where
  ord : Nat
  dsn : Option Nat
  tmask : BitVec 32
  p : Nat
  q : Nat
  v : Nat
  start : Nat
  stop : Nat
  reported : BitVec 3328
  rewrites : List RewriteRow
  /-- the rewritten rows as they waited before this interval took them -/
  was : List RewriteRow
  seen : Tab (Nat × Nat × Nat × Nat)
  /-- per channel the sums of squares of R246 over the rows read back -/
  energy : Tab (Nat × Nat) := []
  /-- the copy of its dataset that stood on tape before, and the directory's EOD_DSN, extents and wrap groups then: what stands where its
  writing stops part-way (R211) -/
  copy : Option Dataset := none
  eodWas : Nat := 0
  extWas : List Extent := []
  grpWas : Tab WrapGroup := []
  deriving DecidableEq, Repr

/-- A written dataset until it is verified: the rows with an accepted copy by 32 * row + sub, the retries made that count
(R221), and whether a retry is due. -/
structure DsState where
  set : Dataset
  accepted : BitVec 3328
  retries : Nat
  retryDue : Bool
  deriving DecidableEq, Repr

/-- A volume's region in the dataset being filled. -/
structure Fill where
  dsn : Nat
  gpos : Nat
  regions : List Region
  /-- blocks whose first byte lies in this dataset, by volume slot (R182) -/
  index : Tab Nat
  deriving DecidableEq, Repr, Inhabited

/-- Track channel states (R248). -/
inductive ChanState where
  | inService | out | outHeld
  deriving DecidableEq, Repr, Inhabited

/-- A track channel: its state, the window of the last four intervals as (rows, failed), and the figures of TP_CHQ and of
the Transport Health log (Tables 12-2 and 12-6). `taps` are free values of the adapted taps (equaliser, canceller,
predictor); 0 stands for the initial values. -/
structure Chan where
  state : ChanState := .inService
  /-- a decision or order taken that acts at the next separator: leave as Out, leave as Out Held, return -/
  leaving : Option Bool := none
  returning : Bool := false
  resetTaps : Bool := false
  window : List (Nat × Nat) := []
  fail4 : Nat := 0
  rows4 : Nat := 0
  snr : BitVec 8 := 0
  probeRun : Nat := 0
  syncMiss : BitVec 16 := 0
  takeouts : BitVec 8 := 0
  rows : BitVec 32 := 0
  failed : BitVec 32 := 0
  corrected : BitVec 32 := 0
  viol : BitVec 32 := 0
  probes : Nat := 0
  probesFailed : Nat := 0
  outMs : Nat := 0
  clipped : BitVec 32 := 0
  tapsEq : Word := 0
  tapsFtc : Word := 0
  /-- the filters of the noise predictor, one for each four-bit data pattern (R243); empty: all at their initial values -/
  tapsNp : List Word := []
  /-- a sync was missed: the framer searches over the whole of the next row position (R241) -/
  search : Bool := false
  /-- sync misses of intervals not yet complete on the channel (R246) -/
  missNew : Nat := 0
  /-- the window has passed the threshold, and the decision is to be taken with the interval's other channels (R249, R258) -/
  crossing : Bool := false
  /-- the write waveform of the last 23 sample instants, newest first, and the samples of the last frame after the feedthrough canceller, in
  units of 1/65536 (R242) -/
  wave : List Int := []
  residue : List Int := []
  deriving DecidableEq, Repr, Inhabited

/-- State of one biquad: its last two inputs and outputs (R298). -/
structure Biquad where
  x1 : Int := 0
  x2 : Int := 0
  y1 : Int := 0
  y2 : Int := 0
  deriving DecidableEq, Repr, Inhabited

/-- A control-engine loop slot (chapter 14). Data values are integers in units of the slot's data LSB. -/
structure Slot where
  w0 : Word := 0
  w1 : Word := 0
  active : List Word := []
  shadow : List Word := []
  stale : Bool := false
  frozen : Bool := false
  miss : Bool := false
  fault : Bool := false
  hold : Bool := false
  sensorless : Bool := false
  bemf : Bool := false
  sat : Bool := false
  retries : Nat := 0
  stales : BitVec 16 := 0
  freezes : BitVec 16 := 0
  misses : BitVec 16 := 0
  faults : BitVec 16 := 0
  x : Int := 0
  out : Int := 0
  integ : Int := 0
  ePrev : Int := 0
  biquads : Tab Biquad := []
  /-- the previous output was clamped at OUT_MAX, or at OUT_MIN -/
  atMax : Bool := false
  atMin : Bool := false
  pending : Bool := false
  clrState : Bool := false
  err : Bool := false
  errIdx : Nat := 0
  released : Bool := false
  missRun : Nat := 0
  /-- the last measurement and the jobs in a row that saw it unchanged (R305) -/
  lastM : Option Int := none
  sameRun : Nat := 0
  /-- the shadow words as they stood at the last COMMIT, while it is pending -/
  commitWords : List Word := []
  deriving DecidableEq, Repr, Inhabited

/-- The solenoid sequencer of a transport (R322): brake A, brake B, latch by number 0, 1, 2. -/
structure Solenoids where
  energ : BitVec 3 := 0
  pullin : Option Nat := none
  wait : List Nat := []
  solSt : BitVec 3 := 0
  hsOc : BitVec 16 := 0
  brakeFaults : BitVec 16 := 0
  deriving DecidableEq, Repr, Inhabited

/-- An outstanding management request (R284). -/
structure MgmtReq where
  tag : Nat
  op : Nat
  arg : Word
  data : Bytes
  retries : Nat
  lane : Nat
  deriving DecidableEq, Repr, Inhabited

/-- An excursion in progress (R121 to R123): the fetched commands it carries, and whether the Urgent replacement of R329
was used. -/
structure Excursion where
  cmds : List Nat
  atTarget : Bool
  /-- it left a transport that was writing -/
  resume : Bool
  deriving DecidableEq, Repr, Inhabited

/-- What the stop in progress leads to: Parked, or Out of Service with this cause (R315). -/
inductive StopGoal where
  | parked
  | outOfService (cause : Nat)
  | reload
  deriving DecidableEq, Repr, Inhabited

/-- What a start from Relaxed leads to once both brakes count as released (Table 15-2). -/
inductive StartGoal where
  | park
  | burst
  | excursion (cmds : List Nat)
  deriving DecidableEq, Repr, Inhabited

/-- Motion, solenoids and the load and unload sequences of a transport (chapter 15). -/
structure Motion where
  state : TState := .absent
  oosCause : Nat := 0
  cartPresent : Bool := false
  threaded : Bool := false
  x : Int := 0
  vel : Int := 0
  /-- FCOUNT of the last SERVO word, once one has set the position (R311) -/
  fcount : Option Nat := none
  target : Option Target := none
  lastTarget : Target := default
  pendingTarget : Option Target := none
  replans : BitVec 16 := 0
  reversals : BitVec 16 := 0
  emergencies : BitVec 16 := 0
  loads : BitVec 16 := 0
  autoload : Bool := true
  stopGoal : StopGoal := .parked
  starting : Option StartGoal := none
  exc : Option Excursion := none
  servoAcquired : Bool := false
  acquireRun : Nat := 0
  attempts : Nat := 0
  holdRun : Nat := 0
  idleMs : Nat := 0
  deriving DecidableEq, Repr, Inhabited

/-- The load and unload sequences (R319, R320) and what they set: steps done, scan running, the command to complete, the
cartridge and its directory with changes not yet committed (R165), the copy last read or written (R212, true for B),
calibration parameters, and the withdrawn latch. -/
structure Loading where
  step : Nat := 0
  scan : Bool := false
  dirUnreadable : Bool := false
  cart : Option Cartridge := none
  dir : Directory := default
  dirDirty : Bool := false
  lastCopyB : Bool := true
  params : List (Nat × Word) := []
  latchOut : Bool := false
  /-- MODEL FIELD: the read-back of the directory copies still to be written, and whether servo can be acquired for an unload -/
  dirRead : DirRead := []
  servoOk : Bool := true
  /-- the verify threshold in force at the separators of the last directory copy (R219) -/
  dirV : Nat := 0
  /-- directory changes made since the last commit (R387) -/
  dirDeltas : Nat := 0
  resetting : Bool := false
  dirFails : Nat := 0
  /-- MODEL FIELD: what the load of a transport reset will meet, until its lanes are Up again -/
  env : Option LoadEnv := none
  /-- MODEL FIELD: the words that the lanes' FIFOs will discard when the transport reset retrains them (R36) -/
  disc : Discards := []
  deriving DecidableEq, Repr, Inhabited

/-- The AF-1 writer of a transport (chapter 10): the append point and numbering, the registers of Tables 10-9 to 10-12,
the open group, the dataset being filled, the encoded datasets waiting, the written datasets not yet verified, the
rows to be rewritten and the intervals not yet wholly read back. -/
structure Format where
  wrap : Nat := 0
  /-- the wrap that the dataset being filled goes to -/
  packWrap : Nat := 0
  interval : Nat := 0
  /-- the append point along the wrap, in channel bits from its start -/
  wrapBits : Nat := 0
  nextDsn : Nat := 0
  dsnLimit : Nat := 0
  tmask : BitVec 32 := 0
  nact : Nat := 0
  p : Nat := 0
  q : Nat := 0
  rwRows : BitVec 32 := 0
  rwOnly : BitVec 16 := 0
  overflow : BitVec 16 := 0
  /-- every wrap group holds live data (R386) -/
  halted : Bool := false
  /-- a refusal for want of capacity has been announced since the load (R112) -/
  fullSaid : Bool := false
  group : List Dataset := []
  fill : Option Fill := none
  queue : List Dataset := []
  sets : List DsState := []
  rewrites : List RewriteRow := []
  intervals : List IntervalRec := []
  nextOrd : Nat := 0
  writing : Bool := false
  /-- the append point is about to stop: the group closes and rewrites finish (R199, R210) -/
  closing : Bool := false
  /-- the rest of the wrap is abandoned (R223): 0 no, 1 once the interval in progress is written, 2 counted, and the append point waits for a
  wrap (R386) -/
  abandon : Nat := 0
  deriving DecidableEq, Repr, Inhabited

/-- The speed governor of a transport (R226 to R234). Times are in evaluations of 1 ms. -/
structure Governor where
  speed : Nat := 0
  goal : Nat := 0
  level : Nat := 0
  burst : Bool := false
  drain : Bool := false
  inflow : Nat := 0
  changes : BitVec 16 := 0
  offered : Nat := 0
  offeredMs : List Nat := []
  sinceChange : Nat := 0
  lowFor : Nat := 0
  lowMax : Nat := 0
  entryRaise : Bool := false
  pressure : Nat := 0
  pressPending : Nat := 0
  /-- PRN W1 and MAX_SPEED still in use until the next dataset boundary, after an override (Table 04-18) -/
  prnUse : Option PrnCfg := none
  maxUse : Option Nat := none
  deriving DecidableEq, Repr, Inhabited

/-- Verify counters of a transport (Table 11-5, Table 11-7) and the wraps of R224. -/
structure Verifier where
  rowsFailed : BitVec 32 := 0
  retries : Nat := 0
  abandoned : Nat := 0
  unwritable : Bool := false
  wrapsBegun : Nat := 0
  abandonAt : List Nat := []
  pruneRecords : BitVec 32 := 0
  pruneGaps : BitVec 32 := 0
  deriving DecidableEq, Repr, Inhabited

/-- The read channel of a transport (chapter 12): TP_RC_CFG and TP_RC_TARGET as written and as in use since the last
separator (R244), the channels, and TP_RC_REC. -/
structure ReadChannel where
  cfg : Word := 0x664
  target : Word := 0xE020
  cfgUsed : Word := 0x664
  targetUsed : Word := 0xE020
  chans : Tab Chan := []
  c3 : BitVec 16 := 0
  reread : BitVec 16 := 0
  unrec : BitVec 16 := 0
  deriving DecidableEq, Repr, Inhabited

/-- What the front-end of a transport last reported (Table 13-17, Table 13-5, R345). -/
structure FrontEnd where
  temp : BitVec 16 := 0x8000
  vmot : BitVec 16 := 0
  vlog : BitVec 16 := 0
  clip : BitVec 8 := 0
  late : BitVec 8 := 0
  upVmot : Option Nat := none
  upVlog : Option Nat := none
  tempArmed : Bool := true
  supplyArmed : Bool := true
  supplyOk : Nat := 0
  wfill : Nat := 0
  gate : Bool := false
  asAct : Bool := false
  asDone : Bool := false
  tension : Nat := 0
  iA : Int := 0
  iB : Int := 0
  y0 : Int := 0
  y1 : Int := 0
  v0 : Bool := false
  v1 : Bool := false
  speedRaw : Nat := 0
  dirEot : Bool := false
  tachA : Nat × Nat := (0, 0)
  tachB : Nat × Nat := (0, 0)
  edgeA : Int := 0
  edgeB : Int := 0
  deriving DecidableEq, Repr, Inhabited

/-- The guard unit and reel registers of a transport (Table 14-8), the SERVO words in a row with the permit held, the
separator a GATE open is requested for (R303), and the DRIVE word last sent. -/
structure Guard where
  cfg : Word := 0x10140258
  permit : Bool := false
  gate : Bool := false
  lastCause : Nat := 0
  cntStale : BitVec 16 := 0
  cntInvalid : BitVec 16 := 0
  cntOff : BitVec 16 := 0
  cntSpeed : BitVec 16 := 0
  validRun : Nat := 0
  openReq : Option Nat := none
  bemfA : BitVec 32 := 0
  bemfB : BitVec 32 := 0
  ratioA : BitVec 32 := 0
  ratioB : BitVec 32 := 0
  drive : Word := 0
  deriving DecidableEq, Repr, Inhabited

/-- The head link of a transport (chapter 13): SEQ of the next downstream word, upstream words accepted lately as (type,
seq, period), the sample frames by SN, the write bit index of the next separator, the write clock RATE last sent, the first QUARANTINE received as (lane, period), and
the outstanding management requests. -/
structure Link where
  txSeq : Nat := 0
  rxRecent : List (Nat × Nat × Nat) := []
  snNext : Nat := 0
  snHigh : Nat := 0
  snMissing : List Nat := []
  wbi : Nat := 0
  wclk : Nat := 0
  quarFirst : Option (Nat × Nat) := none
  mgmt : List MgmtReq := []
  nextTag : Nat := 0
  deriving DecidableEq, Repr, Inhabited

/-- One transport. -/
structure Transport where
  mot : Motion := {}
  sol : Solenoids := {}
  ld : Loading := {}
  fmt : Format := {}
  gov : Governor := {}
  vfy : Verifier := {}
  rc : ReadChannel := {}
  fe : FrontEnd := {}
  gu : Guard := {}
  link : Link := {}
  slots : Tab Slot := []
  deriving DecidableEq, Repr, Inhabited

/-! ### Device -/

/-- An event source (R335, R336). -/
structure EvSource where
  sts : Bool := false
  count : Nat := 0
  ena : Bool := false
  owner : Nat := 0
  vector : Nat := 0
  deriving DecidableEq, Repr, Inhabited

/-- A readable statistics snapshot (R341, R342). -/
structure Snapshot where
  epoch : Nat := 0
  startUs : Nat := 0
  lengthUs : Nat := 0
  epochMs : Nat := 0
  psSeen : Nat := 0
  counters : Tab Nat := []
  deriving DecidableEq, Repr, Inhabited

/-- A Tamper input's debounce (R18): the debounce of an assertion runs; a further assertion may count. -/
structure GpioPin where
  running : Bool := false
  armed : Bool := true
  deriving DecidableEq, Repr, Inhabited

/-- Fuses and wiring fixed before reset: the image-key hash (R63), and DV_SERIAL (Table 18-9). -/
structure Fuses where
  keyHash : Option Bytes := none
  serial0 : Word := 0x2020202020202020
  serial1 : Word := 0x2020202020202020
  deriving DecidableEq, Repr, Inhabited

/-- A control-engine core's summary register (Table 14-9), and the CK_CTL cycles its jobs have taken in this epoch (R291). -/
structure Core where
  load : BitVec 16 := 0
  resp0 : BitVec 16 := 0
  replays : BitVec 16 := 0
  misses : BitVec 16 := 0
  busy : Nat := 0
  deriving DecidableEq, Repr, Inhabited

/-- Pins (Table 02-4): POR_N and PERST_N as driven, the outputs WAKE_N, THERM_N and CLKREQ_N (true is high), the straps
sampled (R14), whether the supply monitor holds its reset (R357), and whether CK_AO runs on the backup (R368). -/
structure Pins where
  porN : Bool := false
  perstN : Bool := false
  wakeN : Bool := true
  thermN : Bool := true
  clkreqN : Bool := true
  straps : BitVec 3 := 0
  monitorReset : Bool := false
  backup : Bool := false
  deriving DecidableEq, Repr, Inhabited

/-- Readiness, reset and fatal registers (Tables 03-8, 03-9, 03-11, 07-8), the SR-IOV fields (R74), and the quiesce in
force (R164): 0 none, else the snapshot REASON that it wrote (3 power loss, 4 PERST_N, 5 device fatal). -/
structure Device where
  ready : BitVec 28 := 0
  lastReset : Nat := 0
  bufInit : Nat := 0
  ctlPending : BitVec 4 := 0
  fatal : BitVec 12 := 0
  clkId : Nat := 0
  fatalFirst : Nat := 0
  xdisc : BitVec 32 := 0
  xid : Nat := 0
  dsnResv : Nat := 0
  /-- steps of Table 08-6 done of the quiesce in force (4: all) -/
  qstep : Nat := 0
  /-- the clocks declared lost, by CLK_ID (R31) -/
  lostClks : BitVec 8 := 0
  /-- MODEL FIELD: `msNow` at the reset release, from which the bounds of Table 03-4 run (R40) -/
  releaseMs : Nat := 0
  vfEnable : Bool := false
  numVfs : Nat := 0
  quiesced : Nat := 0
  deriving DecidableEq, Repr, Inhabited

/-- The NVM (canonical cells; an unlisted byte reads 0xFF), the early block in force (copy and bytes), the load results
(Tables 04-21 and 04-22), the settings loaded and the settings in force (R67, R68). -/
structure Image where
  nvm : List Host.Cell := []
  earlyFrom : Option Bool := none
  earlyBytes : Bytes := []
  early : EarlyCfg := default
  loaded : Bool := false
  safe : Bool := false
  copyB : Bool := false
  aCode : Nat := 0xFF
  bCode : Nat := 0xFF
  aOff : Nat := 0
  bOff : Nat := 0
  sigChecked : Bool := false
  nextCopy : Bool := false
  img : Settings := default
  cfg : Settings := default
  deriving DecidableEq, Repr, Inhabited

/-- GPIO (Tables 02-12, 02-13): FUNC and POL in their register places as CF_GPIO reads them, and as they are in force (R17, R19), OUT, WAKE, LEVEL, the TAMPER latch, the debounce,
and the assertions whose events and chain entries wait for a load or for the end of a PS3 exit (R19, R385). -/
structure Gpio where
  rwl : BitVec 32 := 0
  inForce : BitVec 32 := 0
  out : BitVec 4 := 0
  wake : BitVec 4 := 0
  level : BitVec 4 := 0xF
  tamper : BitVec 4 := 0
  debounce : Tab GpioPin := []
  held : List Nat := []
  deriving DecidableEq, Repr, Inhabited

/-- DV_TEMP, PM_VMON and PM_VMON2 (Tables 16-16, 17-13, 17-14). -/
structure Thermal where
  temp : BitVec 16 := 0x8000
  peak : BitVec 16 := 0x8000
  limit : Bool := false
  shut : Bool := false
  vmon : Word := 0
  vmon2 : Word := 0
  deriving DecidableEq, Repr, Inhabited

/-- The power manager (Table 16-15, R344): the state, an exit in progress, the last trigger, the time the idle intervals
of PS1, PS2 and PS3 have run in ms, TLIM, and the lanes to bring back after PS3. -/
structure Power where
  state : Nat := 0
  exiting : Bool := false
  lastWake : Nat := 0
  idle1 : Nat := 0
  idle2 : Nat := 0
  idle3 : Nat := 0
  tlim : BitVec 8 := 100
  lanesBack : List Nat := []
  /-- events of the always-on domain that occurred in PS3 and wait for the exit (R385) -/
  held : List Nat := []
  transportsBack : List Nat := []
  /-- an exit trigger that arrived during the entry to the next state (R350) -/
  cut : Option WakeCause := none
  deriving DecidableEq, Repr, Inhabited

/-- The statistics unit (Table 16-14, R340 to R343): the epoch in force, its length and the next one's, the last
boundary, the counters, the power states seen, the snapshot being copied and the readable one. -/
structure Stats where
  epoch : Nat := 0
  epochMs : Nat := 1000
  nextMs : Nat := 1000
  missed : BitVec 32 := 0
  boundUs : Nat := 0
  /-- CK_AO time at which the epoch in force opened: the last boundary, or the reset release (Table 16-5) -/
  openUs : Nat := 0
  counters : Tab Nat := []
  psSeen : Nat := 1
  holding : Option Snapshot := none
  snap : Option Snapshot := none
  deriving DecidableEq, Repr, Inhabited

/-- Arbitration (R89 to R92): the Urgent pointer, the tenant whose turn it is and whether its turn has begun, the admin
pointer, the ordinal of the next fetched command, and the fetched commands not yet completed. -/
structure Arb where
  urgTenant : Nat := 0
  urgQueue : Nat := 0
  tenant : Nat := 0
  inTurn : Bool := false
  admin : Nat := 0
  nextCmd : Nat := 0
  cmds : List Cmd := []
  deriving DecidableEq, Repr, Inhabited

/-- The buffer manager (Tables 08-2, 08-8 to 08-11): pool counts and registers, and the allocator's pointer (R167). -/
structure Buffer where
  segTotal : Nat := 0
  shared : Nat := 0
  sharedFree : Nat := 0
  urgFree : Nat := 0
  floorFree : Tab Nat := []
  corrected : BitVec 32 := 0
  uncorr : Nat := 0
  retired : Nat := 0
  waitReq : Nat := 0
  waitUrg : Nat := 0
  pointer : Nat := 0
  /-- blocks cut so far (R172) -/
  nextCut : Nat := 0
  deriving DecidableEq, Repr, Inhabited

/-- The whole machine. -/
structure State where
  /-- commands waiting, first in first out -/
  pending : List Instr
  /-- outputs so far, oldest first -/
  out : List Output
  /-- MODEL FIELD: how many free values have been taken -/
  freeCtr : Nat
  /-- MODEL FIELD: 1 ms evaluations made (R153) -/
  msNow : Nat
  fuses : Fuses
  pins : Pins
  dev : Device
  image : Image
  gpio : Gpio
  therm : Thermal
  pm : Power
  ev : Tab EvSource
  stats : Stats
  tenants : Tab Tenant
  arb : Arb
  bm : Buffer
  vols : Tab Volume
  lanes : Tab Lane
  tps : Tab Transport
  cores : Tab Core
  sachet : Sachet
  deriving DecidableEq, Repr

/-- The machine as power is applied, POR_N low: every field at the value its register's Reset column gives (R6), every
memory and table empty (an unlisted unit has its structure's default values). Where the spec gives no value the
assumption log names the one taken. -/
def State.reset : State where
  pending := []
  out := []
  freeCtr := 0
  msNow := 0
  fuses := {}
  pins := {}
  dev := {}
  image := {}
  gpio := {}
  therm := {}
  pm := {}
  ev := []
  stats := {}
  tenants := []
  arb := {}
  bm := {}
  vols := []
  lanes := []
  tps := []
  cores := []
  sachet := {}

end Sys2Proof.Machine
end

