-- ==== Sys2Proof/Machine/Loops.lean ====
section
/-! DEFINITION. Loop slots: the checks of a LOOP section's words (R293, R296, R298, R299) and the arithmetic of a job (R295,
R297, R298). Data values are integers in units of the format's LSB: Q1.15 for F16, Q1.31 for X32. -/

namespace Sys2Proof.Machine

/-! ### Fields of W0 and W1 (Table 04-9) -/

def loopEnable (w0 : Word) : Bool := bit w0 0
def loopX32 (w0 : Word) : Bool := bit w0 1
def loopNbq (w0 : Word) : Nat := fld w0 7 4
def loopInput (w0 : Word) : Nat := fld w0 13 8
def loopRef (w0 : Word) : Bool := bit w0 14
def loopOutput (w0 : Word) : Nat := fld w0 23 16
def loopFf (w0 : Word) : Nat := fld w0 31 24
def loopStaleN (w0 : Word) : Nat := fld w0 39 32
def loopFreezeM (w0 : Word) : Nat := fld w0 55 40
def loopPeriod (w1 : Word) : Nat := fld w1 31 0
def loopFreezeThr (w1 : Word) : Nat := fld w1 63 32

/-- Codes of Table 14-2 that name a measurement. -/
def loopSignalOk (c : Nat) : Bool := decide (c ≤ 9) || (decide (0x10 ≤ c) && decide (c ≤ 0x17))

/-- W0 of slot `k` in range. -/
def loopW0Ok (k : Nat) (w : Word) : Bool :=
  fld w 3 2 == 0 && fld w 63 56 == 0 && !bit w 15 && decide (loopNbq w ≤ 8) && decide (0 < loopStaleN w) &&
    decide (0 < loopFreezeM w) && loopSignalOk (loopInput w) && (loopSignalOk (loopFf w) || loopFf w == 0x20) &&
    (if k ≤ 1 then !loopX32 w else if k ≤ 4 then loopX32 w else true) &&
    (if k ≤ 4 then loopOutput w == k + 1 else loopOutput w == 0 || (decide (0x10 ≤ loopOutput w) && decide (loopOutput w ≤ 0x1F)))

/-- W1 of slot `k` in range (R293). -/
def loopW1Ok (k : Nat) (w0 w : Word) : Bool :=
  let p := loopPeriod w
  if k = 0 then p == 0 else if k = 1 then p == 80000 else if k ≤ 4 then p == 40000
  else !loopEnable w0 || (decide (8000 ≤ p) && decide (p ≤ 8000000))

/-- Coefficients marked data in Table 14-4, by word number. -/
def coefIsData (k : Nat) : Bool := k == 2 || k == 47 || k == 48 || k == 50 || k == 51 || k == 52

/-- The exponent E of an F16 coefficient (Table 14-4). -/
def coefExp (k : Nat) : Nat := if k = 3 || k = 44 || k = 46 || k = 49 then 3 else if 4 ≤ k && k ≤ 43 then 1 else 0

/-- The mantissa of a coefficient word. -/
def coefMant (x32 : Bool) (w : Word) : Int := if x32 then signed 32 (fld w 31 0) else signed 16 (fld w 15 0)

/-- Word `k` (2 to 52) of a slot's coefficients in range (R296, R298); a relation between two words is charged to the later. -/
def coefOk (w0 : Word) (cs : List Word) (k : Nat) : Bool :=
  let x := loopX32 w0
  let at' := fun (j : Nat) => cs.getD (j - 2) 0
  let w := at' k
  let v := fun (j : Nat) => coefMant x (at' j)
  fld w 63 37 == 0 &&
    (if x then !coefIsData k || fld w 36 32 == 0
     else fld w 36 32 == 0 && fld w 31 16 == (if bit w 15 then 0xFFFF else 0)) &&
    (if 4 ≤ k && k ≤ 43 && loopNbq w0 ≤ (k - 4) / 5 then w == 0 else true) &&
    (if k = 48 then decide (v 47 ≤ v 48) else if k = 50 then decide (0 ≤ v 50) else if k = 52 then decide (v 51 ≤ v 52) else true)

/-- The first failing coefficient word. -/
def coefFirstBad (w0 : Word) (cs : List Word) : Option Nat := ((List.range 51).map (· + 2)).find? fun k => !coefOk w0 cs k

/-! ### Arithmetic -/

/-- Fractional bits of the accumulator beyond those of the data: 15 for F16 (Q10.30), 17 for X32 (Q24.48). -/
def accShift (x32 : Bool) : Nat := if x32 then 17 else 15
/-- The greatest data value. -/
def dataMax (x32 : Bool) : Int := if x32 then 2 ^ 31 - 1 else 2 ^ 15 - 1

/-- Division by 2^n, rounding half upward (R297). -/
def roundShift (n : Nat) (a : Int) : Int := if n = 0 then a else (a + 2 ^ (n - 1)) / 2 ^ n

/-- A product of a data value and the coefficient of word `k`, in accumulator units (R297). -/
def loopProd (x32 : Bool) (k : Nat) (w : Word) (d : Int) : Int :=
  if x32 then
    let sh := signed 5 (fld w 36 32)
    let p := coefMant true w * d
    if 14 ≤ sh then p * 2 ^ (sh - 14).toNat else roundShift (14 - sh).toNat p
  else coefMant false w * d * 2 ^ coefExp k

/-- Saturation to the data range: the value and whether it was clamped. -/
def saturate (x32 : Bool) (v : Int) : Int × Bool :=
  let m := dataMax x32
  if m < v then (m, true) else if v < -m - 1 then (-m - 1, true) else (v, false)

/-- The conversion of a stage output to the data format (R297). -/
def stageOut (x32 : Bool) (acc : Int) : Int × Bool := saturate x32 (roundShift (accShift x32) acc)

/-- Biquads `i` to NBQ - 1 (R298 step 2): the last output, the states and whether a stage saturated. -/
def runBiquads (x32 : Bool) (cs : List Word) : Nat → Nat → Int → Tab Biquad → Bool → Int × Tab Biquad × Bool
  | 0, _, x, st, sat => (x, st, sat)
  | n + 1, i, x, st, sat =>
    let b := Tab.get {} st i
    let c := fun (j : Nat) => cs.getD (2 + 5 * i + j) 0
    let p := fun (j : Nat) (d : Int) => loopProd x32 (4 + 5 * i + j) (c j) d
    let y := stageOut x32 (p 0 x + p 1 b.x1 + p 2 b.x2 - p 3 b.y1 - p 4 b.y2)
    runBiquads x32 cs n (i + 1) y.1 (Tab.set i { x1 := x, x2 := b.x1, y1 := y.1, y2 := b.y1 } st) (sat || y.2)

/-- A value limited to [lo, hi]. -/
def clampI (lo hi v : Int) : Int := if hi < v then hi else if v < lo then lo else v

/-- One job (R298): measurement `m`, reference `r` and feedforward `f` in the slot's data format. -/
def loopJob (z : Slot) (m r f : Int) : Slot :=
  let x32 := loopX32 z.w0
  let cs := z.active
  let c := fun (k : Nat) => cs.getD (k - 2) 0
  let v := fun (k : Nat) => coefMant x32 (c k)
  let sh := accShift x32
  let x := stageOut x32 (loopProd x32 3 (c 3) (r - m + v 2))
  let (e, bq, sat) := runBiquads x32 cs (loopNbq z.w0) 0 x.1 z.biquads x.2
  let ki := loopProd x32 45 (c 45) e
  let hold := (z.atMax && decide (0 < ki)) || (z.atMin && decide (ki < 0))
  let integ := if hold then z.integ else clampI (v 47 * 2 ^ sh) (v 48 * 2 ^ sh) (z.integ + ki)
  let sum := stageOut x32 (loopProd x32 44 (c 44) e + integ + loopProd x32 46 (c 46) (e - z.ePrev) + loopProd x32 49 (c 49) f)
  let lim := if 0 < v 50 then clampI (z.out - v 50) (z.out + v 50) sum.1 else sum.1
  let out := clampI (v 51) (v 52) lim
  { z with x := x.1, out := out, integ := integ, ePrev := e, biquads := bq, atMax := decide (v 52 < lim),
           atMin := decide (lim < v 51), sat := z.sat || sat || sum.2 || decide (out ≠ lim) }

end Sys2Proof.Machine
end

