-- ==== Sys2Proof/Config.lean ====
section
/-! DEFINITION. What the spec leaves open: constants without a body, so that nothing can be proved of their values. -/

namespace Sys2Proof

/-- The `n`-th value the spec does not state (a free value): every use takes a fresh `n` from `State.freeCtr`. -/
opaque Config.freeWord : Nat → BitVec 64

/-- t_SE and t_PP of the NVM fitted, in µs, which its SFDP tables give (R69): the spec states no value of them. -/
opaque Config.nvmSectorEraseUs : Nat
opaque Config.nvmPageProgramUs : Nat

/-- The 24 coefficients of a feedthrough canceller (R242), by the adapted word that stands for them, in units of 1/65536: the spec states
neither their initial values nor what adaptation makes of them. -/
opaque Config.ftcTap : BitVec 64 → Nat → Int

/-- The 16 check bits over a 32-byte buffer block and its address (R148): the spec names a SECDED code and does not give it. -/
opaque Config.bufferCheck : List (BitVec 8) → Nat → BitVec 16

end Sys2Proof
end

