-- ==== Sys2Proof/Machine/Flags.lean ====
section
/-! DEFINITION. The numbers of readiness bits, events, statuses and statistics counters, and how a status sets the flags of a
completion. -/

namespace Sys2Proof.Machine

/-! ### Readiness bits (Table 03-4) -/
def rdHOST : Nat := 0
def rdIMAGE : Nat := 1
def rdBUFFER : Nat := 2
def rdSACHET : Nat := 3
def rdCODEC : Nat := 4
def rdSEAL : Nat := 5
def rdLANE (n : Nat) : Nat := 8 + n
def rdTRANSPORT (t : Nat) : Nat := 16 + t
def rdCE (c : Nat) : Nat := 24 + c

/-! ### Event sources (Tables 16-1 to 16-3) -/
def evLane (n k : Nat) : Nat := 32 + 4 * n + k
def evTp (t k : Nat) : Nat := 64 + 40 * t + k
def evTen (u k : Nat) : Nat := 384 + 8 * u + k
def evDeviceFatal : Nat := 0
def evPowerFail : Nat := 1
def evTamper : Nat := 2
def evImageFallback : Nat := 3
def evThermalLimit : Nat := 4
def evThermalShutdown : Nat := 5
def evBufferWear : Nat := 6
def evSachetWear : Nat := 7
def evPowerState : Nat := 8
def evEpochBoundary : Nat := 9
def evSnapshotMissed : Nat := 10
def evFifoResync : Nat := 11
def evBufferUncorrectable : Nat := 12

/-- A number the tables mark reserved never sets its status (R334). -/
def evReserved (e : Nat) : Bool :=
  (13 ≤ e && e < 32) || (64 ≤ e && e < 384 && 31 ≤ (e - 64) % 40) || 512 ≤ e

/-- The default owner of a source (Table 04-12). -/
def evOwner (e : Nat) : Nat := if e < 384 then 0 else (e - 384) / 8 % 16

/-! ### Statistics counters: number in the whole table of R342 (device, lanes, transports, tenants) -/
def stDev (k : Nat) : Nat := k
def stLane (n k : Nat) : Nat := 32 + 8 * n + k
def stTp (t k : Nat) : Nat := 96 + 32 * t + k
def stTen (u k : Nat) : Nat := 352 + 16 * u + k

/-! ### Statuses (Table 07-2) -/

/-- A status: its type and its code. -/
structure Status where
  st : Nat
  sc : Nat
  deriving DecidableEq, Repr

def Status.success : Status := ⟨0, 0⟩
def Status.invalidOpcode : Status := ⟨0, 1⟩
def Status.invalidField : Status := ⟨0, 2⟩
def Status.invalidVolume : Status := ⟨0, 3⟩
def Status.stewardOnly : Status := ⟨0, 4⟩
def Status.unitNotReady : Status := ⟨0, 5⟩
def Status.deviceFatal : Status := ⟨0, 6⟩
def Status.queueLimit : Status := ⟨1, 1⟩
def Status.urgentLimit : Status := ⟨1, 2⟩
def Status.volumeLimit : Status := ⟨1, 3⟩
def Status.volumeExists : Status := ⟨1, 4⟩
def Status.volumeHeld : Status := ⟨1, 5⟩
def Status.keySlotLimit : Status := ⟨1, 6⟩
def Status.keyMismatch : Status := ⟨1, 7⟩
def Status.keyNotLoaded : Status := ⟨1, 8⟩
def Status.hostBufferTooSmall : Status := ⟨1, 9⟩
def Status.imageCheckFailed : Status := ⟨1, 0x0A⟩
def Status.cartridgeFull : Status := ⟨2, 1⟩
def Status.transportOutOfService : Status := ⟨2, 2⟩
def Status.cartridgeUnloaded : Status := ⟨2, 3⟩
def Status.unrecoveredRead : Status := ⟨2, 4⟩
def Status.recordsLost : Status := ⟨2, 5⟩
def Status.deferredWriteError : Status := ⟨2, 6⟩
def Status.writeLost : Status := ⟨2, 7⟩
def Status.directoryUnreadable : Status := ⟨2, 8⟩
def Status.blockCheckFailed : Status := ⟨3, 1⟩
def Status.blockAuthFailed : Status := ⟨3, 2⟩
def Status.illegalToken : Status := ⟨3, 3⟩
def Status.distanceBeyondHistory : Status := ⟨3, 4⟩
def Status.lengthOverrun : Status := ⟨3, 5⟩
def Status.truncatedStream : Status := ⟨3, 6⟩
def Status.hostDataError : Status := ⟨4, 1⟩
def Status.ringAccessError : Status := ⟨4, 2⟩
def Status.doorbellInvalid : Status := ⟨4, 3⟩

/-- DNR of a status (Table 07-2); that of Unit Not Ready is the inverse of RETRY (R47), bit 8 of its result. -/
def Status.dnr (s : Status) (result : Word) : Bool :=
  if s = Status.unitNotReady then !(bit result 8)
  else match s.st with
    | 0 => s.sc != 0
    | 1 => s.sc == 4 || s.sc == 7 || s.sc == 9 || s.sc == 0x0A
    | 2 => s.sc == 3 || s.sc == 4 || s.sc == 5 || s.sc == 8
    | 3 => true
    | _ => false

/-- Severity (Table 07-2): 0 Command, 1 Queue, 2 Device. -/
def Status.sev (s : Status) : Nat :=
  if s = Status.deviceFatal then 2
  else if s.st = 4 || s = Status.deferredWriteError || s = Status.writeLost then 1
  else 0

/-- An Error Log entry is written for severities Queue and Device and for every status of types 2 and 3 (R131). -/
def Status.logged (s : Status) : Bool := s.sev != 0 || s.st == 2 || s.st == 3

end Sys2Proof.Machine
end

