-- ==== Sys2Proof/Machine/Ops.lean ====
section
/-! DEFINITION. The named operations on the state: one setter per part, units and configuration, events and MSI-X
messages, statistics, logs, completions, and the NVM's bytes. -/

namespace Sys2Proof.Machine

/-- How a meaning ends: the next state, with the queue of waiting commands as it was handed over. -/
def commit (s t : State) : Host.Outcome State Fault Refusal := .next { t with pending := s.pending }

/-! ### One setter per part of the state -/

def State.modPins (s : State) (f : Pins → Pins) : State := { s with pins := f s.pins }
def State.modDev (s : State) (f : Device → Device) : State := { s with dev := f s.dev }
def State.modImage (s : State) (f : Image → Image) : State := { s with image := f s.image }
def State.modGpio (s : State) (f : Gpio → Gpio) : State := { s with gpio := f s.gpio }
def State.modTherm (s : State) (f : Thermal → Thermal) : State := { s with therm := f s.therm }
def State.modPm (s : State) (f : Power → Power) : State := { s with pm := f s.pm }
def State.modEv (s : State) (f : Tab EvSource → Tab EvSource) : State := { s with ev := f s.ev }
def State.modStats (s : State) (f : Stats → Stats) : State := { s with stats := f s.stats }
def State.modTenants (s : State) (f : Tab Tenant → Tab Tenant) : State := { s with tenants := f s.tenants }
def State.modArb (s : State) (f : Arb → Arb) : State := { s with arb := f s.arb }
def State.modBm (s : State) (f : Buffer → Buffer) : State := { s with bm := f s.bm }
def State.modVols (s : State) (f : Tab Volume → Tab Volume) : State := { s with vols := f s.vols }
def State.modLanes (s : State) (f : Tab Lane → Tab Lane) : State := { s with lanes := f s.lanes }
def State.modTps (s : State) (f : Tab Transport → Tab Transport) : State := { s with tps := f s.tps }
def State.modCores (s : State) (f : Tab Core → Tab Core) : State := { s with cores := f s.cores }
def State.modSachet (s : State) (f : Sachet → Sachet) : State := { s with sachet := f s.sachet }
/-- Appends an output. -/
def State.emit (s : State) (o : Output) : State := { s with out := s.out ++ [o] }
/-- Counts one free value as taken. -/
def State.take (s : State) : State := { s with freeCtr := s.freeCtr + 1 }
/-- The free value that the next `take` uses up (nothing is known of it). -/
def State.free (s : State) : Word := Config.freeWord s.freeCtr

/-- Tenant `u`. -/
def State.tn (s : State) (u : Nat) : Tenant := Tab.get {} s.tenants u
def State.modTn (s : State) (u : Nat) (f : Tenant → Tenant) : State := s.modTenants fun m => Tab.set u (f (Tab.get {} m u)) m
/-- Lane `n`. -/
def State.ln (s : State) (n : Nat) : Lane := Tab.get {} s.lanes n
def State.modLn (s : State) (n : Nat) (f : Lane → Lane) : State := s.modLanes fun m => Tab.set n (f (Tab.get {} m n)) m
/-- Transport `t`. -/
def State.tp (s : State) (t : Nat) : Transport := Tab.get {} s.tps t
def State.modTp (s : State) (t : Nat) (f : Transport → Transport) : State := s.modTps fun m => Tab.set t (f (Tab.get {} m t)) m
def State.modMot (s : State) (t : Nat) (f : Motion → Motion) : State := s.modTp t fun x => { x with mot := f x.mot }
def State.modSol (s : State) (t : Nat) (f : Solenoids → Solenoids) : State := s.modTp t fun x => { x with sol := f x.sol }
def State.modLd (s : State) (t : Nat) (f : Loading → Loading) : State := s.modTp t fun x => { x with ld := f x.ld }
def State.modFmt (s : State) (t : Nat) (f : Format → Format) : State := s.modTp t fun x => { x with fmt := f x.fmt }
def State.modGov (s : State) (t : Nat) (f : Governor → Governor) : State := s.modTp t fun x => { x with gov := f x.gov }
def State.modVfy (s : State) (t : Nat) (f : Verifier → Verifier) : State := s.modTp t fun x => { x with vfy := f x.vfy }
def State.modRc (s : State) (t : Nat) (f : ReadChannel → ReadChannel) : State := s.modTp t fun x => { x with rc := f x.rc }
def State.modFe (s : State) (t : Nat) (f : FrontEnd → FrontEnd) : State := s.modTp t fun x => { x with fe := f x.fe }
def State.modGu (s : State) (t : Nat) (f : Guard → Guard) : State := s.modTp t fun x => { x with gu := f x.gu }
def State.modLink (s : State) (t : Nat) (f : Link → Link) : State := s.modTp t fun x => { x with link := f x.link }
/-- Loop slot `k` of transport `t`, and track channel `c`. -/
def State.slot (s : State) (t k : Nat) : Slot := Tab.get {} (s.tp t).slots k
def State.modSlot (s : State) (t k : Nat) (f : Slot → Slot) : State :=
  s.modTp t fun x => { x with slots := Tab.set k (f (Tab.get {} x.slots k)) x.slots }
def State.chan (s : State) (t c : Nat) : Chan := Tab.get {} (s.tp t).rc.chans c
def State.modChan (s : State) (t c : Nat) (f : Chan → Chan) : State :=
  s.modRc t fun x => { x with chans := Tab.set c (f (Tab.get {} x.chans c)) x.chans }
/-- The online volume of handle `v`. -/
def State.vol? (s : State) (v : Nat) : Option Volume := (s.vols.find? fun p => p.1 == v).map (·.2)
def State.setVol (s : State) (v : Nat) (x : Volume) : State := s.modVols (Tab.set v x)
def State.modVol (s : State) (v : Nat) (f : Volume → Volume) : State :=
  match s.vol? v with
  | some x => s.setVol v (f x)
  | none => s
/-- Queue pair `q` of tenant `u`. -/
def State.qp (s : State) (u q : Nat) : QueuePair := Tab.get {} (s.tn u).qps q
def State.hasQp (s : State) (u q : Nat) : Bool := Tab.has (s.tn u).qps q
def State.modQp (s : State) (u q : Nat) (f : QueuePair → QueuePair) : State :=
  if s.hasQp u q then s.modTn u fun x => { x with qps := Tab.set q (f (Tab.get {} x.qps q)) x.qps } else s

/-- Folds an operation over a list. -/
def State.each {α : Type} (s : State) (l : List α) (f : State → α → State) : State := l.foldl f s

/-! ### Configuration in force and the units it declares -/

def State.cfg (s : State) : Settings := s.image.cfg
def State.tenCfg (s : State) (u : Nat) : TenCfg := Tab.get {} s.cfg.ten u
def State.trnCfg (s : State) (t : Nat) : TrnCfg := Tab.get {} s.cfg.trn t
def State.solCfg (s : State) (t : Nat) : SolCfg := Tab.get {} s.cfg.sol t

/-- A lane the LANE section declares present (Table 04-7). -/
def Settings.lanePresent (g : Settings) (n : Nat) : Bool := decide (n < 8) && g.lanes.getLsbD n
/-- Pair `p` in paired mode. -/
def Settings.isPaired (g : Settings) (p : Nat) : Bool := g.paired.getLsbD p
/-- Transport `t` exists when lane `t` is present, except when t is odd and its pair is paired (Table 04-7). -/
def Settings.tpExists (g : Settings) (t : Nat) : Bool := g.lanePresent t && !(t % 2 == 1 && g.isPaired (t / 2))
/-- The transports that exist. -/
def Settings.tpList (g : Settings) : List Nat := (List.range 8).filter g.tpExists

def State.lanePresent (s : State) (n : Nat) : Bool := s.cfg.lanePresent n
def State.tpExists (s : State) (t : Nat) : Bool := s.cfg.tpExists t
def State.tpList (s : State) : List Nat := s.cfg.tpList
/-- Transport `t` in paired mode. -/
def State.isPaired (s : State) (t : Nat) : Bool := t % 2 == 0 && s.cfg.isPaired (t / 2)
/-- The lanes of a transport, lower first. -/
def State.lanesOf (s : State) (t : Nat) : List Nat := if s.isPaired t then [t, t + 1] else [t]
/-- The transport a lane carries. -/
def State.tpOf (s : State) (n : Nat) : Nat := if s.cfg.isPaired (n / 2) then n / 2 * 2 else n
/-- The control core that serves a transport: core c serves transports 2c and 2c + 1 (R291). -/
def coreOf (t : Nat) : Nat := t / 2
/-- The lane that carries the words of a transport: its lowest lane that is Up. -/
def State.upLanes (s : State) (t : Nat) : List Nat := (s.lanesOf t).filter fun n => (s.ln n).state == .up

/-- A PCIe function exists (R74); in safe mode only the PF does (R66). -/
def State.fnExists (s : State) (fn : Nat) : Bool :=
  fn == 0 || (!s.image.safe && s.dev.vfEnable && decide (fn ≤ s.dev.numVfs))
/-- The tenants that exist. -/
def State.tenantList (s : State) : List Nat := (List.range 16).filter s.fnExists

/-! ### Readiness -/

def State.ready (s : State) (b : Nat) : Bool := s.dev.ready.getLsbD b
def State.setReady (s : State) (b : Nat) (v : Bool) : State := s.modDev fun d => { d with ready := setBit d.ready b v }

/-- The clock with this CLK_ID has been declared lost (R31, Table 07-8). -/
def State.clkLost (s : State) (k : Nat) : Bool := s.dev.lostClks.getLsbD k
/-- Out of a cold reset: POR_N high and no supply monitor holding the part (R357). -/
def State.on (s : State) : Bool := s.pins.porN && !s.pins.monitorReset
/-- The early block is in force, or safe mode is, so that configuration space answers (R41, R66). -/
def State.earlyDone (s : State) : Bool := s.image.earlyFrom.isSome || s.image.safe

/-! ### Statistics -/

/-- Adds to a counter of the epoch in force (R340); counters are 64 bits wide and hold at their maximum (R376). -/
def State.stat (s : State) (i n : Nat) : State :=
  s.modStats fun x => { x with counters := Tab.set i (min (2 ^ 64 - 1) (Tab.get 0 x.counters i + n)) x.counters }
/-- A peak counter keeps the highest value. -/
def State.peak (s : State) (i n : Nat) : State :=
  s.modStats fun x => { x with counters := Tab.set i (max (Tab.get 0 x.counters i) n) x.counters }

/-! ### MSI-X and events -/

/-- The MSI-X vectors of a function (R78). -/
def vectorCount (fn : Nat) : Nat := if fn = 0 then 64 else 16

/-- A message on a function's vector: sent only while the function exists, has MSI-X Enable and Bus Master Enable and is
not in a reset (R337); a masked vector sets its pending bit (R78). -/
def State.sendMsix (s : State) (fn vec : Nat) : State :=
  let f := (s.tn fn).fn
  if s.fnExists fn && f.msixEn && f.busMaster && !(s.tn fn).inFlr then
    let v := Tab.get {} f.msix vec
    if f.msixMask || v.masked then
      s.modTn fn fun x => { x with fn := { x.fn with msix := Tab.set vec { v with pending := true } x.fn.msix } }
    else (s.emit (.msix fn vec)).stat (stDev 18) 1
  else s

/-- Sends the pending messages of the function's vectors that are no longer masked (PCI Express MSI-X, R78). -/
def State.flushMsix (s : State) (fn : Nat) : State :=
  s.each (List.range (vectorCount fn)) fun s k =>
    let f := (s.tn fn).fn
    let v := Tab.get {} f.msix k
    if v.pending && !v.masked && !f.msixMask && f.msixEn && f.busMaster then
      (s.modTn fn fun x => { x with fn := { x.fn with msix := Tab.set k { v with pending := false } x.fn.msix } }).sendMsix fn k
    else s

def State.evSrc (s : State) (e : Nat) : EvSource := Tab.get { owner := evOwner e } s.ev e
def State.modEvSrc (s : State) (e : Nat) (f : EvSource → EvSource) : State :=
  s.modEv fun m => Tab.set e (f (Tab.get { owner := evOwner e } m e)) m

/-- An occurrence of a source (R335, R337): sets its status and counts it; a status that was 0 signals the owner where the
source is enabled. In PS3 the event unit is gated and the occurrence is held until the exit (R385). -/
def State.raise (s : State) (e : Nat) : State :=
  if evReserved e then s
  else if s.pm.state = 3 then s.modPm fun p => { p with held := p.held ++ [e] }
  else
    let v := s.evSrc e
    let s1 := (s.modEvSrc e fun x => { x with sts := true, count := min 65535 (x.count + 1) }).stat (stDev 17) 1
    if !v.sts && v.ena then s1.sendMsix v.owner v.vector else s1

/-- Clearing a status clears its COUNT (R335). -/
def State.clearEv (s : State) (e : Nat) : State := s.modEvSrc e fun x => { x with sts := false, count := 0 }

/-- Writes a source's enable; a message is sent when it goes to 1 while the status is 1 (R337). -/
def State.setEna (s : State) (e : Nat) (on : Bool) : State :=
  let v := s.evSrc e
  let s1 := s.modEvSrc e fun x => { x with ena := on }
  if on && !v.ena && v.sts then s1.sendMsix v.owner v.vector else s1

/-- A TRANSPORT bit set or cleared; Transport Ready is raised when it sets (Table 16-2). -/
def State.setTpReady (s : State) (t : Nat) (v : Bool) : State :=
  let s1 := s.setReady (rdTRANSPORT t) v
  if v && !s.ready (rdTRANSPORT t) then s1.raise (evTp t 0) else s1

/-- The crossings of Table 03-2 that are FIFOs. -/
def xidFifo (xid : Nat) : Bool := (1 ≤ xid && xid ≤ 8) || (11 ≤ xid && xid ≤ 14)

/-- Words discarded by a FIFO resynchronisation on crossing `xid` (R36): counted, the XID recorded, the event raised. -/
def State.discard (s : State) (xid n : Nat) : State :=
  if n = 0 || !xidFifo xid then s
  else ((s.modDev fun d => { d with xdisc := wrapAdd d.xdisc n, xid := xid }).raise evFifoResync).stat (stDev 11) n

/-- The resynchronisations of a reset, in order (R36). -/
def State.discards (s : State) (ds : Discards) : State := s.each ds fun s d => s.discard d.1 d.2

/-- Resynchronisations of which no row says how many words they discard: a free number on each crossing. -/
def State.discardFree (s : State) (xids : List Nat) : State := s.each xids fun s x => s.take.discard x s.free.toNat

/-! ### AER (R76, R132, R145; PCI Express Base 6.0) -/

/-- Bits of AER's status registers: Uncorrectable Internal Error, and Advisory Non-Fatal Error. -/
def aerInternal : Nat := 22
def aerAdvisory : Nat := 13
/-- The bit of the Uncorrectable Error Status register that a failed read logs as an advisory error: poisoned data, or a timeout. An
Unsupported Request or Completer Abort received by a requester has none. -/
def aerBit : ReadError → Option Nat
  | .poisoned => some 12
  | .timeout => some 14
  | .unsupportedRequest | .completerAbort => none

/-- An Uncorrectable Internal Error of a function. -/
def State.aerFatal (s : State) (fn : Nat) : State :=
  (s.modTn fn fun x => { x with fn := { x.fn with aerUnc := x.fn.aerUnc ||| BitVec.ofNat 32 (2 ^ aerInternal) } }).emit (.aer fn true)

/-- A failed host read, as an advisory non-fatal error of the function (R132). -/
def State.aerRead (s : State) (fn : Nat) (e : ReadError) : State :=
  (s.modTn fn fun x => { x with fn := { x.fn with
    aerUnc := match aerBit e with
      | some k => x.fn.aerUnc ||| BitVec.ofNat 32 (2 ^ k)
      | none => x.fn.aerUnc
    aerCor := x.fn.aerCor ||| BitVec.ofNat 32 (2 ^ aerAdvisory) } }).emit (.aer fn false)

/-! ### Logs (Tables 07-3 and 07-4) -/

/-- Adds an entry to a log of `cap` entries; a full log drops its oldest entry and counts it in LOST (R139). -/
def Log.add (cap : Nat) (l : Log) (mk : Nat → List Word) : Log :=
  let es := l.entries ++ [mk l.next]
  { entries := es.drop (es.length - cap), lost := l.lost + (es.length - cap), next := l.next + 1 }

/-- The log as Get Log returns it: header, then the entries (R138). -/
def Log.bytes (l : Log) : Bytes :=
  wordsBytes ([BitVec.ofNat 64 l.entries.length, BitVec.ofNat 64 l.lost, BitVec.ofNat 64 l.next, 0, 0, 0, 0, 0]) ++
    l.entries.flatMap wordsBytes

/-- What an Error Log entry says (Table 07-4). -/
structure ErrInfo where
  sqid : Nat := 0xFFFF
  cid : Nat := 0xFFFF
  vol : Nat := 0
  tag : Word := 0
  result : Word := 0
  detail : Word := 0
  first : Nat := 0
  last : Nat := 0

/-- Writes an Error Log entry (R131); one of severity Queue or Device raises Error Logged, and under Freeze freezes a
tenant that is not yet frozen (R137). -/
def State.logError (s : State) (u : Nat) (st : Status) (i : ErrInfo) : State :=
  let s1 := s.modTn u fun x => { x with errLog := x.errLog.add 256 fun n =>
    [BitVec.ofNat 64 n, mkw [(0, i.sqid), (16, i.cid), (32, st.sc), (40, st.st), (43, st.sev), (48, i.vol)], i.tag, i.result,
      i.detail, BitVec.ofNat 64 i.first, BitVec.ofNat 64 i.last, BitVec.ofNat 64 s.stats.epoch] }
  if st.sev = 0 then s1
  else
    let s2 := s1.raise (evTen u 1)
    if (s2.tenCfg u).freeze && !(s2.tn u).frz.frozen then
      (s2.modTn u fun x => { x with frz := { frozen := true, sc := st.sc, st := st.st, sqid := i.sqid, cid := i.cid } }).raise (evTen u 3)
    else s2

/-! ### Segment pools (R151) -/

/-- Returns `n` segments of tenant `u`: to the urgent reserve while it is below 1,024, else to the tenant's floor while it
is below FLOOR, else to the shared pool (R151). -/
def State.returnSegs (s : State) (u n : Nat) : State :=
  s.modBm fun b =>
    let a := min n (1024 - b.urgFree)
    let fl := (s.tenCfg u).floor
    let c := min (n - a) (fl - Tab.get 0 b.floorFree u)
    { b with urgFree := b.urgFree + a, floorFree := Tab.set u (Tab.get 0 b.floorFree u + c) b.floorFree,
             sharedFree := b.sharedFree + (n - a - c) }

/-- Returns segments to the pools they were granted from: (shared, floor) (R152). -/
def State.ungrant (s : State) (u : Nat) (g : Nat × Nat) : State :=
  s.modBm fun b => { b with sharedFree := b.sharedFree + g.1, floorFree := Tab.set u (Tab.get 0 b.floorFree u + g.2) b.floorFree }

/-! ### Completions (Tables 06-2 and 07-2) -/

/-- The number of CQ entries posted and not consumed, with those reserved for fetched commands. -/
def QueuePair.cqUsed (p : QueuePair) : Nat := (p.cqTail + p.cqDepth - p.cqHead) % p.cqDepth + p.reserved

/-- The CQ has a free slot (R85): a ring of depth d is full when it holds d - 1 entries (R82). -/
def QueuePair.cqFree (p : QueuePair) : Bool := decide (p.cqUsed + 1 < p.cqDepth)

/-- Posts a completion entry to a pair's CQ and advances its tail; the phase inverts on every pass (R84). -/
def State.postCqe (s : State) (u q : Nat) (w0 w1 : Word) : State :=
  let p := s.qp u q
  let nt := (p.cqTail + 1) % p.cqDepth
  (s.emit (.completion u q p.cqTail w0 (w1 ||| mkw [(63, b2n p.phase)]))).modQp u q fun x =>
    { x with cqTail := nt, phase := if nt = 0 then !x.phase else x.phase, reserved := x.reserved - 1 }

/-- The CQ's interrupt after a completion (R88). -/
def State.signalCq (s : State) (u q : Nat) : State :=
  let p := s.qp u q
  if p.sched.cls == .urgent || (p.aggCount = 0 && p.aggTime = 0) then s.sendMsix u p.vector
  else
    let n := p.unsignalled + 1
    if p.aggCount ≠ 0 && p.aggCount ≤ n then
      (s.modQp u q fun x => { x with unsignalled := 0, aggTimer := false }).sendMsix u p.vector
    else s.modQp u q fun x => { x with unsignalled := n, aggTimer := x.aggTimer || decide (x.aggTime ≠ 0) }

/-- No completion can be posted once CK_CORE or CK_PCIE is lost (R145; with the crystal, R368), nor on behalf of a function in a reset (R141). -/
def State.canPost (s : State) (u q : Nat) : Bool :=
  s.hasQp u q && !(s.tn u).inFlr && !(s.clkLost 2 || s.clkLost 5)

/-- F: free space of the open and the granted segments less the bytes claimed (R152). -/
def Volume.free (w : Volume) : Nat := w.spare - w.claimed
/-- Whole segments at the end of the storage that nothing claims are handed back: how many. -/
def Volume.excess (w : Volume) : Nat := min (w.free / 65536) w.segs.length
def Volume.dropSegs (w : Volume) (n : Nat) : Volume :=
  { w with spare := w.spare - 65536 * n, segs := w.segs.take (w.segs.length - n) }

/-- A grant ends (R152, R97): a write's claim of `len` bytes goes, and what its segments hold beyond the volume's claims returns,
the tenant's floor first; a grant in no volume's storage returns whole; a read's output segments return by R151. -/
def State.giveBack (s : State) (u op vol len : Nat) (segs : Nat × Nat) (bound : Bool) : State :=
  if op = 0x82 then (if segs.1 + segs.2 = 0 then s else s.returnSegs u (segs.1 + segs.2))
  else if op = 0x81 then
    if bound then
      match s.vol? vol with
      | none => s
      | some w =>
        let w1 := { w with claimed := w.claimed - len }
        let k := min w1.excess (segs.1 + segs.2)
        (s.setVol vol (w1.dropSegs k)).ungrant u (k - min k segs.2, min k segs.2)
    else s.ungrant u segs
  else s

/-- Removes a fetched command; what it still holds of a grant goes back. -/
def State.dropCmd (s : State) (id : Nat) : State :=
  let s1 := match s.arb.cmds.find? fun c => c.id == id with
    | some c => s.giveBack c.u (fld c.entry.w0 7 0) (fld c.entry.w0 47 32) (fld c.entry.w3 31 0) c.segs c.bound
    | none => s
  s1.modArb fun a => { a with cmds := a.cmds.filter fun c => c.id != id }

/-- What a completion carries beside its status: its result, and the Error Log's detail. -/
structure Reply where
  result : Word := 0
  detail : Word := 0
  first : Nat := 0
  last : Nat := 0

/-! ### A tenant comes into service (R80) and goes out of it (R81) -/

/-- Queue pairs in the formatter, admin pairs included (Table 05-2). -/
def State.pairCount (s : State) : Nat := (s.tenants.map fun p => p.2.qps.length).sum

/-- A tenant whose EN is set comes into service once FUNC and HOST are set: valid admin registers make queue pair 0, else
CFG_ERR is set (R80). With 1,024 pairs already held (Table 05-2) the spec does not say what EN meets: DESIGN CHOICE, no pair and
CFG_ERR (assumption 20). -/
def State.tryRdy (s : State) (u : Nat) : State :=
  let x := s.tn u
  if x.cfgEn && !x.rdy && !x.disabling && x.func && s.ready rdHOST then
    let a := fld x.aqa 7 0
    let b := fld x.aqa 23 16
    if a = 0 || b = 0 || x.asq = 0 || x.acq = 0 || 1024 ≤ s.pairCount then s.modTn u fun x => { x with cfgErr := true }
    else s.modTn u fun x =>
      { x with rdy := true, qps := [(0, { ({} : QueuePair) with sqBase := x.asq, cqBase := x.acq, sqDepth := a + 1, cqDepth := b + 1 })] }
  else s

/-- EN was cleared and the tenant's last fetched command has completed: the admin pair goes and RDY clears (R81). -/
def State.rdyDown (s : State) (u : Nat) : State :=
  if (s.tn u).disabling && !s.arb.cmds.any (fun c => c.u == u) then
    (s.modTn u fun x => { x with disabling := false, rdy := false, qps := [], frz := {}, wrr := {} }).tryRdy u
  else s

/-- Completes a fetched command (R128, R103): writes the Error Log entry its status asks for, posts the entry where its
pair still exists, and signals the CQ. -/
def State.complete (s : State) (c : Cmd) (st : Status) (r : Reply := {}) : State :=
  let cid := fld c.entry.w0 31 16
  let s1 := s.dropCmd c.id
  let s2 := if st = Status.success then s1 else s1.stat (stTen c.u 2) 1
  let s3 := if st = Status.unitNotReady then s2.stat (stTen c.u 11) 1 else s2
  let info : ErrInfo :=
    { sqid := c.q, cid := cid, vol := fld c.entry.w0 47 32, tag := c.entry.w1, result := r.result, detail := r.detail,
      first := r.first, last := r.last }
  let s4 := if st.logged then s3.logError c.u st info else s3
  (if s4.canPost c.u c.q then
    (s4.postCqe c.u c.q r.result (mkw [(0, c.sqhd % 65536), (16, c.q % 65536), (32, cid), (48, st.sc), (56, st.st),
      (59, b2n (st.dnr r.result)), (60, b2n (!(s4.tn c.u).defLog.entries.isEmpty)), (61, b2n st.logged)])).signalCq c.u c.q
  else s4).rdyDown c.u

/-- Completes with Success and a result. -/
def State.succeed (s : State) (c : Cmd) (result : Word := 0) : State := s.complete c Status.success { result := result }
/-- Completes with a failure whose result word is 0. -/
def State.fail (s : State) (c : Cmd) (st : Status) : State := s.complete c st {}

/-- Data a command writes to host memory, before its completion entry (R79). -/
def State.hostWrite (s : State) (c : Cmd) (data : Bytes) : State := s.emit (.hostData c.u c.q (fld c.entry.w0 31 16) data)

/-- Replaces a fetched command's stage. -/
def State.setStage (s : State) (id : Nat) (st : CmdStage) : State :=
  s.modArb fun a => { a with cmds := a.cmds.map fun c => if c.id == id then { c with stage := st } else c }

/-- The fetched commands in fetch order that satisfy a test. -/
def State.cmdsWhere (s : State) (p : Cmd → Bool) : List Cmd := s.arb.cmds.filter p

/-! ### The NVM: canonical cells, an unlisted byte reads 0xFF (erased) -/

/-- The canonical form: addresses strictly rising, no entry equal to what an unlisted byte reads. -/
abbrev Memory.wf (m : List Host.Cell) : Prop := m.Pairwise (fun a b => a.1 < b.1) ∧ ∀ c ∈ m, c.2 ≠ 0xFF

/-- One byte of the NVM. -/
def nvmRead (m : List Host.Cell) (a : Nat) : Byte := ((m.find? fun c => c.1 == a).map (·.2)).getD 0xFF

/-- The cells of a byte string that stands from address `a` on: no entry for a byte 0xFF. -/
def nvmCells (a : Nat) : Bytes → List Host.Cell
  | [] => []
  | b :: r => if b = 0xFF then nvmCells (a + 1) r else (a, b) :: nvmCells (a + 1) r

/-- Writes bytes from address `a` on, keeping the canonical form. -/
def nvmWrite (a : Nat) (bs : Bytes) (m : List Host.Cell) : List Host.Cell :=
  m.filter (fun c => decide (c.1 < a)) ++ nvmCells a bs ++ m.filter (fun c => decide (a + bs.length ≤ c.1))

/-- The next `n` bytes from address `a`, of cells that begin at or above `a`. -/
def nvmTake : Nat → Nat → List Host.Cell → Bytes
  | 0, _, _ => []
  | n + 1, a, [] => 0xFF :: nvmTake n (a + 1) []
  | n + 1, a, (k, v) :: r => if k = a then v :: nvmTake n (a + 1) r else 0xFF :: nvmTake n (a + 1) ((k, v) :: r)

/-- The bytes [a, a + n). -/
def nvmBytes (m : List Host.Cell) (a n : Nat) : Bytes := nvmTake n a (m.dropWhile fun c => decide (c.1 < a))

end Sys2Proof.Machine
end

