-- ==== Sys2Proof/Machine/ImageFile.lean ====
section
/-! DEFINITION. The configuration image: its header, early block, sections and trailer read from bytes and checked (R54 to R63,
R71, R383), and the cross-checks of R61. -/

namespace Sys2Proof.Machine

/-! ### Words of the sections: defaults and ranges (Tables 04-5 to 04-14) -/

/-- The layout of a section type in words, for the types of Table 04-4. -/
def secWords (ty : Nat) : Nat :=
  match ty with
  | 1 => 4 | 2 => 2 | 3 => 2 | 4 => 3 | 5 => 53 | 6 => 2 | 7 => 2 | 8 => 512 | 9 => 1 | 10 => 2 | _ => 0

/-- The default of word `k` of a section. -/
def secDefault (ty k : Nat) : Word :=
  match ty, k with
  | 1, 0 => mkw [(0, 2), (2, 1), (6, 1)]
  | 1, 2 => 0xFAC688FAC688
  | 1, 3 => 0xFAC688FAC688
  | 2, 0 => mkw [(0, 1), (16, 16), (32, 256), (48, 64)]
  | 2, 1 => mkw [(0, 1024), (16, 4)]
  | 3, 0 => 1
  | 3, 1 => 0x0505050505050505
  | 4, 0 => mkw [(0, 2000000), (32, 12), (40, 100), (48, 2)]
  | 4, 1 => mkw [(0, 2048), (32, 256)]
  | 5, 0 => mkw [(32, 2), (40, 64)]
  | 6, 0 => mkw [(0, 1200), (16, 300), (32, 30), (48, 2)]
  | 6, 1 => 1800
  | 7, 0 => mkw [(0, 85), (8, 92), (16, 97), (24, 5), (32, 1000)]
  | 7, 1 => mkw [(0, 2000), (16, 250), (32, 1050), (48, 950)]
  | 9, 0 => 1000
  | 10, 0 => mkw [(0, 1), (1, 1), (16, 100), (32, 60), (48, 600)]
  | 10, 1 => 300
  | _, _ => 0

/-- A DQ map names each position of a byte once. -/
def dqOk (w : Word) : Bool :=
  let p := fun (i : Nat) => fld w (3 * i + 2) (3 * i)
  distinct ((List.range 8).map p) && distinct ((List.range 8).map fun i => p (i + 8))

def inRange (lo hi v : Nat) : Bool := decide (lo ≤ v) && decide (v ≤ hi)

/-- TEN W0 and W1 in range (Table 04-6). -/
def tenW0Ok (w : Word) : Bool :=
  inRange 1 256 (fld w 8 0) && fld w 15 11 == 0 && inRange 1 256 (fld w 24 16) && fld w 31 25 == 0 && inRange 0 1023 (fld w 63 48)
def tenW1Ok (w : Word) : Bool := inRange 2 4096 (fld w 15 0) && inRange 0 64 (fld w 23 16) && fld w 63 24 == 0
/-- TRN W0 in range (Table 04-8). -/
def trnW0Ok (w : Word) : Bool :=
  inRange 0 12 (fld w 39 32) && inRange 10 100 (fld w 47 40) && inRange 0 6 (fld w 55 48) && fld w 63 56 == 0
/-- PRN W0 and W1 in range (Table 04-11). -/
def prnW0Ok (w : Word) : Bool := inRange 1 1000 (fld w 47 32) && fld w 63 48 == 0
def prnW1Ok (w : Word) : Bool :=
  inRange 500 10000 (fld w 15 0) && inRange 50 2000 (fld w 31 16) && inRange 1000 1200 (fld w 47 32) && inRange 500 1000 (fld w 63 48)
/-- An EVT entry in range, its OWNER at most TOTAL_VFS (Table 04-12). -/
def evtOk (totalVfs : Nat) (w : Word) : Bool :=
  let e := fld w 15 0
  let o := fld w 19 16
  decide (e < 512) && decide (o ≤ totalVfs) && fld w 23 20 == 0 && fld w 31 30 == 0 && fld w 63 33 == 0 &&
    decide (fld w 29 24 < vectorCount o) && (decide (e < 384) || o == (e - 384) / 8)
/-- PWR W0 and W1 in range (Table 04-14). -/
def pwrOk (w0 w1 : Word) : Bool := fld w0 15 3 == 0 && fld w1 63 32 == 0

/-- Word `k` of section (ty, inst) in range, given the section's words. -/
def secWordOk (totalVfs ty inst : Nat) (ws : List Word) (k : Nat) : Bool :=
  let w := ws.getD k 0
  match ty, k with
  | 1, 0 => inRange 1 2 (fld w 1 0) && fld w 5 4 != 3 && fld w 7 6 != 3 && fld w 63 8 == 0
  | 1, 1 => (List.range 4).all (fun n => fld w (8 * n + 7) (8 * n + 4) == 0) && fld w 63 32 == 0
  | 1, 2 => fld w 63 48 == 0 && dqOk w
  | 1, 3 => fld w 63 48 == 0 && (fld (ws.getD 0 0) 1 0 == 1 || dqOk w)
  | 2, 0 => tenW0Ok w
  | 2, 1 => tenW1Ok w
  | 3, 0 => fld w 63 12 == 0
  | 3, 1 => (List.range 8).all fun n => decide (fld w (8 * n + 3) (8 * n) ≤ 10) && fld w (8 * n + 7) (8 * n + 4) == 0
  | 4, 0 => trnW0Ok w
  | 4, 2 => fld w 63 32 == 0
  | 5, 0 => loopW0Ok (inst % 8) w
  | 5, 1 => loopW1Ok (inst % 8) (ws.getD 0 0) w
  | 5, k => if k < 2 then true else coefOk (ws.getD 0 0) (ws.drop 2) k
  | 6, 0 => inRange 10 100 (fld w 47 32) && inRange 1 20 (fld w 55 48) && fld w 63 56 == 0
  | 6, 1 => decide (fld w 15 0 ≤ 1800) && fld w 63 16 == 0
  | 7, 0 => prnW0Ok w
  | 7, 1 => prnW1Ok w
  | 8, k => evtOk totalVfs w && !((ws.take k).map fun x => fld x 15 0).contains (fld w 15 0)
  | 9, 0 => inRange 1 60000 (fld w 31 0) && fld w 63 32 == 0
  | 10, 0 => fld w 15 3 == 0
  | 10, 1 => fld w 63 32 == 0
  | _, _ => true

/-! ### Settings from words -/

def tenOf (w0 w1 : Word) : TenCfg where
  weight := fld w0 8 0
  pruneEn := bit w0 9
  freeze := bit w0 10
  maxQp := fld w0 24 16
  floor := fld w0 47 32
  maxVol := fld w0 63 48
  maxQdepth := fld w1 15 0
  keySlots := fld w1 23 16

def trnOf (w0 w1 w2 : Word) : TrnCfg where
  ratedSs := fld w0 31 0
  maxSpeed := fld w0 39 32
  locate := fld w0 47 40
  verifyV := fld w0 55 48
  bstart := fld w1 31 0
  bstop := fld w1 63 32
  feMatch := fld w2 31 0

def solOf (w0 w1 : Word) : SolCfg where
  pullinMa := fld w0 15 0
  holdMa := fld w0 31 16
  pullinMs := fld w0 47 32
  gapMs := fld w0 55 48
  hsLimitMa := fld w1 15 0

/-- PRN W0 replaced, and W1 replaced (FIDs 0x20 and 0x21 carry them singly). -/
def prnSet0 (p : PrnCfg) (w : Word) : PrnCfg :=
  { p with l1 := fld w 7 0, l2 := fld w 15 8, l3 := fld w 23 16, hyst := fld w 31 24, gapAggMs := fld w 47 32 }
def prnSet1 (p : PrnCfg) (w : Word) : PrnCfg :=
  { p with spdIntMs := fld w 15 0, avgMs := fld w 31 16, margin := fld w 47 32, burst := fld w 63 48 }

def evtOf (w : Word) : EvtCfg where
  event := fld w 15 0
  owner := fld w 19 16
  vector := fld w 29 24
  enable := bit w 32

/-- The settings of section (ty, inst) taken into the image's settings. -/
def secTake (g : Settings) (ty inst : Nat) (ws : List Word) (n : Nat) : Settings :=
  let w := fun (k : Nat) => ws.getD k 0
  match ty with
  | 1 => { g with memCh := fld (w 0) 1 0, memPkg := fld (w 0) 3 2, memRate := fld (w 0) 5 4, trace := fld (w 0) 7 6,
                  gpio := BitVec.ofNat 32 (fld (w 1) 31 0), dqA := BitVec.ofNat 48 (fld (w 2) 47 0),
                  dqB := BitVec.ofNat 48 (fld (w 3) 47 0) }
  | 2 => { g with ten := Tab.set inst (tenOf (w 0) (w 1)) g.ten }
  | 3 => { g with lanes := BitVec.ofNat 8 (fld (w 0) 7 0), paired := BitVec.ofNat 4 (fld (w 0) 11 8), txpre := w 1 }
  | 4 => { g with trn := Tab.set inst (trnOf (w 0) (w 1) (w 2)) g.trn }
  | 5 => { g with loops := Tab.set inst { w0 := w 0, w1 := w 1, coefs := ws.drop 2 } g.loops }
  | 6 => { g with sol := Tab.set inst (solOf (w 0) (w 1)) g.sol }
  | 7 => { g with prn := prnSet1 (prnSet0 g.prn (w 0)) (w 1) }
  | 8 => { g with evt := (ws.take n).map evtOf }
  | 9 => { g with epochMs := fld (w 0) 31 0 }
  | 10 => { g with pwr0 := w 0, pwr1 := w 1 }
  | _ => g

/-- Settings before any section: the defaults of the optional sections and of PRESENT (Table 04-7). -/
def Settings.initial : Settings := { lanes := 1, pwr0 := secDefault 10 0, pwr1 := secDefault 10 1 }

/-! ### Buffer geometry the checks and the pools use -/

/-- B in bytes: 15/16 of the channels' capacity (R148). -/
def bufBytes (g : Settings) : Nat := g.memCh * 2 ^ g.memPkg * 1073741824 * 15 / 16

/-- Admission space: B less the urgent reserve, the packer reserves and the staging (Table 08-2). -/
def admissionBytes (g : Settings) : Nat := bufBytes g - 65536 * (1024 + 768 * g.tpList.length)

/-- BSTART and BSTOP of a transport (R61). -/
def burstOk (g : Settings) (bstart bstop : Nat) : Bool := decide (bstop < bstart) && decide (bstart * 1048576 < admissionBytes g)

/-- The levels of PRN W0 (R61). -/
def levelsOk (p : PrnCfg) : Bool := decide (p.l1 < p.l2) && decide (p.l2 < p.l3) && decide (p.l3 ≤ 99) && decide (p.hyst < p.l1)

/-- The cross-checks of R61 and the memory limits of R21. -/
def crossOk (g : Settings) : Bool :=
  (List.range 4).all (fun p => !g.isPaired p || (g.lanePresent (2 * p) && g.lanePresent (2 * p + 1))) &&
    (g.memCh != 1 || decide (g.tpList.length ≤ 4)) && decide (2 ≤ g.memCh * 2 ^ g.memPkg) &&
    decide ((g.ten.map fun x => x.2.floor).sum * 2 ≤ bufBytes g / 65536) &&
    g.tpList.all (fun t => let c := Tab.get {} g.trn t; burstOk g c.bstart c.bstop) && levelsOk g.prn &&
    g.tpList.all (fun t => let c := Tab.get {} g.sol t; decide (2 * c.holdMa + c.pullinMa ≤ c.hsLimitMa)) &&
    decide ((g.ten.map fun x => x.2.keySlots).sum ≤ 64) &&
    (List.range 4).all (fun n => (g.gpio >>> (8 * n)).toNat % 8 < 6)

/-! ### Checking a copy -/

/-- A failure: the code of Table 04-17 and the offset of Table 04-17a. -/
abbrev ImgFail := Nat × Nat

/-- The header of a copy. -/
structure ImgHeader where
  signed : Bool
  len : Nat
  seq : Nat
  count : Nat
  deriving DecidableEq, Repr

/-- The header's check (Table 04-1, R64). Which of several failures is the first is the model's choice (assumption 73: MAGIC, FMT,
HDR_CRC, then the ranges), and so is that a `res` field of the header, the early block or the trailer is ignored (assumption 74). -/
def chkHeader (fuse : Bool) (h : Bytes) : Except ImgFail ImgHeader :=
  let w := fun (k : Nat) => wordAt h (8 * k)
  let len := fld (w 1) 63 32
  if slice h 0 8 ≠ [0x54, 0x4C, 0x59, 0x49, 0x4D, 0x41, 0x47, 0x45] then .error (1, 0)
  else if fld (w 1) 15 0 ≠ 1 then .error (1, 8)
  else if fld (w 7) 63 32 ≠ crc32c (slice h 0 0x3C) then .error (2, 0x38)
  else if !inRange 0x1050 8388608 len || len % 8 ≠ 0 then .error (3, 8)
  else if fld (w 2) 63 32 ≠ 0x1040 then .error (3, 0x10)
  else if !inRange 1 1024 (fld (w 3) 15 0) then .error (3, 0x18)
  else if fuse && !bit (w 1) 16 then .error (0x0C, 8)
  else .ok { signed := bit (w 1) 16, len := len, seq := fld (w 2) 31 0, count := fld (w 3) 15 0 }

/-- The early block's check (Table 04-2); its `res` fields are ignored (assumption 74). -/
def chkEarly (b : Bytes) : Except ImgFail EarlyCfg :=
  let w0 := wordAt b 0
  if leNat (slice b 0xFF8 4) ≠ crc32c (slice b 0 0xFF8) then .error (4, 0x1038)
  else if !inRange 1 6 (fld w0 42 40) || !(fld w0 47 44 == 1 || fld w0 47 44 == 2 || fld w0 47 44 == 4) then .error (4, 0x40)
  else .ok
    { subsysVid := fld w0 15 0, subsysDid := fld w0 31 16, totalVfs := fld w0 35 32, maxSpeed := fld w0 42 40,
      maxWidth := fld w0 47 44, aspmL1 := bit w0 48, l11 := bit w0 49, l12 := bit w0 50, classCode := fld (wordAt b 8) 23 0 }

/-- The sections that Table 04-4 requires, in the order of R58, as 256 * TYPE + INST. -/
def requiredSecs (totalVfs : Nat) (g : Settings) : List Nat :=
  [0x100] ++ (List.range (totalVfs + 1)).map (0x200 + ·) ++ [0x300] ++ g.tpList.map (0x400 + ·) ++
    (g.tpList.flatMap fun t => (List.range 5).map fun k => 0x500 + 8 * t + k)

/-- INST that Table 04-4 allows. -/
def instOk (totalVfs : Nat) (g : Settings) (ty inst : Nat) : Bool :=
  match ty with
  | 2 => decide (inst ≤ totalVfs)
  | 4 => g.tpExists inst
  | 5 => g.tpExists (inst / 8)
  | 6 => g.tpExists inst
  | _ => decide (0x8000 ≤ ty) || inst == 0

/-- The sections from offset `pos` on (R58, R59): at most `fuel` of them, `key` the last one's, `t` where the trailer begins,
`bad` where the NVM fails. The rules do not order the failures of one section, nor give a code for a LENGTH that is no multiple of 8:
both are the model's choice (assumption 73). Here the head comes first (0x06), a missing LANE before an INST that only LANE can
judge, then a missing section (0x09), the CRC (0x05), the values in their order and the reserved half of the CRC word (0x07). -/
def chkSections (totalVfs t : Nat) (bad : Option Nat) : Nat → Nat → Nat → Settings → Bytes → Except ImgFail (Nat × Nat × Settings)
  | 0, pos, key, g, _ => .ok (pos, key, g)
  | fuel + 1, pos, key, g, bs =>
    let head := wordAt bs 0
    let ty := fld head 15 0
    let inst := fld head 23 16
    let len := fld head 63 32
    let k := 256 * ty + inst
    let words := (bytesWords (slice bs 8 len)) ++ (List.range (secWords ty - len / 8)).map fun j => secDefault ty (len / 8 + j)
    let nchk := if ty = 8 then len / 8 else secWords ty
    let failsBefore := fun (e : Nat) => match bad with
      | some o => decide (o < e)
      | none => false
    if failsBefore (pos + 8) then .error (0x0F, bad.getD 0)
    else if t < pos + 16 then .error (0x0A, t)
    else if !(inRange 1 10 ty || decide (0x8000 ≤ ty)) || k ≤ key || fld head 31 24 ≠ 1 then .error (6, pos)
    else if key < 0x300 && 0x300 < k then .error (9, pos)
    else if !instOk totalVfs g ty inst || len % 8 ≠ 0 || (ty ≤ 10 && 8 * secWords ty < len) then .error (6, pos)
    else if (requiredSecs totalVfs g).any fun r => decide (key < r) && decide (r < k) then .error (9, pos)
    else if t < pos + 16 + len then .error (0x0A, t)
    else if failsBefore (pos + 16 + len) then .error (0x0F, bad.getD 0)
    else if leNat (slice bs (8 + len) 4) ≠ crc32c (slice bs 0 (8 + len)) then .error (5, pos)
    else match (List.range nchk).find? fun j => !secWordOk totalVfs ty inst words j with
      | some j => .error (7, if 8 * j < len then pos + 8 + 8 * j else pos + 8 + len)
      | none =>
        if ty < 0x8000 && leNat (slice bs (12 + len) 4) ≠ 0 then .error (7, pos + 8 + len)
        else chkSections totalVfs t bad fuel (pos + 16 + len) k (secTake g ty inst words (len / 8)) (bs.drop (16 + len))

/-- What a whole check gives. -/
structure ImgOk where
  settings : Settings
  sigOk : Bool

/-- A whole copy checked (R54 to R63, R71), part by part, the cross-checks of R61 after the last section and before the trailer (the order
within a part is assumption 73): `fuse` the image-key hash, `inForce` the early block in force, `img` the bytes of
the copy's region from its start, `bad` where a read of the NVM fails. -/
def chkCopy (fuse : Option Bytes) (inForce : Option Bytes) (bad : Option Nat) (img : Nat → Bytes) : Except ImgFail ImgOk :=
  let failsBefore := fun (e : Nat) => match bad with
    | some o => decide (o < e)
    | none => false
  if failsBefore 0x40 then .error (0x0F, bad.getD 0)
  else match chkHeader fuse.isSome (img 0x40) with
  | .error e => .error e
  | .ok h =>
    let bs := img h.len
    let eb := slice bs 0x40 0x1000
    let t := h.len - if h.signed then 240 else 40
    if failsBefore 0x1040 then .error (0x0F, bad.getD 0)
    else match chkEarly eb with
    | .error e => .error e
    | .ok early =>
      if (match inForce with | some f => decide (f ≠ eb) | none => false) then
        .error (0x10, 0x40 + firstDiff eb (inForce.getD []))
      else match chkSections early.totalVfs t bad h.count 0x1040 0 Settings.initial (bs.drop 0x1040) with
      | .error e => .error e
      | .ok (pos, key, g) =>
        let tr := slice bs t (h.len - t)
        let pre := slice bs 0 t
        if pos ≠ t then .error (0x0A, t)
        else if (requiredSecs early.totalVfs g).any fun r => decide (key < r) then .error (9, t)
        else if !crossOk g then .error (8, t)
        else if failsBefore h.len then .error (0x0F, bad.getD 0)
        else if slice tr 0 8 ≠ [0x54, 0x4C, 0x59, 0x54, 0x52, 0x41, 0x49, 0x4C] then .error (0x0A, t)
        else if slice tr 8 32 ≠ sha256 pre then .error (0x0B, t + 8)
        else
          let g' := { g with seq := h.seq, digest := slice tr 8 32, signed := h.signed, early := early }
          match fuse with
          | none => .ok { settings := g', sigOk := false }
          | some f =>
            if sha256 (slice tr 0x28 97) ≠ f then .error (0x0D, t + 0x28)
            else if !ecdsaOk (slice tr 0x28 97) (slice tr 0x90 96) (slice bs 0 (t + 0x90)) then .error (0x0E, t + 0x90)
            else .ok { settings := g', sigOk := true }

/-- Where copy A and copy B begin (R53). -/
def copyBase (b : Bool) : Nat := if b then 0x01000000 else 0

/-- The bytes of a copy from its start. -/
def State.copyBytes (s : State) (b : Bool) (n : Nat) : Bytes := nvmBytes s.image.nvm (copyBase b) n

/-- Where a read of a copy fails. -/
def failAt (fails : List NvmFail) (b : Bool) : Option Nat := (fails.find? fun f => f.copyB == b).map (·.off)

end Sys2Proof.Machine
end

