-- ==== Sys2Proof/Machine/Operands.lean ====
section
/-! DEFINITION. The operand forms of a command: the fields of a submission entry (Table 06-1), its descriptors (R102), and the
checks of R104 step 4 that every command shares. -/

namespace Sys2Proof

/-- OPCODE, CUT, CID, VOL of W0. -/
def SubEntry.op (e : SubEntry) : Nat := Machine.fld e.w0 7 0
def SubEntry.cut (e : SubEntry) : Bool := Machine.bit e.w0 8
def SubEntry.cid (e : SubEntry) : Nat := Machine.fld e.w0 31 16
def SubEntry.vol (e : SubEntry) : Nat := Machine.fld e.w0 47 32
/-- LEN and DTYPE of W3. -/
def SubEntry.len (e : SubEntry) : Nat := Machine.fld e.w3 31 0
def SubEntry.dtype (e : SubEntry) : Nat := Machine.fld e.w3 33 32

/-- The greatest data length (Table 06-1). -/
def maxLen : Nat := 67108864

/-- W0 and W3 in range with their `res` fields 0: CUT only where the opcode takes it, VOL only where it takes a volume. -/
def SubEntry.headOk (e : SubEntry) (cutOk volOk : Bool) : Bool :=
  Machine.fld e.w0 15 9 == 0 && Machine.fld e.w0 63 48 == 0 && (cutOk || !e.cut) && (volOk || e.vol == 0) &&
    Machine.fld e.w3 63 34 == 0 && decide (e.len ≤ maxLen) && e.dtype != 3

/-- An opcode that takes no data: DTYPE 0 and LEN 0. -/
def SubEntry.noData (e : SubEntry) : Bool := e.dtype == 0 && e.len == 0

/-- Descriptors read in order until their lengths add up to the rest of LEN (R102). -/
def descOk : Nat → List (Word × Word) → Bool
  | 0, _ => true
  | _ + 1, [] => false
  | rest + 1, (_, w) :: r =>
    let n := Machine.fld w 31 0
    Machine.fld w 63 32 == 0 && decide (0 < n) && decide (n ≤ 16777216) && decide (n ≤ rest + 1) && descOk (rest + 1 - n) r

/-- The data region of an opcode that takes one: contiguous, or a list of at most 4,096 descriptors on a 16-byte boundary. -/
def SubEntry.dataOk (e : SubEntry) (h : HostData) : Bool :=
  e.dtype == 1 || (e.dtype == 2 && Machine.fld e.w2 3 0 == 0 && descOk e.len (h.desc.take 4096))

/-- An entry that needs segments: Write Records or Read Records with a LEN in range (another LEN fails its check). -/
def SubEntry.needsSegs (e : SubEntry) : Bool := (e.op == 0x81 || e.op == 0x82) && decide (e.len ≤ maxLen)

/-- The cost of a command (R92). -/
def SubEntry.cost (e : SubEntry) : Nat := max 4096 (Machine.roundUp e.len 4096)

/-- A command that reads host memory: data, a key, an image piece or a descriptor list. -/
def SubEntry.readsHost (e : SubEntry) : Bool := e.op == 0x81 || e.op == 0x18 || e.op == 0x28 || e.dtype == 2

end Sys2Proof

namespace Sys2Proof.Machine

/-- Words that must be 0 (`res`). -/
def zeros (ws : List Word) : Bool := ws.all (· == 0)

/-- The host data of a command: exactly LEN bytes; bytes that the operand does not give read 0 (assumption 7). -/
def hostBytes (e : SubEntry) (h : HostData) : Bytes := slice h.data 0 e.len

end Sys2Proof.Machine
end

