-- ==== Sys2Proof/Machine/Codec.lean ====
section
/-! DEFINITION. The formats of chapters 09 and 10 as functions: stored blocks and the Oaldo decoder, Reed-Solomon codes, dataset
payloads and directories, row units, interval tracks and directory streams. -/

namespace Sys2Proof.Machine

/-! ### Stored blocks (Table 09-1) -/

/-- Header bytes 0x00 to 0x2B of a stored block. -/
def blockHead (raw enc : Bool) (cut slen ulen ucrc bseq foff : Nat) (iv : Bytes) : Bytes :=
  wordsBytes [mkw [(0, 1), (8, b2n raw), (9, b2n enc), (10, cut), (32, slen)], mkw [(0, ulen), (32, ucrc)], BitVec.ofNat 64 bseq,
    mkw [(0, foff)]] ++ slice iv 0 12

/-- The 48-byte header with HCRC. -/
def blockHeader (raw enc : Bool) (cut slen ulen ucrc bseq foff : Nat) (iv : Bytes) : Bytes :=
  let b := blockHead raw enc cut slen ulen ucrc bseq foff iv
  b ++ leBytes 4 (crc32c b)

/-- A stored block: header, body, tag, zero pad to a multiple of 8 (R173). -/
def storedBlock (header body tag : Bytes) : Bytes :=
  let b := header ++ body ++ tag
  b ++ List.replicate (roundUp b.length 8 - b.length) 0

/-- The bytes a stored block takes in the stream (R173), read from its header. -/
def storedLen (w0 : Word) : Nat := roundUp (48 + fld w0 63 32 + if bit w0 9 then 16 else 0) 8

/-! ### The Oaldo decoder (R175 to R178) -/

/-- Copies `n` bytes from distance `d`, one at a time (R176); the output is kept newest first. -/
def oaldoCopy (d : Nat) : Nat → Bytes → Bytes
  | 0, out => out
  | n + 1, out => oaldoCopy d n (out.getD (d - 1) 0 :: out)

/-- A token's sizes: bytes after the first before its literals or copy, its length, its distance (0 for a literal run). -/
def tokenShape (b : Byte) (rest : Bytes) : Nat × Nat × Nat :=
  let n := b.toNat % 64
  match b.toNat / 64 with
  | 0 => if n ≤ 61 then (0, n + 1, 0) else if n = 62 then (1, 63 + leNat (rest.take 1), 0) else (2, 319 + leNat (rest.take 2), 0)
  | 1 => (1, n / 8 + 3, n % 8 * 256 + leNat (rest.take 1) + 1)
  | _ =>
    if n ≤ 61 then (2, n + 3, leNat (rest.take 2) + 1)
    else if n = 62 then (3, 65 + leNat (rest.take 1), leNat ((rest.drop 1).take 2) + 1)
    else (4, 321 + leNat (rest.take 2), leNat ((rest.drop 2).take 2) + 1)

/-- Decodes a body at offset `at`: the output, or the defect with its offset (R177, R178). The fuel is a token each. -/
def oaldo (ulen : Nat) : Nat → Nat → Bytes → Bytes → Except (Status × Nat) Bytes
  | 0, pos, _, _ => .error (Status.truncatedStream, pos)
  | _ + 1, pos, [], _ => .error (Status.truncatedStream, pos)
  | fuel + 1, pos, b :: rest, out =>
    if b.toNat / 64 = 3 then
      if b.toNat % 64 ≠ 63 then .error (Status.illegalToken, pos)
      else if out.length < ulen then .error (Status.truncatedStream, pos)
      else if rest.isEmpty then .ok out.reverse else .error (Status.illegalToken, pos + 1)
    else
      let (k, n, d) := tokenShape b rest
      if rest.length < k then .error (Status.truncatedStream, pos)
      else if out.length < d then .error (Status.distanceBeyondHistory, pos)
      else if ulen < out.length + n then .error (Status.lengthOverrun, pos)
      else if d = 0 then
        let body := rest.drop k
        if body.length < n then .error (Status.truncatedStream, pos)
        else oaldo ulen fuel (pos + 1 + k + n) (body.drop n) ((body.take n).reverse ++ out)
      else oaldo ulen fuel (pos + 1 + k) (rest.drop k) (oaldoCopy d n out)

/-- A legal body for the given bytes (R176). -/
def oaldoLegal (raw body : Bytes) : Bool :=
  match oaldo raw.length (body.length + 1) 0 body [] with
  | .ok out => decide (out = raw)
  | .error _ => false

/-- Recovers a stored block (R177): the uncompressed bytes, or the status with its offset. -/
def openBlock (encrypt strict : Bool) (key : Bytes) (blk : Bytes) : Except (Status × Nat) Bytes :=
  let w0 := wordAt blk 0
  let slen := fld w0 63 32
  let ulen := fld (wordAt blk 8) 31 0
  let foff := fld (wordAt blk 24) 31 0
  let raw := bit w0 8
  let enc := bit w0 9
  let bad := fld (wordAt blk 40) 63 32 != crc32c (slice blk 0 44) || fld w0 7 0 != 1 || fld w0 31 12 != 0 ||
    fld (wordAt blk 24) 63 32 != 0 || slen == 0 || decide (65536 < slen) || ulen == 0 || decide (65536 < ulen) ||
    (!raw && decide (ulen < slen + 8)) || (decide (ulen ≤ foff) && foff != 0xFFFFFFFF) ||
    (!enc && slice blk 32 12 != List.replicate 12 0) || enc != encrypt
  if bad then .error (Status.blockCheckFailed, 0)
  else
    let plain := if enc then gcmOpen key (slice blk 32 12) (slice blk 0 48) (slice blk 48 slen) (slice blk (48 + slen) 16)
      else some (slice blk 48 slen)
    match plain with
    | none => .error (Status.blockAuthFailed, 0)
    | some body =>
      let out := if raw then (if slen = ulen then .ok body else .error (Status.lengthOverrun, 0))
        else oaldo ulen (body.length + 1) 0 body []
      match out with
      | .error e => .error (if strict then e else (Status.blockCheckFailed, 0))
      | .ok b => if crc32c b = fld (wordAt blk 8) 63 32 then .ok b else .error (Status.blockCheckFailed, 0)

/-! ### Reed-Solomon codes (R195) over GF(2^8) with 0x11D -/

/-- The generator's coefficients below the leading one, highest first. -/
def rsGen (p : Nat) : List Byte :=
  let roots := (List.range p).foldl (fun l _ => match l with
    | a :: _ => gfMul 0x1D a 2 :: l
    | [] => [1]) ([] : List Byte)
  let g := roots.foldl (fun (g : List Byte) a => List.zipWith (· ^^^ ·) (g ++ [0]) (0 :: g.map (gfMul 0x1D a))) [1]
  g.drop 1

/-- Systematic parity of data symbols, highest power first. -/
def rsParity (p : Nat) (data : Bytes) : Bytes :=
  let g := rsGen p
  data.foldl (fun (r : Bytes) d =>
    let f := d ^^^ r.headD 0
    List.zipWith (fun a c => a ^^^ gfMul 0x1D f c) (r.drop 1 ++ [0]) g) (List.replicate p 0)

def c1Parity : Bytes → Bytes := rsParity 12
def c2Parity : Bytes → Bytes := rsParity 16
def c3Parity : Bytes → Bytes := rsParity 2

/-- A power of the primitive element 2. -/
def gfPow : Nat → Byte
  | 0 => 1
  | n + 1 => gfMul 0x1D (gfPow n) 2

/-- A C3 codeword of 16 symbols with at most two erasures, made whole (R195, R256): both syndromes, at 1 and at 2, are 0. -/
def c3Rebuild (cols : List (Option Byte)) : List Byte :=
  let z := cols.map fun c => c.getD 0
  let at_ : Nat → Byte := fun i => gfPow (15 - i)
  let s0 := z.foldl (· ^^^ ·) 0
  let s1 := (z.mapIdx fun i c => gfMul 0x1D (at_ i) c).foldl (· ^^^ ·) 0
  match (List.range cols.length).filter fun i => (cols.getD i none).isNone with
  | [i] => z.set i s0
  | [i, j] =>
    let b := gfMul 0x1D (s1 ^^^ gfMul 0x1D (at_ i) s0) (gfInv 0x1D (at_ i ^^^ at_ j))
    (z.set i (s0 ^^^ b)).set j b
  | _ => z

/-- The 104 rows of 244 bytes of a sub-dataset (R196). -/
def subRows (payload : Bytes) : List Bytes :=
  let data := (List.range 88).map fun r => slice payload (232 * r) 232
  let par := (List.range 232).map fun c => c2Parity (data.map fun row => row.getD c 0)
  let rows := data ++ (List.range 16).map fun k => par.map fun col => col.getD k 0
  rows.map fun row => row ++ c1Parity row

/-! ### Dataset directory and payload (R197, R198, Table 10-3) -/

/-- A volume entry of a dataset directory, 72 bytes. -/
def regionEntry (r : Region) : Bytes :=
  wordsBytes [mkw [(0, r.vidx), (8, r.entries.length), (16, r.tenant), (20, b2n r.encrypt), (21, b2n r.strict), (22, b2n r.hold),
    (32, r.off)], mkw [(0, r.bytes.length), (32, r.fblk.getD 0xFFFFFFFF)], mkw [(0, r.chainN), (48, r.retention)]] ++
    slice r.h 0 32 ++ leBytes 16 r.uuid.toNat

/-- A chain entry, 32 bytes (Table 09-5). -/
def chainBytes (e : ChainEntry) : Bytes :=
  wordsBytes [mkw [(0, e.kind), (8, e.gpio), (16, e.count)], BitVec.ofNat 64 e.time, BitVec.ofNat 64 e.epoch, BitVec.ofNat 64 e.ref]

/-- The bytes of a region: block bytes, then chain entries. -/
def regionAll (r : Region) : Bytes := r.bytes ++ r.entries.flatMap chainBytes

/-- USED: the end of the last region. -/
def dsUsed (d : Dataset) : Nat := d.regions.foldl (fun m r => max m (r.off + (regionAll r).length)) 0

/-- The 512 bytes of a dataset directory; DKIND 2 for a directory dataset. -/
def datasetDir (dkind : Nat) (d : Dataset) : Bytes :=
  let mk : Nat → Bytes := fun crc =>
    let b := wordsBytes [mkw [(0, 0x44314641), (32, 1), (40, dkind), (48, d.regions.length)], mkw [(0, d.dsn), (48, d.wrap)],
      mkw [(0, d.gpos), (4, b2n d.part), (5, b2n d.rewrite)], mkw [(0, d.gdsn0)], mkw [(0, dsUsed d)], BitVec.ofNat 64 d.time,
      mkw [(0, d.origDsn)], mkw [(32, crc)]] ++ d.regions.flatMap regionEntry
    slice b 0 512
  mk (crc32c (mk 0))

/-- Lays regions into the user area, in order of their offsets. -/
def userArea (d : Dataset) : Bytes :=
  let (b, _) := d.regions.foldl (fun (a : Bytes × Nat) r =>
    (a.1 ++ List.replicate (r.off - a.2) 0 ++ regionAll r, max a.2 r.off + (regionAll r).length)) ([], 0)
  slice b 0 652800

/-- The 653,312 payload bytes of a dataset. -/
def dsPayload (d : Dataset) : Bytes := if d.dkind = 1 then slice d.parity 0 653312 else userArea d ++ datasetDir 0 d

/-- C3 parity of a group's data datasets: the payloads of GPOS 14 and 15 (R199). -/
def groupParity (ds : List Dataset) : Bytes × Bytes :=
  let cols := (List.range 14).map fun k => match ds[k]? with
    | some d => dsPayload d
    | none => List.replicate 653312 0
  let step : List Bytes → List Byte := fun c => c3Parity (c.map fun x => x.headD 0)
  let (_, a, b) := (List.range 653312).foldl (fun (st : List Bytes × Bytes × Bytes) _ =>
    let p := step st.1
    (st.1.map (List.drop 1), p.getD 0 0 :: st.2.1, p.getD 1 0 :: st.2.2)) (cols, [], [])
  (a.reverse, b.reverse)

/-! ### Row units and intervals (R202 to R209) -/

/-- A row header, 12 bytes (Table 10-4). -/
def rowHeader (rtype dkind rwc sub row dsn gpos : Nat) : Bytes :=
  let b := leBytes 10 (rtype + 4 * dkind + 16 * rwc + 256 * sub + 65536 * row + 2 ^ 24 * dsn + 2 ^ 72 * gpos)
  b ++ leBytes 2 (b.foldl (crcMsb 16 0x1021) 0xFFFF)

/-- The bits of a byte string, each byte most significant bit first. -/
def bitsOf (bs : Bytes) : List Bool := bs.flatMap fun b => (List.range 8).map fun k => b.getLsbD (7 - k)

/-- Scrambles with the LFSR of R203. -/
def scramble : BitVec 16 → List Bool → List Bool
  | _, [] => []
  | s, b :: r =>
    let f := s.getLsbD 15 ^^ s.getLsbD 13 ^^ s.getLsbD 12 ^^ s.getLsbD 10
    (b ^^ s.getLsbD 15) :: scramble ((s <<< 1) ||| BitVec.ofNat 16 (if f then 1 else 0)) r

/-- The seed of a physical track (R203). -/
def seedOf (p : Nat) : BitVec 16 := 0xACE1#16 ^^^ BitVec.ofNat 16 (0x0101 * p)

/-- 16/17: after every 16 bits the complement of the 16th (R204). `k` counts the bits since the last inserted one. -/
def modulate : Nat → List Bool → List Bool
  | _, [] => []
  | k, b :: r => if k = 15 then b :: (!b) :: modulate 0 r else b :: modulate (k + 1) r

/-- The bits of a number, most significant first. -/
def msbBits (k n : Nat) : List Bool := (List.range k).map fun j => n.testBit (k - 1 - j)

/-- A row unit with its sync on track `p`: 2,224 channel bits (R205). -/
def rowUnit (p : Nat) (header codeword : Bytes) : List Bool :=
  msbBits 48 0xAAAAFFFFF000 ++ modulate 0 (scramble (seedOf p) (bitsOf (header ++ codeword)))

/-- The interval descriptor, 8 bytes (Table 10-5). -/
def descriptor (tmask : BitVec 32) (p q : Nat) : Bytes :=
  let b := leBytes 4 tmask.toNat ++ leBytes 1 p ++ leBytes 1 q
  b ++ leBytes 2 (b.foldl (crcMsb 16 0x1021) 0xFFFF)

/-- A separator, 2,176 bits, the same on every track (R205). -/
def separator (tmask : BitVec 32) (p q : Nat) : List Bool :=
  ((List.range 495).flatMap fun _ => [true, true, false, false]) ++ msbBits 128 0x00000000FFFFFFFF00000000FFFFFFFF ++
    modulate 0 (bitsOf (descriptor tmask p q))

/-- Bits of an interval (R206). -/
def intervalBits (p q : Nat) : Nat := 2176 + 2224 * (p + q)
/-- The largest interval: n = 28, P = 119, Q = 16. -/
def maxInterval : Nat := 302416

/-- The active tracks of a mask, ascending. -/
def activeTracks (m : BitVec 32) : List Nat := (List.range 32).filter fun p => m.getLsbD p
/-- P of a data interval under `n` active tracks. -/
def positions (n : Nat) : Nat := ceilDiv 3328 n

/-- R207: the position and the active index of row `r` of sub-dataset `s` under `n` active tracks. -/
def rowPlace (n s r : Nat) : Nat × Nat :=
  let g := 32 * r + s
  (g / n, (g + g / n) % n)

/-- The (sub, row) that stands at position `p` on active index `a` under `n` tracks, or none where a filler row does. -/
def rowAt (n p a : Nat) : Option (Nat × Nat) :=
  let g := p * n + (a + n - p % n) % n
  if g < 3328 then some (g % 32, g / 32) else none

/-- A row of a dataset: its codeword. -/
def dsRow (d : Dataset) (sub row : Nat) : Bytes := (subRows (slice (dsPayload d) (20416 * sub) 20416)).getD row []

/-- The channel bits of track `p` over an interval: separator, data positions, rewrite positions. `rws` gives, for this
track, the rewritten rows in position order as (dataset, sub, row, rwc). -/
def trackBits (tmask : BitVec 32) (dkind : Nat) (d : Option Dataset) (dsn gpos np nq p : Nat)
    (rws : List (Dataset × Nat × Nat × Nat)) : List Bool :=
  let act := activeTracks tmask
  let fill : Nat → List Bool := fun rt => rowUnit p (rowHeader rt dkind 0 0 0 dsn gpos) (List.replicate 244 0)
  let body := match act.findIdx? (· == p), d with
    | none, _ => (List.range np).flatMap fun _ => fill 2
    | some a, some x => (List.range np).flatMap fun k => match rowAt act.length k a with
      | some (s, r) => rowUnit p (rowHeader 0 dkind 0 s r x.dsn x.gpos) (dsRow x s r)
      | none => fill 1
    | some _, none => (List.range np).flatMap fun _ => fill 1
  let rewr := (List.range nq).flatMap fun k =>
    if act.contains p then
      match rws[k]? with
      | some (x, s, r, c) => rowUnit p (rowHeader 0 (if x.dkind = 1 then 1 else 0) c s r x.dsn x.gpos) (dsRow x s r)
      | none => fill 1
    else fill 2
  separator tmask np nq ++ body ++ rewr

/-! ### Directory stream (Tables 10-6 and 10-7) -/

def dirVolBytes (v : DirVolume) : Bytes :=
  leBytes 16 v.uuid.toNat ++ wordsBytes [mkw [(0, v.tenant), (4, b2n v.encrypt), (5, b2n v.strict), (6, b2n v.hold),
    (7, b2n v.deleted), (8, b2n v.used), (16, v.retention)], v.kcv, BitVec.ofNat 64 v.nextSeq, BitVec.ofNat 64 v.v,
    mkw [(0, v.chainN)]] ++ slice v.h 0 32 ++ leBytes 8 0

def extentBytes (e : Extent) : Bytes :=
  wordsBytes [mkw [(0, e.vidx), (8, e.wrap), (16, e.firstDsn)], BitVec.ofNat 64 e.firstSeq, BitVec.ofNat 64 e.lastSeq,
    BitVec.ofNat 64 e.newest]

def lostBytes (l : LostRange) : Bytes :=
  wordsBytes [mkw [(0, l.vidx), (8, b2n l.power), (16, l.exFirst)], BitVec.ofNat 64 l.first, BitVec.ofNat 64 l.last,
    mkw [(0, l.exLast)]]

/-- The directory stream. -/
def dirStream (d : Directory) : Bytes :=
  let body := (List.range 64).flatMap (fun k => dirVolBytes (Tab.get default d.vols k)) ++
    ((List.range 26).flatMap fun g =>
      let w : WrapGroup := Tab.get default d.groups g
      wordsBytes [mkw [(0, w.reuseDsn), (48, w.reuses)], 0]) ++
    d.extents.flatMap extentBytes ++ d.lost.flatMap lostBytes
  let mk : Nat → Bytes := fun crc =>
    [0x41, 0x46, 0x31, 0x43, 0x44, 0x49, 0x52, 0x31] ++ wordsBytes [BitVec.ofNat 64 d.dirgen,
      mkw [(0, b2n d.opn), (1, b2n d.locked)], d.loader, mkw [(0, d.eodDsn), (48, d.eodWrap)], mkw [(0, d.eodInt)],
      mkw [(0, d.dsnLimit)], mkw [(0, d.extents.length), (16, d.lost.length)], BitVec.ofNat 64 d.time, 0, 0, 0, 0, 0, 0,
      mkw [(0, 128 + body.length), (32, crc)]]
  mk (crc32c (mk 0 ++ body)) ++ body

/-- The payload of a directory dataset (R212): the stream at the start of the user area, and its dataset directory with DKIND 2. -/
def dirPayload (d : Directory) (x : Dataset) : Bytes := slice (dirStream d) 0 652800 ++ datasetDir 2 x

end Sys2Proof.Machine
end

