-- ==== Sys2Proof/Machine/OpsSachet.lean ====
section
/-! DEFINITION. Operations on Sachet: wear, the crash journal and snapshots, directory commits, the durable ring, the life
counters, and the byte layouts of its records (chapter 08). -/

namespace Sys2Proof.Machine

/-! ### Wear (R158, R387) -/

/-- A count of the life counters. -/
def Sachet.count (x : Sachet) (key : Nat) : Nat := Tab.get 0 x.written key

/-- The delta ring and the durable ring, in bytes, and the crash journal. -/
def deltaRing : Nat := 2097152
def ringSize : Nat := 16711680
def journalSize : Nat := 245760 * 16

/-- Passes of page `k` of a region of `size` bytes written circularly, after `n` bytes. -/
def pagePasses (n size k : Nat) : Nat := ceilDiv (n - 4096 * k) size

/-- Write passes of the 4 KiB page at page offset `k` of a partition (R158, R387; 0 directory, 1 durable ring, 2 shadow, 3 crash record): the
directory areas, the anchor logs and the delta ring; the ring behind its control block; the image block and the checkpoint positions; the two
slots and the journal. A page that nothing here writes has none. -/
def Sachet.pagePasses (x : Sachet) (part k : Nat) : Nat :=
  match part with
  | 0 =>
    if k < 16 then 0
    else if k < 16 + 8 * 160 then x.count (8 + (k - 16) / 160)
    else if k < 1296 + 64 then Machine.pagePasses (64 * x.count (16 + (k - 1296) / 4)) 16384 ((k - 1296) % 4)
    else if k < 1360 + 512 then Machine.pagePasses (x.count 0) deltaRing (k - 1360)
    else 0
  | 1 => if k < 16 then 0 else Machine.pagePasses (x.count 1) ringSize (k - 16)
  | 2 => if k < 16 then x.count 5 else Machine.pagePasses (65536 * x.count 2) (63 * 65536) (k - 16)
  | _ => if k < 64 then ceilDiv (x.count 4 - (if k < 32 then 1 else 0)) 2 else Machine.pagePasses (x.count 3) journalSize (k - 64)

/-- The first pages of a partition's regions: the most-written page is one of them. -/
def firstPages : Nat → List Nat
  | 0 => (List.range 8).map (fun a => 16 + 160 * a) ++ (List.range 16).map (fun u => 1296 + 4 * u) ++ [1360]
  | 1 => [16]
  | 2 => [0, 16]
  | _ => [0, 32, 64]

/-- Passes of the most-written page of a partition. -/
def Sachet.passes (x : Sachet) (part : Nat) : Nat := ((firstPages part).map fun k => x.pagePasses part k).foldl max 0

/-- SC_WEAR of a partition (0 DIR, 1 RING, 2 SHADOW, 3 CRASH) in 0.01 % of the rating of 10^10 passes. -/
def Sachet.wear (x : Sachet) (part : Nat) : Nat := min 65535 (x.passes part / 1000000)

/-- The partition that a count belongs to. -/
def partOf (key : Nat) : Nat :=
  if key = 0 || 8 ≤ key then 0 else if key = 1 then 1 else if key = 2 || key = 5 then 2 else 3

/-- A write to Sachet: `n` more of a count, `bytes` bytes; Sachet Wear is raised as the partition's most-written page reaches 80 % and
100 % of its rating (R158). -/
def State.sachetWrite (s : State) (key n bytes : Nat) : State :=
  let before := s.sachet.passes (partOf key)
  let s1 := (s.modSachet fun x => { x with written := Tab.set key (x.count key + n) x.written }).stat (stDev 4) bytes
  let after := s1.sachet.passes (partOf key)
  if (before < 8000000000 && 8000000000 ≤ after) || (before < 10000000000 && 10000000000 ≤ after) then s1.raise evSachetWear else s1

/-- A checkpoint of the life counters, at the next of the 63 positions (R387). -/
def State.lifeCkpt (s : State) : State :=
  (s.sachetWrite 2 1 65536).modSachet fun x => { x with
    ckptWas := x.ckpt, ckpt := { seq := x.ckpt.seq + 1, written := x.written, ss := x.ss, lossId := x.lossId } }

/-- The life counters are those of the valid checkpoint of the highest number (R387); `bad` are the numbers of invalid ones. -/
def Sachet.restore (x : Sachet) (bad : List Nat) : Sachet :=
  let c := if bad.contains x.ckpt.seq then x.ckptWas else x.ckpt
  { x with written := c.written, ss := c.ss, lossId := c.lossId, ckpt := c }

/-- SEQ and DIGEST of a loaded image are written where they differ from those kept (R67, R387). -/
def State.shadowImage (s : State) (g : Settings) : State :=
  if s.sachet.shadowSeq = g.seq && s.sachet.shadowDigest = g.digest then s
  else (s.modSachet fun x => { x with shadowSeq := g.seq, shadowDigest := g.digest }).sachetWrite 5 1 65536

/-- A new LOSS_ID (R161), checkpointed at once (R387). -/
def State.newLoss (s : State) : State := (s.modSachet fun x => { x with lossId := x.lossId + 1 }).lifeCkpt

/-! ### Crash record (R161) -/

/-- The current slot is B: its header passes its CRC, and A's does not or carries a lower SNAP_SEQ. -/
def Sachet.useB (x : Sachet) : Bool := x.slotB.ok && (!x.slotA.ok || decide (x.slotA.snapSeq < x.slotB.snapSeq))

def Sachet.current (x : Sachet) : CrashSlot := if x.useB then x.slotB else x.slotA

/-- The first 8 bytes of SHA-256 of a cartridge serial (Table 08-5). -/
def cartHash (serial : Bytes) : Word := wordAt (sha256 serial) 0

/-- The serial of the cartridge in a transport. -/
def State.serial (s : State) (t : Nat) : Bytes :=
  match (s.tp t).ld.cart with
  | some c => c.serial
  | none => []

/-- The ring entries of a volume numbered V + 1 to A that are still needed. -/
def Sachet.durables (x : Sachet) (uuid : BitVec 128) (v a : Nat) : List RingEntry :=
  x.ring.filter fun e => decide (e.uuid = uuid) && decide (v < e.seq) && decide (e.seq ≤ a) && !e.done

/-- The crash-record entry of an online volume. -/
def State.crashVol (s : State) (h : Nat) (w : Volume) : CrashVol :=
  let ds := s.sachet.durables w.uuid w.verified w.acked
  { uuid := w.uuid, v := w.verified, a := w.acked, vol := h, tenant := w.tenant, transport := w.transport,
    durable := ds.length, ringFirst := (ds.head?).map (·.off), cart := cartHash (s.serial w.transport) }

/-- A slot is written over the one that is not current; the journal keeps what the slot before it needs. -/
def State.putSlot (s : State) (reason : Nat) (vols : List CrashVol) : State :=
  let x := s.sachet
  let sl : CrashSlot :=
    { snapSeq := max x.slotA.snapSeq x.slotB.snapSeq + 1, lossId := x.lossId, reason := reason, jstart := x.journalPos, vols := vols, ok := true }
  let old := x.journal.filter fun j => j.pass == x.current.snapSeq % 65536
  (s.modSachet fun y => if y.useB then { y with slotA := sl, journal := old } else { y with slotB := sl, journal := old }).sachetWrite 4 1
    (64 + 64 * vols.length)

/-- A snapshot to the alternate slot (R161): the online volumes, REASON, SNAP_SEQ one greater; it compacts the journal. -/
def State.snapshot (s : State) (reason : Nat) : State := s.putSlot reason (s.vols.map fun p => s.crashVol p.1 p.2)

/-- A change of V or A appended to the running journal (Table 08-5b). -/
def State.journal (s : State) (h : Nat) (isV : Bool) (value : Nat) : State :=
  let c := s.sachet.current
  match c.vols.findIdx? fun v => v.vol == h with
  | none => s
  | some k =>
    (s.modSachet fun x => { x with
      journal := x.journal ++ [{ value := value, slot := k, isV := isV, pass := c.snapSeq % 65536, off := x.journalPos, ok := true }],
      journalPos := (x.journalPos + 16) % journalSize }).sachetWrite 3 16 16

/-- The journal entries that follow the current slot: from its JSTART on, up to the first whose CRC fails or whose PASS is another's
(R161). -/
def Sachet.journalOf (x : Sachet) : List JournalEntry :=
  (x.journal.dropWhile fun j => j.off != x.current.jstart).takeWhile fun j => j.ok && j.pass == x.current.snapSeq % 65536

/-- V and A as the crash record gives them: the current slot's entries updated by the journal; DURABLE and RING_FIRST by the ring. -/
def Sachet.recovered (x : Sachet) : List CrashVol :=
  (x.journalOf.foldl (fun vs j => vs.modify j.slot fun v => if j.isV then { v with v := j.value } else { v with a := j.value }) x.current.vols).map
    fun v =>
      let ds := x.durables v.uuid v.v v.a
      { v with durable := ds.length, ringFirst := (ds.head?).map (·.off) }

/-! ### Byte layouts (Tables 08-4, 08-5, 08-5a, 08-5b) -/

def uuidBytes (u : BitVec 128) : Bytes := leBytes 16 u.toNat

/-- A volume entry of a slot. -/
def CrashVol.bytes (v : CrashVol) : Bytes :=
  let b := uuidBytes v.uuid ++ leBytes 8 v.v ++ leBytes 8 v.a ++
    wordBytes (mkw [(0, v.vol), (16, v.tenant), (24, v.transport), (32, v.durable)]) ++
    wordBytes (mkw [(0, v.ringFirst.getD 0xFFFFFFFF)]) ++ wordBytes v.cart ++ leBytes 4 0
  b ++ leBytes 4 (crc32c b)

/-- A slot: its header and its volume entries. -/
def CrashSlot.bytes (c : CrashSlot) : Bytes :=
  let b := [0x54, 0x4C, 0x59, 0x43, 0x52, 0x41, 0x53, 0x48] ++ leBytes 8 c.snapSeq ++ leBytes 8 c.lossId ++
    wordBytes (mkw [(0, c.reason), (16, c.vols.length)]) ++ wordBytes (mkw [(0, c.jstart)]) ++ leBytes 16 0 ++ leBytes 4 0
  b ++ leBytes 4 (crc32c b) ++ c.vols.flatMap CrashVol.bytes

/-- A journal entry. -/
def JournalEntry.bytes (j : JournalEntry) : Bytes :=
  let b := leBytes 8 j.value ++ leBytes 4 (j.slot + 1024 * b2n j.isV + 65536 * j.pass)
  b ++ leBytes 4 (crc32c b)

/-- A durable-ring entry: header and record. -/
def RingEntry.bytes (e : RingEntry) : Bytes :=
  uuidBytes e.uuid ++ leBytes 8 e.seq ++ leBytes 4 e.body.length ++ leBytes 4 (crc32c e.body) ++ e.body

/-! ### Directory commits (R165, R387) -/

/-- The area that holds a cartridge's directory. -/
def Sachet.areaOf (x : Sachet) (serial : Bytes) : Option Nat := (x.dirs.find? fun p => decide (p.2.1 = serial)).map (·.1)

/-- The area a newly loaded cartridge takes: its own, a free one, else that of the cartridge unloaded longest ago. -/
def Sachet.takeArea (x : Sachet) (serial : Bytes) : Nat :=
  match x.areaOf serial with
  | some a => a
  | none => ((List.range 8).find? fun a => !Tab.has x.dirs a).getD (x.idle.headD 0)

/-- Bytes of a directory stream (R213). -/
def dirLen (d : Directory) : Nat := 6688 + 32 * (d.extents.length + d.lost.length)

/-- A directory is written whole into its area; its deltas are needed no more (R387). -/
def State.wholeArea (s : State) (a : Nat) : State :=
  (s.sachetWrite (8 + a) 1 (dirLen (Tab.get (default : Bytes × Directory) s.sachet.dirs a).2)).modSachet fun x => { x with deltas := Tab.erase a x.deltas }

/-- Areas whose deltas the head of the delta ring would reach with `n` bytes more. -/
def Sachet.reached (x : Sachet) (n : Nat) : List Nat := (x.deltas.filter fun p => decide (p.2.2 + deltaRing < x.count 0 + n)).map (·.1)

/-- `n` bytes of deltas of an area at the head of the ring. -/
def Sachet.addDeltas (x : Sachet) (a n : Nat) : Sachet :=
  { x with deltas := Tab.set a (match x.deltas.find? fun p => p.1 == a with
      | some p => (p.2.1 + n, p.2.2)
      | none => (n, x.count 0)) x.deltas }

/-- Commits the directory of the cartridge in transport `t` to Sachet: whole into an area that another cartridge's held, else as one
64-byte delta for each change since the last commit (R165, R387). -/
def State.commitDir (s : State) (t : Nat) : State :=
  match (s.tp t).ld.cart with
  | none => s
  | some c =>
    let d := (s.tp t).ld.dir
    let a := s.sachet.takeArea c.serial
    let n := 64 * (s.tp t).ld.dirDeltas
    let own := (s.sachet.areaOf c.serial).isSome
    let s1 := (s.modSachet fun x => { x with dirs := Tab.set a (c.serial, d) x.dirs, idle := x.idle.filter (· != a) }).modLd t fun l =>
      { l with dirDirty := false, dirDeltas := 0 }
    if !own then s1.wholeArea a
    else
      let s2 := s1.each (s1.sachet.reached n) State.wholeArea
      if n = 0 then s2 else (s2.modSachet fun x => x.addDeltas a n).sachetWrite 0 n n

/-- Commits every directory with uncommitted changes. -/
def State.commitDirs (s : State) : State := s.each (List.range 8) fun s t => if (s.tp t).ld.dirDirty then s.commitDir t else s

/-- Changes the directory of the cartridge in transport `t`; the change is committed within 250 ms (R165). -/
def State.modDir (s : State) (t : Nat) (f : Directory → Directory) : State :=
  s.modLd t fun l => { l with dir := f l.dir, dirDirty := true, dirDeltas := l.dirDeltas + 1 }

/-! ### Durable ring (R159) -/

/-- Bytes in use: from the tail's oldest unreclaimed entry to the head. -/
def Sachet.ringUsed (x : Sachet) : Nat := (x.ring.map fun e => 32 + e.body.length).sum

/-- Bytes held for replay. -/
def Sachet.ringHeld (x : Sachet) : Nat := ((x.ring.filter fun e => e.held.isSome && !e.done).map fun e => 32 + e.body.length).sum

/-- Reclaims the entries at the tail that are no longer needed; one that still is holds back those behind it (R159). -/
def Sachet.reclaim (x : Sachet) : Sachet := { x with ring := x.ring.dropWhile (·.done) }

/-- Marks entries done and reclaims. -/
def State.ringDone (s : State) (p : RingEntry → Bool) : State :=
  s.modSachet fun x => { x with ring := x.ring.map fun e => if p e then { e with done := true } else e }.reclaim

/-- Appends a Durable record at the head of the ring. -/
def State.ringAppend (s : State) (uuid : BitVec 128) (seq : Nat) (body : Bytes) : State :=
  let n := 32 + body.length
  (s.modSachet fun x => { x with ring := x.ring ++ [{ uuid := uuid, seq := seq, body := body, off := x.ringHead, crcOk := true,
                                                       held := none, done := false }],
                                 ringHead := (x.ringHead + n) % ringSize }).sachetWrite 1 n n

end Sys2Proof.Machine
end

