-- ==== Sys2Proof/Machine/OpsLink.lean ====
section
/-! DEFINITION. The head link's words and frames: express words down and up (R267 to R272), write-gate, drive and solenoid words,
and management requests (R284). -/

namespace Sys2Proof.Machine

/-! ### Express words (Tables 13-3 and 13-4) -/

def xtGate : Nat := 1
def xtDrive : Nat := 2
def xtSol : Nat := 3
def xtWclk : Nat := 4
def xtAux : Nat := 5
def xtLink : Nat := 6
def xtStop : Nat := 7
def xtTrain : Nat := 14

/-- The CRC-16 of a byte string (R202). -/
def crc16 (bs : Bytes) : Nat := bs.foldl (crcMsb 16 0x1021) 0xFFFF

/-- An express word: TYPE, SEQ, PAYLOAD and the CRC of bytes 0 to 8 (Table 13-3). -/
def xword (ty seq : Nat) (payload : Word) : BitVec 96 :=
  let b := BitVec.ofNat 8 (ty % 16 + 16 * (seq % 16)) :: wordBytes payload
  BitVec.ofNat 96 (leNat b + crc16 b * 2 ^ 72)

def xType (w : BitVec 96) : Nat := w.toNat % 16
def xSeq (w : BitVec 96) : Nat := w.toNat / 16 % 16
def xPayload (w : BitVec 96) : Word := BitVec.ofNat 64 (w.toNat / 256)
/-- A copy is well-formed when its CRC passes (R268). -/
def xOk (w : BitVec 96) : Bool := crc16 (leBytes 9 w.toNat) == w.toNat / 2 ^ 72 % 65536

/-- The first well-formed copy of a slot (R268). -/
def slotWord (x : XSlot) : Option (BitVec 96) := if xOk x.copy1 then some x.copy1 else if xOk x.copy2 then some x.copy2 else none

/-- The lanes that carry a transport's words: those that are Up, and one that is Rejoining (R278, R281). -/
def State.sendLanes (s : State) (t : Nat) : List Nat :=
  (s.lanesOf t).filter fun n => (s.ln n).state == .up || (s.ln n).state == .rejoining

/-- Sends one express word on every lane that carries the transport, under one SEQ (R271, R278); with no such lane, or with
CK_CTL lost (R33), the slots carry IDLE and nothing is delivered. -/
def State.sendWord (s : State) (t ty : Nat) (payload : Word) : State :=
  let ns := s.sendLanes t
  if ns.isEmpty || s.clkLost 3 then s
  else
    let q := (s.tp t).link.txSeq
    (s.each ns fun s n => s.emit (.express t n (xword ty q payload))).modLink t fun l => { l with txSeq := (l.txSeq + 1) % 16 }

/-- A LINK word: OP, LANE, SN (Table 13-5). -/
def State.sendLink (s : State) (t op lane sn : Nat) : State := s.sendWord t xtLink (mkw [(0, op), (4, lane), (8, sn % 2 ^ 48)])

/-- LANE of a lane in its pair (Table 13-5). -/
def State.laneBit (s : State) (n : Nat) : Nat := if s.cfg.isPaired (n / 2) then n % 2 else 0

/-- STOP with AUTOSTOP or EMERGENCY. -/
def State.sendStop (s : State) (t : Nat) (emergency : Bool) : State := s.sendWord t xtStop (if emergency then 2 else 1)

/-! ### Write gate (R303): LAST_CAUSE 1 stale, 2 invalid, 3 off-track, 4 speed, 5 loop fault, stop or lane loss, 6 slot 0 -/

/-- The permit falls and, with the gate open, the guard unit sends GATE close, records its cause and counts it. -/
def State.gateClose (s : State) (t cause : Nat) : State :=
  let g := (s.tp t).gu
  if g.gate then
    ((s.sendWord t xtGate 0).modGu t fun g =>
      { g with permit := false, gate := false, lastCause := cause, validRun := 0, openReq := none,
               cntStale := if cause = 1 then wrapAdd g.cntStale 1 else g.cntStale,
               cntInvalid := if cause = 2 then wrapAdd g.cntInvalid 1 else g.cntInvalid,
               cntOff := if cause = 3 then wrapAdd g.cntOff 1 else g.cntOff,
               cntSpeed := if cause = 4 then wrapAdd g.cntSpeed 1 else g.cntSpeed }).stat (stTp t 6) 1
  else s.modGu t fun g => { g with permit := false, validRun := 0 }

/-- GATE open at a separator's write bit index (R272, R303). -/
def State.gateOpen (s : State) (t wbi : Nat) : State :=
  (s.sendWord t xtGate (mkw [(0, 1), (8, wbi % 2 ^ 48)])).modGu t fun g => { g with gate := true, openReq := none }

/-! ### Drive and solenoids -/

/-- The DRIVE word in force (R294). -/
def State.sendDrive (s : State) (t : Nat) : State := s.sendWord t xtDrive (s.tp t).gu.drive

/-- Replaces one field (0 FINE, 1 COARSE, 2 REEL_A, 3 REEL_B) of the DRIVE word. -/
def setDrive (w : Word) (k v : Nat) : Word :=
  mkw ((List.range 4).map fun j => (16 * j, if j = k then v % 65536 else fld w (16 * j + 15) (16 * j)))

/-- The reel outputs set to 0 and sent (R315), those of slots 2 to 4 with them (R301). -/
def State.reelsOff (s : State) (t : Nat) : State :=
  ((s.each [2, 3, 4] fun s k => s.modSlot t k fun z => { z with out := 0 }).modGu t fun g => { g with drive := setDrive (setDrive g.drive 2 0) 3 0 }).sendDrive t

/-- Every DRIVE output 0 (R323). -/
def State.driveOff (s : State) (t : Nat) : State := (s.modGu t fun g => { g with drive := 0 }).sendDrive t

/-- The SOL word for the solenoid state in force (R322). -/
def State.solWord (s : State) (t : Nat) : Word :=
  let x := (s.tp t).sol
  let c := s.solCfg t
  mkw [(0, b2n (decide (x.energ ≠ 0))), (1, x.energ.toNat), (4, match x.pullin with | some k => 2 ^ k | none => 0),
       (16, c.pullinMa), (32, c.holdMa)]

def State.sendSol (s : State) (t : Nat) : State := s.sendWord t xtSol (s.solWord t)

/-- The commanded high-side current, mA (TP_SOL.I_CMD). -/
def State.solCurrent (s : State) (t : Nat) : Nat :=
  let x := (s.tp t).sol
  ((List.range 3).map fun k =>
    if x.energ.getLsbD k then (if x.pullin = some k then (s.solCfg t).pullinMa else (s.solCfg t).holdMa) else 0).sum

/-- A pull-in begins (R322). -/
def State.solPullin (s : State) (t k : Nat) : State :=
  (s.modSol t fun x => { x with energ := setBit x.energ k true, pullin := some k }).sendSol t

/-- Requests a solenoid: its pull-in runs at once, or waits its turn behind another (R322). -/
def State.solRequest (s : State) (t k : Nat) : State :=
  let x := (s.tp t).sol
  if x.energ.getLsbD k || x.wait.contains k then s
  else if x.pullin.isNone && x.wait.isEmpty then s.solPullin t k
  else s.modSol t fun x => { x with wait := x.wait ++ [k] }

/-- De-energises solenoids in the next SOL word and cancels their waiting requests (R322). When a pull-in is cut short by
it, the next waiting request follows. -/
def State.solRelease (s : State) (t : Nat) (ks : List Nat) : State :=
  let s1 := (s.modSol t fun x =>
    { x with energ := ks.foldl (fun e k => setBit e k false) x.energ, wait := x.wait.filter fun k => !ks.contains k,
             pullin := x.pullin.filter fun k => !ks.contains k }).sendSol t
  match (s1.tp t).sol.pullin, (s1.tp t).sol.wait with
  | none, k :: r => (s1.modSol t fun x => { x with wait := r }).solPullin t k
  | _, _ => s1

/-- Both brakes requested; both brakes applied; both counted as released: SOL_ST set in hold (R322). -/
def State.brakesOff (s : State) (t : Nat) : State := (s.solRequest t 0).solRequest t 1
def State.brakesOn (s : State) (t : Nat) : State := s.solRelease t [0, 1]
def Solenoids.released (x : Solenoids) : Bool :=
  (List.range 2).all fun k => x.energ.getLsbD k && x.solSt.getLsbD k && x.pullin != some k
/-- Both brakes applied (R321 BRAKES). -/
def Solenoids.brakesApplied (x : Solenoids) : Bool := !x.energ.getLsbD 0 && !x.energ.getLsbD 1

/-! ### Management requests (R284) -/

def State.emitMgmt (s : State) (t : Nat) (r : MgmtReq) : State := s.emit (.management t r.op r.tag false r.arg r.data)

/-- A request to the front-end: sent at once while fewer than 4 are outstanding, else when one ends. -/
def State.mgmtRequest (s : State) (t op : Nat) (arg : Word) (data : Bytes) : State :=
  let l := (s.tp t).link
  let r : MgmtReq := { tag := l.nextTag, op := op, arg := arg, data := data, retries := 0, lane := ((s.sendLanes t).head?).getD t }
  let s1 := s.modLink t fun l => { l with mgmt := l.mgmt ++ [r], nextTag := (l.nextTag + 1) % 65536 }
  if l.mgmt.length < 4 then s1.emitMgmt t r else s1

/-- A request is outstanding when it stands among the first four. -/
def Link.outstanding (l : Link) (tag : Nat) : Option MgmtReq := (l.mgmt.take 4).find? fun r => r.tag == tag

/-- A request ends; the next that waited is sent. -/
def State.mgmtEnd (s : State) (t tag : Nat) : State :=
  let l := (s.tp t).link
  let s1 := s.modLink t fun l => { l with mgmt := l.mgmt.filter fun r => r.tag != tag }
  match l.mgmt[4]? with
  | some r => s1.emitMgmt t r
  | none => s1

/-- PARAM_WRITE of every parameter calibrated (Table 13-6, R345). -/
def State.writeParams (s : State) (t : Nat) : State :=
  s.each (s.tp t).ld.params fun s p => s.mgmtRequest t 3 (BitVec.ofNat 64 (p.1 % 65536)) (wordBytes p.2)

/-- CLEAR_AS, sent before a motion that follows an autonomous stop (R317). -/
def State.clearAs (s : State) (t : Nat) : State :=
  if (s.tp t).fe.asDone then (s.sendLink t 5 0 0).modFe t fun x => { x with asDone := false } else s

end Sys2Proof.Machine
end

