-- ==== Sys2Proof/Machine/OpsVolume.lean ====
section
/-! DEFINITION. A volume's records in the buffer: storage and segments (R151, R152), the record stream and its blocks (R169 to
R174), verification and V (R220, R161), post-acknowledgement losses (R133 to R142), anchors (R189) and replay (R166). -/

namespace Sys2Proof.Machine

/-! ### Volumes -/

/-- The online volumes of a transport's cartridge, and of a tenant. -/
def State.volsOf (s : State) (t : Nat) : List (Nat × Volume) := s.vols.filter fun p => p.2.transport == t
def State.volsOfTenant (s : State) (u : Nat) : List (Nat × Volume) := s.vols.filter fun p => p.2.tenant == u

/-- The volume with a slot of the cartridge in transport `t`. -/
def State.volAt (s : State) (t vidx : Nat) : Option (Nat × Volume) := s.vols.find? fun p => p.2.transport == t && p.2.vidx == vidx

/-- Bytes admitted to a volume and not yet verified; P_t of a transport (R153). -/
def Volume.pendingBytes (w : Volume) : Nat := (w.recs.map fun r => r.bytes.length).sum
def State.pendingOf (s : State) (t : Nat) : Nat := ((s.volsOf t).map fun p => p.2.pendingBytes).sum

/-- Where the sealed part of the record stream ends. -/
def Volume.sealedPos (w : Volume) : Nat :=
  match w.blocks.find? fun b => b.stage != .sealed with
  | some b => b.start
  | none => w.opnStart

/-- A tenant's admitted-but-unsealed bytes, Urgent admissions left out (R129). -/
def Volume.unsealed (w : Volume) : Nat :=
  ((w.recs.filter fun r => !r.urgent).map fun r => min r.bytes.length (r.start + r.bytes.length - w.sealedPos)).sum
def State.unsealedOf (s : State) (u : Nat) : Nat := ((s.volsOfTenant u).map fun p => p.2.unsealed).sum
def State.unsealedAll (s : State) : Nat := (s.vols.map fun p => p.2.unsealed).sum

/-! ### Buffer storage (R151, R152) -/

/-- `n` segments more for a volume: they follow its storage. -/
def Volume.addSegs (w : Volume) (n : Nat) : Volume :=
  let first := (w.bufPos + w.spare) / 65536
  { w with spare := w.spare + 65536 * n, segs := w.segs ++ (List.range n).map (first + ·) }

/-- A record is stored at the end of the volume's storage. -/
def Volume.store (w : Volume) (n : Nat) : Volume := { w with bufPos := w.bufPos + n, spare := w.spare - n }

/-- A record has a byte in a segment of the volume's storage. -/
def BufRec.inSeg (r : BufRec) (k : Nat) : Bool := decide (r.place < 65536 * (k + 1)) && decide (65536 * k < r.place + r.bytes.length)

/-- A segment still holds a byte of a record that is not verified. -/
def Volume.needs (w : Volume) (k : Nat) : Bool := w.recs.any fun r => r.inSeg k

/-- A segment that may return (R151): no record needs it, and it is full, or it is the open one and nothing claims it. -/
def Volume.idleSeg (w : Volume) (k : Nat) : Bool :=
  !w.needs k && (decide (65536 * (k + 1) ≤ w.bufPos) || (w.claimed == 0 && decide (65536 * k < w.bufPos)))

/-- A fetched read has pinned a record in a segment of a volume; a pin wins over the release (R120, R127). -/
def State.pinned (s : State) (h k : Nat) : Bool :=
  s.arb.cmds.any fun c => fld c.entry.w0 47 32 == h && c.pins.any fun r => r.inSeg k

/-- Returns the segments of a volume that hold no record still to be verified (R151); verified records stand as long as their segments do. -/
def State.releaseVol (s : State) (h : Nat) : State :=
  match s.vol? h with
  | none => s
  | some w =>
    let gone := w.segs.filter fun k => w.idleSeg k && !s.pinned h k
    let openGone := gone.any fun k => decide (w.bufPos < 65536 * (k + 1))
    let pad := if openGone then roundUp w.bufPos 65536 - w.bufPos else 0
    (s.setVol h { (w.store pad) with
      segs := w.segs.filter fun k => !gone.contains k, done := w.done.filter fun r => !gone.any r.inSeg }).returnSegs w.tenant gone.length

/-- One segment taken without a request (R236): from the urgent reserve, the shared pool, the tenant's floor. -/
def State.takeSeg (s : State) (u : Nat) : Option State :=
  let b := s.bm
  if 0 < b.urgFree then some (s.modBm fun b => { b with urgFree := b.urgFree - 1 })
  else if 0 < b.sharedFree then some (s.modBm fun b => { b with sharedFree := b.sharedFree - 1 })
  else if 0 < Tab.get 0 b.floorFree u then
    some (s.modBm fun b => { b with floorFree := Tab.set u (Tab.get 0 b.floorFree u - 1) b.floorFree })
  else none

/-- Room for `n` bytes beside the claims of granted commands, with one more segment when it is lacking (R236). -/
def State.roomFor (s : State) (h n : Nat) : Option State :=
  match s.vol? h with
  | none => none
  | some w => if n ≤ w.free then some s else (s.takeSeg w.tenant).map fun s1 => (s1.modVol h fun w => w.addSegs 1).stat (stDev 2) 1

/-! ### Record stream and blocks (R169 to R171) -/

/-- The open block is cut with a code of Table 09-1. -/
def Volume.cutBlock (w : Volume) (cut : Nat) : Volume :=
  if w.opn.isEmpty then w
  else
    { w with
      blocks := w.blocks ++ [{ ordinal := w.nextBlock, raw := w.opn, start := w.opnStart, cut := cut, bseq := w.opnSeq,
                               foff := w.opnFoff, isRaw := true, body := [], iv := [], stored := [], placed := 0, dsns := [],
                               stage := .cut }],
      nextBlock := w.nextBlock + 1, opn := [], opnStart := w.opnStart + w.opn.length, opnFoff := none }

/-- Bytes enter the open block in order; it is cut when it holds 65,536 (R170). `hdr` says that the bytes begin with a
record header, and `seq` is BSEQ of a block that begins within them. -/
def Volume.pour : Nat → Nat → Bool → Bytes → Volume → Volume
  | 0, _, _, _, w => w
  | n + 1, seq, hdr, bs, w =>
    if bs.isEmpty then w
    else
      let room := 65536 - w.opn.length
      let w1 := { w with opn := w.opn ++ bs.take room, opnSeq := if w.opn.isEmpty then seq else w.opnSeq,
                         opnFoff := if hdr && w.opnFoff.isNone then some w.opn.length else w.opnFoff }
      Volume.pour n seq false (bs.drop room) (if w1.opn.length = 65536 then w1.cutBlock 0 else w1)

/-- A record or a gap entry enters the buffer and the record stream. -/
def Volume.append (w : Volume) (r : BufRec) (seq : Nat) : Volume :=
  let r1 := { r with start := w.streamPos, place := w.bufPos }
  let w1 := { (w.store r.bytes.length) with recs := w.recs ++ [r1], streamPos := w.streamPos + r.bytes.length }
  Volume.pour (r.bytes.length / 65536 + 2) seq true r.bytes w1

/-! ### Gap entries (R236 to R238) -/

/-- The 64 bytes of a gap entry (Table 11-1). -/
def gapBytes (tag after epoch : Nat) (g : GapOpen) : Bytes :=
  wordsBytes [mkw [(0, 32), (32, tag), (52, 1)], BitVec.ofNat 64 g.time, 0, BitVec.ofNat 64 after,
    mkw [(0, g.records), (40, g.level), (42, g.classes)], BitVec.ofNat 64 g.bytes, BitVec.ofNat 64 g.lastTime, BitVec.ofNat 64 epoch]

/-- The gap entry's bytes enter the stream. -/
def State.placeGap (s : State) (h : Nat) (bs : Bytes) : State :=
  s.modVol h fun w =>
    let r : BufRec :=
      { seq := none, bytes := bs, start := 0, place := 0, tag := fld (wordAt bs 0) 47 32, time := (wordAt bs 8).toNat,
        durable := false, mark := false, gen := (s.tn w.tenant).gen, urgent := true }
    { (w.append r w.nextSeq) with gapAfter := w.gapAfter ++ [(wordAt bs 24).toNat] }

/-- The Pruning log entry of a gap entry of a volume (R238). -/
def State.gapLog (s : State) (h : Nat) (w : Volume) (tag : Nat) (g : GapOpen) : State :=
  (s.modTn w.tenant fun x => { x with pruneLog := x.pruneLog.add 1024 fun n =>
    [BitVec.ofNat 64 n, mkw [(0, h), (16, tag), (32, w.transport), (40, g.level), (42, g.classes)], mkw [(0, g.records)],
      BitVec.ofNat 64 g.bytes, BitVec.ofNat 64 g.time, BitVec.ofNat 64 g.lastTime, BitVec.ofNat 64 (w.nextSeq - 1),
      BitVec.ofNat 64 s.stats.epoch] }).raise (evTen w.tenant 7)

/-- The open gap entries of a volume are discarded; their records are counted in the log (R236). -/
def State.dropGaps (s : State) (h : Nat) : State :=
  match s.vol? h with
  | none => s
  | some w => (s.each w.gaps fun s p => s.gapLog h w p.1 p.2).modVol h fun w => { w with gaps := [] }

/-- A gap entry closes: the Pruning log gains its entry and it enters the stream, or waits for a segment (R236, R238). -/
def State.closeGap (s : State) (h tag : Nat) : State :=
  match s.vol? h with
  | none => s
  | some w =>
    if Tab.has w.gaps tag then
      let g := Tab.get default w.gaps tag
      let after := w.nextSeq - 1
      let bs := gapBytes tag after s.stats.epoch g
      let s1 := s.modVol h fun w => { w with gaps := Tab.erase tag w.gaps }
      let s3 := ((s1.gapLog h w tag g).modVfy w.transport fun f => { f with pruneGaps := wrapAdd f.pruneGaps 1 }).stat (stTp w.transport 15) 1
      match (if w.gapWait.isEmpty then s3.roomFor h 64 else none) with
      | some s4 => s4.placeGap h bs
      | none => s3.modVol h fun w => { w with gapWait := w.gapWait ++ [(tag, bs)] }
    else s

/-- Every open gap entry of a volume closes, in order of opening tag. -/
def State.closeGaps (s : State) (h : Nat) : State :=
  match s.vol? h with
  | none => s
  | some w => s.each w.gaps fun s p => s.closeGap h p.1

/-- The open block is cut by a Flush, a CUT, or for reason 3; open gap entries enter the stream first (R170, R236). -/
def State.cut (s : State) (h code : Nat) : State := (s.closeGaps h).modVol h fun w => w.cutBlock code

/-! ### Verified records and V (R220, R161) -/

/-- A record's every byte lies in verified datasets: it ends in the cut part of the stream and no block that holds a byte of
it remains. -/
def Volume.whole (w : Volume) (r : BufRec) : Bool :=
  decide (r.start + r.bytes.length ≤ w.opnStart) &&
    !w.blocks.any fun b => decide (r.start < b.start + b.raw.length) && decide (b.start < r.start + r.bytes.length)

/-- V: every record numbered at most V is verified, or recorded lost. -/
def Volume.vNow (w : Volume) : Nat :=
  (w.recs.filterMap (·.seq) ++ w.replay.map (·.1)).foldl (fun m k => min m (k - 1)) (w.nextSeq - 1)

/-- The directory's entry of a volume takes the volume's numbers (Table 10-7). -/
def State.syncDir (s : State) (h : Nat) : State :=
  match s.vol? h with
  | none => s
  | some w => s.modDir w.transport fun d => { d with
      vols := Tab.set w.vidx { (Tab.get default d.vols w.vidx) with
        nextSeq := w.nextSeq, v := w.verified, chainN := w.chainN, h := w.chainH, hold := w.hold, retention := w.retention,
        kcv := w.kcv, markSeqs := w.markSeqs, marks := w.marks, pruned := w.pruned, waiting := w.chainWait } d.vols }

/-- Sets V where it rises, with its journal entry. -/
def State.raiseV (s : State) (h : Nat) : State :=
  match s.vol? h with
  | none => s
  | some w =>
    if w.verified < w.vNow then ((s.setVol h { w with verified := w.vNow }).journal h true w.vNow).syncDir h else s

/-- Sets a bit of W4 in the Lost Record entries of a volume's losses: REPLAYED (32) or RELEASED (33) (R166). `which` picks them by LOSS_ID; one
that is released is not set REPLAYED any more. -/
def markLost (uuid : BitVec 128) (which : Nat → Bool) (bitPos : Nat) (l : Log) : Log :=
  { l with entries := l.entries.map fun e =>
      if which (e.getD 7 0).toNat && e.getD 5 0 == BitVec.ofNat 64 uuid.toNat && e.getD 6 0 == BitVec.ofNat 64 (uuid.toNat / 2 ^ 64) &&
          !(bitPos == 32 && bit (e.getD 4 0) 33)
      then e.set 4 (e.getD 4 0 ||| mkw [(bitPos, 1)]) else e }

/-- Replay of a volume is finished once every replayed record is verified: REPLAYED is set, for the loss and for those before it whose replay
it took up (assumption 79), and the event raised. -/
def State.replayCheck (s : State) (h : Nat) : State :=
  match s.vol? h with
  | none => s
  | some w =>
    if w.replayLoss ≠ 0 && w.replay.isEmpty && !w.recs.any (fun r => match r.seq with
        | some k => (s.sachet.ring.any fun e => decide (e.uuid = w.uuid) && e.seq == k && e.held == some w.replayLoss && !e.done)
        | none => false) then
      ((s.modSachet fun x => { x with lostRec := Tab.set w.tenant (markLost w.uuid (fun n => decide (n ≤ w.replayLoss)) 32 (Tab.get {} x.lostRec w.tenant)) x.lostRec }).modVol
        h fun w => { w with replayLoss := 0 }).raise (evTp w.transport 29)
    else s

/-- Records of a volume leave the buffer as verified: their ring entries are reclaimed, V rises, segments return. -/
def State.settleVol (s : State) (h : Nat) : State :=
  match s.vol? h with
  | none => s
  | some w =>
    let gone := (w.recs.filter w.whole).filterMap (·.seq)
    let s1 := (s.setVol h { w with
      recs := w.recs.filter fun r => !w.whole r, done := w.done ++ w.recs.filter fun r => w.whole r && r.seq.isSome }).ringDone fun e =>
      decide (e.uuid = w.uuid) && gone.contains e.seq
    ((s1.raiseV h).releaseVol h).replayCheck h

/-- The blocks of a volume once dataset `dsn` is verified. -/
def Volume.dsnDone (w : Volume) (dsn : Nat) : Volume :=
  { w with blocks := (w.blocks.map fun b => { b with dsns := b.dsns.filter (· != dsn) }).filter fun b =>
      !(b.stage == .sealed && b.placed == b.stored.length && b.dsns.isEmpty) }

/-- A Chain Anchor entry (Table 09-6). -/
def State.anchor (s : State) (h : Nat) (w : Volume) (kind n last : Nat) (hash : Bytes) : State :=
  ((s.modSachet fun x => { x with anchors := Tab.set w.tenant ((Tab.get {} x.anchors w.tenant).add 256 fun c =>
    [BitVec.ofNat 64 c, mkw [(0, h), (16, w.transport), (24, kind)], BitVec.ofNat 64 n, mkw [(0, last)], wordAt hash 0,
      wordAt hash 8, wordAt hash 16, wordAt hash 24]) x.anchors }).sachetWrite (16 + w.tenant) 1 64).raise (evTen w.tenant 6)

/-- One region of a verified dataset: anchors every 256 datasets of the volume (R189), and its records. -/
def State.regionVerified (s : State) (t dsn : Nat) (r : Region) : State :=
  match s.volAt t r.vidx with
  | none => s
  | some (h, w) =>
    let newer := match w.anchored with
      | some (n, _, _) => decide (n < r.chainN)
      | none => true
    let s1 := s.setVol h { w.dsnDone dsn with anchored := if newer then some (r.chainN, r.whole, r.h) else w.anchored }
    let s2 := if r.chainN % 256 = 0 then s1.anchor h w 0 r.chainN r.whole r.h else s1
    s2.settleVol h

/-- A dataset is verified (R220). -/
def State.datasetVerified (s : State) (t : Nat) (d : Dataset) : State :=
  let s1 := (s.each d.regions fun s r => s.regionVerified t d.dsn r).stat (stTp t 1) 1
  let used := (d.regions.map fun r => r.bytes.length + 32 * r.entries.length).sum
  s1.stat (stTp t 5) (if d.dkind = 0 then used else 0)

/-! ### Losses (R133 to R142, R214) -/

/-- Maximal runs of consecutive numbers in an ascending list, as (first, last). -/
def runs : List Nat → List (Nat × Nat)
  | [] => []
  | k :: r => match runs r with
    | (a, b) :: q => if a = k + 1 then (k, b) :: q else (k, k) :: (a, b) :: q
    | [] => [(k, k)]

/-- Runs of consecutive numbers admitted under one GEN, of an ascending list of (number, GEN), as (first, last, GEN). -/
def genRuns : List (Nat × Nat) → List (Nat × Nat × Nat)
  | [] => []
  | (k, g) :: r => match genRuns r with
    | (a, b, g') :: q => if a = k + 1 && g == g' then (k, b, g) :: q else (k, k, g) :: (a, b, g') :: q
    | [] => [(k, k, g)]

/-- A lost range is added to a cartridge's directory and committed at once; without room the cartridge is locked (R214). -/
def State.addLost (s : State) (t : Nat) (r : LostRange) : State :=
  (s.modDir t fun d => if d.lost.length < 6144 then { d with lost := d.lost ++ [r] } else { d with locked := true }).commitDir t

/-- An entry, but for its COUNT, joins the Deferred Error or Orphan log: a full log widens the newest entry of the volume (R139). -/
def Log.addEntry (l : Log) (x : List Word) : Log :=
  if l.entries.length < 64 then l.add 64 fun n => BitVec.ofNat 64 n :: x.drop 1
  else
    match l.entries.reverse.findIdx? fun e => e.getD 5 0 == x.getD 5 0 && e.getD 6 0 == x.getD 6 0 with
    | none => l.add 64 fun n => BitVec.ofNat 64 n :: x.drop 1
    | some k =>
      let i := l.entries.length - 1 - k
      { l with lost := l.lost + 1, entries := l.entries.modify i fun e =>
          ((((e.set 1 (e.getD 1 0 ||| mkw [(32, 1)])).set 2 (BitVec.ofNat 64 (min (e.getD 2 0).toNat (x.getD 2 0).toNat))).set 3
            (BitVec.ofNat 64 (max (e.getD 3 0).toNat (x.getD 3 0).toNat))).set 4
              (mkw [(0, (fld (e.getD 4 0) 31 0 + fld (x.getD 4 0) 31 0) % 2 ^ 32)])) }

/-- A loss entry (Table 07-4). -/
def Log.addLoss (l : Log) (h t cause first last gen : Nat) (uuid : BitVec 128) : Log :=
  l.addEntry [0, mkw [(0, h), (16, t), (24, cause)], BitVec.ofNat 64 first, BitVec.ofNat 64 last, mkw [(0, last + 1 - first)],
    BitVec.ofNat 64 uuid.toNat, BitVec.ofNat 64 (uuid.toNat / 2 ^ 64), mkw [(0, gen)]]

/-- Records of a GEN are reported to the Orphan log: they were admitted before the tenant's last reset, or it is in one (R142). -/
def State.orphaned (s : State) (u gen : Nat) : Bool := decide (gen < (s.tn u).gen) || (s.tn u).inFlr

/-- One contiguous run of lost records of a volume is reported (R134, R136, R142): to the Orphan log when they were admitted
before the tenant's last reset or during one, else by the tenant's policy. The lost numbers stand in SEQ_FIRST and SEQ_LAST (assumption 80). -/
def State.reportLoss (s : State) (h : Nat) (w : Volume) (cause gen first last : Nat) : State :=
  let u := w.tenant
  if s.orphaned u gen then
    ((s.modSachet fun x => { x with orphan := Tab.set u ((Tab.get {} x.orphan u).addLoss h w.transport cause first last gen w.uuid) x.orphan }).raise
      (evTen u 5))
  else if (s.tenCfg u).freeze then
    s.logError u Status.writeLost { vol := h, detail := BitVec.ofNat 64 w.transport, first := first, last := last }
  else
    ((s.modTn u fun x => { x with defLog := x.defLog.addLoss h w.transport cause first last gen w.uuid }).modVol h fun x =>
      { x with report := some (x.report.getD (first, last)) }).raise (evTen u 2)

/-- A Flush that waits for a lost record carries the report (R146): the first one, with Deferred Write Error, which disarms it. Under Freeze,
and where the loss went to the Orphan log, it completes with Records Lost, since Write Lost is an Error Log entry only (Table 07-2):
DESIGN CHOICE, as that the first of several carries a report (assumption 80). `rs` are the lost runs, ascending, with their GEN. -/
def State.flushCarries (s : State) (h : Nat) (w : Volume) (rs : List (Nat × Nat × Nat)) : State :=
  let reply : Nat → Nat → Reply := fun a b => { result := mkw [(0, a % 2 ^ 48)], detail := BitVec.ofNat 64 w.transport, first := a, last := b }
  s.each (s.cmdsWhere fun c => c.entry.vol == h) fun s c =>
    match c.stage with
    | .flushing k =>
      match rs.filter fun r => decide (r.1 ≤ k) with
      | [] => s
      | r :: q =>
        match (r :: q).find? fun x => !s.orphaned w.tenant x.2.2 with
        | none => s.complete c Status.recordsLost (reply r.1 r.2.1)
        | some x =>
          if (s.tenCfg w.tenant).freeze then s.complete c Status.recordsLost (reply x.1 x.2.1)
          else match (s.vol? h).bind (·.report) with
            | some (a, b) => (s.modVol h fun x => { x with report := none }).complete c Status.deferredWriteError (reply a b)
            | none => s
    | _ => s

/-- The loss of the records of a volume that satisfy a test, and with `rep` of those still to be replayed: recorded in the directory,
reported, and gone from the buffer. Their durable-ring entries are reclaimed where the cartridge is unwritable (R159, R224; assumption 81). -/
def State.loseRecords (s : State) (h cause : Nat) (rep : Bool) (p : BufRec → Bool) : State :=
  match s.vol? h with
  | none => s
  | some w =>
    let held := w.recs.filterMap fun r => if p r then r.seq.map fun k => (k, r.gen) else none
    let gone := (held ++ (if rep then w.replay.map fun r => (r.1, (s.tn w.tenant).gen) else [])).mergeSort fun a b => a.1 ≤ b.1
    let s1 := s.each (runs (gone.map (·.1))) fun s r => s.addLost w.transport
      { vidx := w.vidx, power := false, exFirst := 0, first := r.1, last := r.2, exLast := 0 }
    let s2 := s1.modVol h fun x => { x with
      recs := x.recs.filter fun r => !(p r && r.seq.isSome), replay := if rep then [] else x.replay }
    let s3 := if cause = 2 then s2.ringDone fun e => decide (e.uuid = w.uuid) && (gone.map (·.1)).contains e.seq else s2
    let rs := genRuns gone
    let s4 := (s3.each rs fun s r => s.reportLoss h w cause r.2.2 r.1 r.2.1).flushCarries h w rs
    ((s4.raiseV h).releaseVol h).replayCheck h

/-- The unplaced part of a volume's stream is given up: the open block and every block of which no byte stands in a dataset. A gap entry
with a byte there enters the stream again, so that each pruned record stays counted in one (R235). -/
def Volume.dropStream (w : Volume) : Volume :=
  let upTo := match w.blocks.find? fun b => b.placed == 0 with
    | some b => b.start
    | none => w.opnStart
  let again := w.recs.filter fun r => r.seq.isNone && decide (upTo < r.start + r.bytes.length)
  { w with blocks := w.blocks.filter fun b => decide (0 < b.placed), opn := [], opnStart := w.streamPos, opnFoff := none
           recs := w.recs.filter fun r => !(r.seq.isNone && decide (upTo < r.start + r.bytes.length))
           gapWait := again.map (fun r => (r.tag, r.bytes)) ++ w.gapWait
           gapAfter := w.gapAfter.diff (again.map fun r => (wordAt r.bytes 24).toNat) }

/-! ### Taking a volume offline -/

/-- Zeroises a volume's key slot (R184). -/
def State.zeroise (s : State) (h : Nat) : State := s.modVol h fun w => { w with key := none, clearing := none }

/-- A volume leaves the online volumes; the segments it still holds return, those of grants among them. -/
def State.dropVol (s : State) (h : Nat) : State :=
  match s.vol? h with
  | none => s
  | some w =>
    let freeCmd : Cmd → Cmd := fun c => if c.bound && fld c.entry.w0 47 32 == h then { c with segs := (0, 0), bound := false } else c
    let freeQp : QueuePair → QueuePair := fun q =>
      if q.bound && fld (q.ring.headD default).w0 47 32 == h then { q with grant := some (0, 0), bound := false } else q
    let s1 := s.modArb fun a => { a with cmds := a.cmds.map freeCmd }
    let s2 := s1.modTenants fun m => m.map fun p => (p.1, { p.2 with qps := p.2.qps.map fun q => (q.1, freeQp q.2) })
    (s2.modVols (Tab.erase h)).returnSegs w.tenant w.segs.length

end Sys2Proof.Machine
end

