-- ==== Sys2Proof/Machine/OpsWriter.lean ====
section
/-! DEFINITION. The AF-1 writer: dataset numbers, packing of stored blocks into datasets and groups (R181, R182, R198, R199), the
order of wraps (R111, R386), row verification, rewrites, retries and abandoned wraps (R209, R219 to R224), and writing that
is cut short (R211, R222). -/

namespace Sys2Proof.Machine

def State.fmt (s : State) (t : Nat) : Format := (s.tp t).fmt
def State.dir (s : State) (t : Nat) : Directory := (s.tp t).ld.dir

/-! ### Track channels (R248, R250) -/

/-- The channels that are Out or Out Held, as a mask (TP_CH_SVC.OUT); those held. -/
def State.outMask (s : State) (t : Nat) : Nat :=
  ((List.range 32).map fun c => if (s.chan t c).state == .inService then 0 else 2 ^ c).sum
def State.heldMask (s : State) (t : Nat) : Nat :=
  ((List.range 32).map fun c => if (s.chan t c).state == .outHeld then 2 ^ c else 0).sum
/-- Channels out or about to leave at the next separator. -/
def State.outCount (s : State) (t : Nat) : Nat :=
  ((List.range 32).filter fun c => (s.chan t c).state != .inService || (s.chan t c).leaving.isSome).length
/-- The active-track mask for the next separator. -/
def State.trackMask (s : State) (t : Nat) : BitVec 32 := ~~~BitVec.ofNat 32 (s.outMask t)

/-! ### Dataset numbers (R183, R201) -/

/-- Takes the next DSN; a reservation of 4,096 is committed ahead of use. -/
def State.takeDsn (s : State) (t : Nat) : Nat × State :=
  let f := s.fmt t
  let s1 := s.modFmt t fun f => { f with nextDsn := f.nextDsn + 1 }
  if f.dsnLimit < f.nextDsn + 1 then
    (f.nextDsn, (((s1.modFmt t fun f => { f with dsnLimit := f.dsnLimit + 4096 }).modDir t fun d =>
      { d with dsnLimit := f.dsnLimit + 4096 }).commitDir t).modDev fun d => { d with dsnResv := d.dsnResv + 1 })
  else (f.nextDsn, s1)

/-! ### Wraps and wrap groups (R110, R111, R192, R194, R386) -/

/-- Channel bits of the usable length, and where data begins on a wrap. -/
def wrapLen : Nat := 25000000000
def wrapStart (wrap : Nat) : Nat := if wrap = 0 then 8 * 233472 else 0
def firstInterval (wrap : Nat) : Nat := if wrap = 0 then 8 else 0

/-- A volume's data on a wrap group is live (R110). -/
def liveIn (d : Directory) (g : Nat) (vidx : Nat) : Bool :=
  let v : DirVolume := Tab.get default d.vols vidx
  let es := d.extents.filter fun e => e.vidx == vidx && e.wrap / 8 == g
  !es.isEmpty && v.used && !v.deleted &&
    (v.hold || v.retention == 0 || decide (d.time ≤ (es.foldl (fun m e => max m e.newest) 0) + v.retention * 86400000000))

/-- A wrap group holds live data. -/
def liveGroup (d : Directory) (g : Nat) : Bool := (List.range 64).any fun v => liveIn d g v

/-- The wrap after `w` in the order of writing, with whether it begins a new use of its group: the next of the group, or that of the
lowest group that is free. -/
def nextWrap (free : Nat → Bool) (w : Nat) : Option (Nat × Bool) :=
  if w % 8 < 7 then some (w + 1, false) else ((List.range 26).find? free).map fun g => (8 * g, true)

/-- Data of an online volume is packed for a wrap group and does not stand in it yet. -/
def State.pendingLive (s : State) (t g : Nat) : Bool :=
  let f := s.fmt t
  let live : List Region → Bool := fun rs => rs.any fun r => (s.volAt t r.vidx).isSome
  (f.queue.any fun d => d.dkind == 0 && d.wrap / 8 == g && live d.regions) ||
    (f.packWrap / 8 == g && (match f.fill with
      | some x => live x.regions
      | none => false))

/-- A wrap group holds no live data, written or packed for it (R111). -/
def State.groupFree (s : State) (t g : Nat) : Bool := !liveGroup (s.dir t) g && !s.pendingLive t g

/-- The reuse of a wrap group is recorded: its extents and datasets are given up (R111, R214). -/
def State.reuseGroup (s : State) (t g : Nat) : State :=
  (s.modDir t fun d =>
    let w : WrapGroup := Tab.get default d.groups g
    { d with groups := Tab.set g { w with reuseDsn := 0, reuses := if w.reuseDsn = 0 then w.reuses else w.reuses + 1 } d.groups,
             extents := d.extents.filter fun e => e.wrap / 8 != g }).modLd t fun l =>
    { l with cart := l.cart.map fun c => { c with sets := c.sets.filter (fun x => x.wrap / 8 != g), rwOnly := c.rwOnly.filter fun p => p.1 / 8 != g } }

/-- With every group live, writing to the cartridge stops (R386). -/
def State.halt (s : State) (t : Nat) : State :=
  if (s.fmt t).halted then s else (s.modFmt t fun f => { f with halted := true }).raise (evTp t 8)

/-- Packing goes on at the next wrap. -/
def State.packOn (s : State) (t : Nat) : State :=
  match nextWrap (s.groupFree t) (s.fmt t).packWrap with
  | some (w, _) => s.modFmt t fun f => { f with packWrap := w, halted := false }
  | none => s.halt t

/-- Packing has reached a wrap group that the append point has not begun. -/
def Format.ahead (f : Format) : Bool := f.packWrap / 8 != f.wrap / 8 || decide (f.packWrap < f.wrap)

/-- A group that packing has reached and that came to hold live data before the append point did is left as it is (R111: a hold protects
every group whose overwriting has not begun): what was packed for it goes to the lowest free one. -/
def State.retarget (s : State) (t : Nat) : State :=
  let f := s.fmt t
  let g := f.packWrap / 8
  if f.ahead && liveGroup (s.dir t) g then
    match (List.range 26).find? (s.groupFree t) with
    | some n => s.modFmt t fun f => { f with
        packWrap := 8 * n + f.packWrap % 8, halted := false
        queue := f.queue.map fun d => if d.wrap / 8 == g && d.wrap != f.wrap then { d with wrap := 8 * n + d.wrap % 8 } else d
        group := f.group.map fun d => if d.wrap / 8 == g && d.wrap != f.wrap then { d with wrap := 8 * n + d.wrap % 8 } else d }
    | none => s.halt t
  else s

/-- Where the next dataset packed will begin at the latest on its wrap. -/
def Format.packBits (f : Format) : Nat :=
  (if f.packWrap = f.wrap then f.wrapBits else wrapStart f.packWrap) +
    (f.queue.filter fun d => d.wrap == f.packWrap).length * maxInterval

/-- R199: the next data interval at maximum size would leave room for fewer than four maximum intervals. -/
def Format.wrapFull (f : Format) : Bool := decide (wrapLen < f.packBits + 5 * maxInterval)

/-! ### Groups (R199) -/

/-- Closes the open group: its two parity datasets take their numbers and are queued. -/
def State.closeGroup (s : State) (t : Nat) : State :=
  let g := (s.fmt t).group
  match g with
  | [] => s
  | d0 :: _ =>
    let par := groupParity g
    let (n1, s1) := s.takeDsn t
    let (n2, s2) := s1.takeDsn t
    let mk : Nat → Nat → Bytes → Dataset := fun n pos pl =>
      { dsn := n, dkind := 1, wrap := d0.wrap, interval := 0, tmask := 0, gpos := pos, gdsn0 := d0.dsn, part := false,
        rewrite := false, origDsn := 0, time := 0, regions := [], parity := pl }
    s2.modFmt t fun f => { f with group := [], queue := f.queue ++ [mk n1 14 par.1, mk n2 15 par.2] }

/-- A group closes at 14 datasets or at the wrap's end, where packing moves to the next wrap (R199). -/
def State.groupCheck (s : State) (t : Nat) : State :=
  let f := s.fmt t
  let s1 := if f.group.length = 14 || f.wrapFull then s.closeGroup t else s
  if f.wrapFull then s1.packOn t else s1

/-- A dataset's region in the extent of its volume and wrap (Table 10-7). -/
def addExtent (r : Region) (wrap dsn : Nat) (es : List Extent) : List Extent :=
  if es.any fun e => e.vidx == r.vidx && e.wrap == wrap then
    es.map fun e => if e.vidx == r.vidx && e.wrap == wrap then
      { e with firstDsn := min e.firstDsn dsn, firstSeq := min e.firstSeq r.firstSeq, lastSeq := max e.lastSeq r.lastSeq, newest := max e.newest r.newest } else e
  else es ++ [{ vidx := r.vidx, wrap := wrap, firstDsn := dsn, firstSeq := r.firstSeq, lastSeq := r.lastSeq, newest := r.newest }]

/-- The directory with a dataset that is written: its extents, its group's lowest DSN, and the highest DSN (Tables 10-6 and 10-7). -/
def dirDataset (d : Dataset) (x : Directory) : Directory :=
  let g := d.wrap / 8
  let w : WrapGroup := Tab.get default x.groups g
  { x with extents := (d.regions.filter fun r => !r.bytes.isEmpty).foldl (fun es r => addExtent r d.wrap d.dsn es) x.extents,
           groups := Tab.set g { w with reuseDsn := if w.reuseDsn = 0 then d.dsn else w.reuseDsn } x.groups,
           eodDsn := max x.eodDsn d.dsn }

/-! ### Packing (R181, R182, R185, R186, R198) -/

/-- Bytes that the user area holds with a region of a volume in it: block bytes, and the waiting chain entries of every region's volume. -/
def State.userUsed (s : State) (t : Nat) (f : Fill) (vidx : Nat) : Nat :=
  let ids := (f.regions.map (·.vidx)).filter (· != vidx) ++ [vidx]
  let ents := (ids.map fun k => match s.volAt t k with
    | some (_, w) => 32 * min 16 w.chainWait.length
    | none => 0).sum
  (f.regions.map fun r => r.bytes.length).sum + ents

/-- Bytes still free in the user area for a volume. -/
def State.userRoom (s : State) (t : Nat) (f : Fill) (vidx : Nat) : Nat := 652800 - s.userUsed t f vidx

/-- The dataset holds a region of a volume. -/
def Fill.has (f : Fill) (vidx : Nat) : Bool := f.regions.any fun r => r.vidx == vidx

/-- An empty region for a volume. -/
def Volume.newRegion (w : Volume) : Region :=
  { vidx := w.vidx, uuid := w.uuid, tenant := w.tenant, encrypt := w.encrypt, strict := w.strict, hold := w.hold,
    retention := w.retention, off := 0, bytes := [], entries := [], fblk := none, chainN := 0, h := [], firstSeq := 0,
    lastSeq := 0, newest := 0, whole := 0 }

/-- The highest number whose record, with all lower ones, ends in the placed part of the stream. -/
def Volume.wholeSeq (w : Volume) : Nat :=
  let pos := match w.blocks.find? fun b => b.stage != .sealed || decide (b.placed < b.stored.length) with
    | some b => b.start
    | none => w.opnStart
  ((w.recs.filterMap fun r => if pos < r.start + r.bytes.length then r.seq else none) ++ w.replay.map (·.1)).foldl (fun m k => min m (k - 1))
    (w.nextSeq - 1)

/-- One region of the dataset that closes, at offset `off`: it takes the volume's waiting entries and the next chain value. -/
def State.closeRegion (s : State) (t off : Nat) (r : Region) : Region × State :=
  match s.volAt t r.vidx with
  | none => ({ r with off := off }, s)
  | some (h, w) =>
    let n := min 16 w.chainWait.length
    let es := w.chainWait.take n
    let dn := sha256 (r.bytes ++ es.flatMap chainBytes)
    let hn := sha256 (w.chainH ++ dn)
    let r1 := { r with off := off, entries := es, fblk := r.fblk.map (off + ·), chainN := w.chainN + 1, h := hn,
                       hold := w.hold, retention := w.retention, whole := w.wholeSeq }
    let rest := w.chainWait.drop n
    (r1, s.setVol h { w with chainWait := rest, chainOver := w.chainOver && decide (16 ≤ rest.length), chainN := w.chainN + 1, chainH := hn })

/-- Closes the dataset being filled (R198). -/
def State.closeDataset (s : State) (t : Nat) : State :=
  match (s.fmt t).fill with
  | none => s
  | some f =>
    let (rs, used, s1) := f.regions.foldl (fun (a : List Region × Nat × State) r =>
      let (r1, s') := a.2.2.closeRegion t a.2.1 r
      (a.1 ++ [r1], a.2.1 + (regionAll r1).length, s')) ([], 0, s)
    let wrap := (s.fmt t).packWrap
    let d : Dataset :=
      { dsn := f.dsn, dkind := 0, wrap := wrap, interval := 0, tmask := 0, gpos := f.gpos,
        gdsn0 := match (s.fmt t).group with
          | d0 :: _ => d0.dsn
          | [] => f.dsn
        part := decide (used < 652800), rewrite := false, origDsn := 0, time := (s.dir t).time, regions := rs, parity := [] }
    let s2 := s1.modFmt t fun x => { x with fill := none, group := x.group ++ [d], queue := x.queue ++ [d] }
    (s2.each rs fun s r => match s.volAt t r.vidx with
      | some (h, _) => s.syncDir h
      | none => s).groupCheck t

/-- Datasets in the transport's packer reserve: from packing until verify (Table 08-2). -/
def Format.packed (f : Format) : Nat := f.queue.length + f.sets.length + b2n f.fill.isSome

/-- Segments of a packer reserve, and those that an encoded dataset takes: 3,328 row units of 256 bytes (R196, R202). -/
def packerSegs : Nat := 512
def setSegs : Nat := 13

/-- Free segments of the packer reserve (R150, R220). -/
def Format.packerFree (f : Format) : Nat := packerSegs - setSegs * f.packed

/-- The reserve takes one more data dataset and leaves its group's two parity datasets their place. -/
def Format.packerRoom (f : Format) : Bool := decide (3 * setSegs ≤ f.packerFree)

/-- Datasets may still be packed for the cartridge (R386, R214, R224). -/
def State.takesSets (s : State) (t : Nat) : Bool := !(s.fmt t).halted && !(s.dir t).locked && !(s.tp t).vfy.unwritable

/-- A dataset being filled with room for a volume: the open one, or a new one; none while writing to the cartridge has stopped, while the
append point comes to a stop (R199) or while the packer reserve is in use. `force` looks past the last two. -/
def State.fillFor (s : State) (t vidx : Nat) (force : Bool) : Option State :=
  let s1 := match (s.fmt t).fill with
    | some f => if 0 < s.userRoom t f vidx && (f.has vidx || f.regions.length < 6) then s else s.closeDataset t
    | none => s
  match (s1.fmt t).fill with
  | some _ => some s1
  | none =>
    if !s1.takesSets t || !(force || (!(s1.fmt t).closing && (s1.fmt t).packerRoom)) then none
    else
      let (n, s2) := s1.takeDsn t
      some (s2.modFmt t fun x => { x with fill := some { dsn := n, gpos := x.group.length, regions := [], index := [] } })

/-- Puts stored-block bytes into a volume's region. -/
def Fill.put (f : Fill) (w : Volume) (first : Bool) (lo hi newest : Nat) (bs : Bytes) : Fill :=
  let f1 := if f.has w.vidx then f else { f with regions := f.regions ++ [w.newRegion] }
  { f1 with
    regions := f1.regions.map fun r => if r.vidx == w.vidx then
      { r with bytes := r.bytes ++ bs, fblk := if first && r.fblk.isNone then some r.bytes.length else r.fblk,
               firstSeq := if r.firstSeq = 0 then lo else min r.firstSeq lo, lastSeq := max r.lastSeq hi,
               newest := max r.newest newest } else r
    index := if first then Tab.set w.vidx (Tab.get 0 f1.index w.vidx + 1) f1.index else f1.index }

/-- Changes a block of a volume. -/
def Volume.modBlock (w : Volume) (ord : Nat) (f : Block → Block) : Volume :=
  { w with blocks := w.blocks.map fun b => if b.ordinal == ord then f b else b }

/-- Places the rest of a sealed block's bytes, a fragment in each dataset it crosses (R173, R198). The fuel is a dataset
each. -/
def State.placeBlock (force : Bool) : Nat → Nat → Nat → State → State
  | 0, _, _, s => s
  | n + 1, h, ord, s =>
    match s.vol? h with
    | none => s
    | some w =>
      match w.blocks.find? fun b => b.ordinal == ord with
      | none => s
      | some b =>
        if b.stored.length ≤ b.placed then s
        else
          match s.fillFor w.transport w.vidx force with
          | none => s
          | some s1 =>
            match (s1.fmt w.transport).fill with
            | none => s1
            | some f =>
              let k := min (s1.userRoom w.transport f w.vidx) (b.stored.length - b.placed)
              let touch := w.recs.filter fun r => decide (r.start < b.start + b.raw.length) && decide (b.start < r.start + r.bytes.length)
              let seqs := touch.filterMap (·.seq)
              let lo := seqs.foldl min (seqs.headD 0)
              let f1 := f.put w (b.placed == 0) lo (seqs.foldl max 0) (touch.foldl (fun m r => max m r.time) 0) (slice b.stored b.placed k)
              let s2 := (s1.modFmt w.transport fun x => { x with fill := some f1 }).modVol h fun w =>
                w.modBlock ord fun b => { b with placed := b.placed + k, dsns := b.dsns ++ [f.dsn] }
              let s3 := if w.chainOver then s2.closeDataset w.transport else s2
              State.placeBlock force n h ord s3

/-- A sealed block is not wholly placed. -/
def Volume.rest (w : Volume) : List Block := w.blocks.filter fun b => b.stage == .sealed && decide (b.placed < b.stored.length)

/-- The sealed blocks of a volume that wait for a dataset are placed first, in their order (R8). -/
def State.placeRest (s : State) (h : Nat) : State :=
  match s.vol? h with
  | none => s
  | some w => s.each w.rest fun s b => State.placeBlock false 4 h b.ordinal s

/-! ### Sealing (R180 to R182) -/

/-- The IV: handle, DSN, index (R182). -/
def blockIv (h dsn idx : Nat) : Bytes := leBytes 2 h ++ leBytes 6 dsn ++ leBytes 4 idx

/-- A block is sealed under the DSN and the index of its first byte (R180 to R182). -/
def State.sealBlock (s : State) (h : Nat) (w : Volume) (b : Block) (dsn idx : Nat) : State :=
  let iv := if w.encrypt then blockIv h dsn idx else List.replicate 12 0
  let hd := blockHeader b.isRaw w.encrypt b.cut b.body.length b.raw.length (crc32c b.raw) b.bseq (b.foff.getD 0xFFFFFFFF) iv
  let (body, tag) := match w.key with
    | some k => if w.encrypt then gcmSeal k iv hd b.body else (b.body, [])
    | none => (b.body, [])
  (s.modVol h fun w => w.modBlock b.ordinal fun b => { b with iv := iv, stored := storedBlock hd body tag, stage := .sealed }).stat (stDev 9)
    (b2n w.encrypt)

/-- Seals the volume's first compressed block and places it, once every block before it is placed; nothing where it has none, its key is
lacking (R184) or no dataset takes it. `force` is the sealing that must come before a key is zeroised (R184): where no dataset takes the
block, a DSN is taken for its IV alone, and its bytes are placed later (DESIGN CHOICE, assumption 70). -/
def State.sealNext (s : State) (h : Nat) (force : Bool) : State :=
  let s0 := s.placeRest h
  match s0.vol? h with
  | none => s0
  | some w =>
    match w.blocks.find? fun b => b.stage != .sealed with
    | none => s0
    | some b =>
      if b.stage != .compressed || (w.encrypt && w.key.isNone) then s0
      else
        match (if w.rest.isEmpty then s0.fillFor w.transport w.vidx force else none) with
        | none => if force then (s0.takeDsn w.transport).2.sealBlock h w b (s0.takeDsn w.transport).1 0 else s0
        | some s1 =>
          match (s1.fmt w.transport).fill with
          | none => s1
          | some f => State.placeBlock force 4 h b.ordinal (s1.sealBlock h w b f.dsn (Tab.get 0 f.index w.vidx))

/-- Blocks cut before a block that still wait for a compressor. -/
def State.cutBefore (s : State) (b : Block) : Nat :=
  match b.cutNo with
  | none => 0
  | some n => (s.vols.map fun p => (p.2.blocks.filter fun x => x.stage == .cut && (match x.cutNo with
      | some m => decide (m < n)
      | none => false)).length).sum

/-- The blocks of a volume that were cut take the next numbers in the order of cutting (R172). -/
def State.numberCuts (s : State) (h : Nat) : State :=
  match s.vol? h with
  | none => s
  | some w =>
    s.each (w.blocks.filter fun b => b.cutNo.isNone) fun s b =>
      (s.modVol h fun w => w.modBlock b.ordinal fun b => { b with cutNo := some s.bm.nextCut }).modBm fun m => { m with nextCut := m.nextCut + 1 }

/-- Compresses the volume's first cut block into the given body where that is a legal encoding short enough, else keeps it
raw (R174). The four compressors take cut blocks in cut order (R172): four blocks cut earlier keep it waiting, unless `force` lets a reset's
blocks go first. -/
def State.compressNext (s : State) (h : Nat) (body : Option Bytes) (force : Bool) : State :=
  match s.vol? h with
  | none => s
  | some w =>
    match w.blocks.find? fun b => b.stage == .cut with
    | none => s
    | some b =>
      if !force && 4 ≤ s.cutBefore b then s
      else
        let pick := match body with
          | some x => if x.length + 8 ≤ b.raw.length && oaldoLegal b.raw x then some x else none
          | none => none
        let out := pick.getD b.raw
        let s1 := s.modVol h fun w => w.modBlock b.ordinal fun b =>
          { b with isRaw := pick.isNone, body := out, stage := .compressed }
        ((((s1.stat (stDev 5) 1).stat (stDev 6) (b2n pick.isNone)).stat (stDev 7) b.raw.length).stat (stDev 8) out.length)

/-- Every admitted record of a volume is cut, compressed and sealed (R114, R141, R184). The blocks stay raw: the formatter's
choice among encodings is free (R176). -/
def State.sealAll (s : State) (h : Nat) : State :=
  let s1 := s.cut h 3
  match s1.vol? h with
  | none => s1
  | some w => s1.each (List.range w.blocks.length) fun s _ => (s.compressNext h none true).sealNext h true

/-! ### Chain entries (R186) -/

/-- A region of a volume in the dataset being filled, where it has room for one more and for the entries that wait. -/
def State.openRegion (s : State) (t : Nat) (w : Volume) : State :=
  match (s.fmt t).fill with
  | none => s
  | some f =>
    if f.has w.vidx || 6 ≤ f.regions.length || 652800 < s.userUsed t f w.vidx then s
    else s.modFmt t fun x => { x with fill := some { f with regions := f.regions ++ [w.newRegion] } }

/-- An entry joins those that wait. -/
def Volume.addChain (w : Volume) (e : ChainEntry) : Volume :=
  { w with chainWait := w.chainWait ++ [e], chainOver := w.chainOver || decide (16 ≤ w.chainWait.length) }

/-- The last waiting Tamper entry of the same GPIO, from the front. -/
def Volume.mergeAt (w : Volume) (e : ChainEntry) : Option Nat :=
  if e.kind = 1 then (w.chainWait.reverse.findIdx? fun x => x.kind == 1 && x.gpio == e.gpio).map fun k => w.chainWait.length - 1 - k else none

/-- A chain entry raised for a volume. A dataset that has no room left for it closes first, as one whose user area is full (assumption 48). -/
def State.raiseChain (s : State) (h : Nat) (e : ChainEntry) : State :=
  match s.vol? h with
  | none => s
  | some w =>
    let t := w.transport
    let add : State → State := fun s => s.modVol h fun w => w.addChain e
    let s1 := if w.chainWait.length < 16 then
        match (s.fmt t).fill with
        | some f => if f.has w.vidx && decide (652800 < s.userUsed t f w.vidx + 32) then add (s.closeDataset t) else add s
        | none => add s
      else match w.mergeAt e with
        | some k => s.modVol h fun w => { w with chainWait := w.chainWait.modify k fun x => { x with count := min 65535 (x.count + 1) } }
        | none => if (s.fmt t).fill.isSome then add ((s.openRegion t w).closeDataset t) else add s
    s1.syncDir h

/-- A Flush carries the waiting entries of a volume whose stream stands in datasets: a dataset with a region of it closes (R186). -/
def State.flushChain (s : State) (h : Nat) : State :=
  match s.vol? h with
  | none => s
  | some w =>
    if w.chainWait.isEmpty then s
    else match s.fillFor w.transport w.vidx false with
      | none => s
      | some s1 => (s1.openRegion w.transport w).closeDataset w.transport

/-! ### Verification of rows (R219 to R224) -/

/-- Symbols corrected in a row (R245), and whether the copy is accepted under a threshold (R219). -/
def correctedOf : RowResult → Nat
  | .decoded c | .syncMiss c | .headerCrc c | .headerOther c | .c1Failed c => c
def acceptedOf (v : Nat) : RowResult → Bool
  | .decoded c => decide (c ≤ v)
  | _ => false

def State.modDs (s : State) (t dsn : Nat) (f : DsState → DsState) : State :=
  s.modFmt t fun x => { x with sets := x.sets.map fun d => if d.set.dsn == dsn then f d else d }
def State.ds? (s : State) (t dsn : Nat) : Option DsState := (s.fmt t).sets.find? fun d => d.set.dsn == dsn

/-- The blocks of a volume follow a dataset to its new number. -/
def Volume.renumber (w : Volume) (old new : Nat) : Volume :=
  { w with blocks := w.blocks.map fun b => { b with dsns := b.dsns.map fun d => if d = old then new else d } }

/-- A dataset is written again under a new number in the open group (R223 step 4); `again` is false for one that has no copy on
tape yet and only follows in order. -/
def State.writeAgain (s : State) (t : Nat) (d : Dataset) (again : Bool) : State :=
  let (n, s1) := s.takeDsn t
  let f := s1.fmt t
  let d1 := { d with dsn := n, wrap := f.packWrap, interval := 0, gpos := f.group.length, rewrite := again || d.rewrite,
                     origDsn := if again then d.dsn else d.origDsn,
                     gdsn0 := match f.group with
                       | d0 :: _ => d0.dsn
                       | [] => n }
  let s2 := s1.modFmt t fun x => { x with group := x.group ++ [d1], queue := x.queue ++ [d1] }
  (s2.each d.regions fun s r => match s.volAt t r.vidx with
    | some (h, w) => s.setVol h (w.renumber d.dsn n)
    | none => s).groupCheck t

/-- Runs of old DSNs that no other dataset of the volume interrupts (R223 step 5): `all` are the volume's DSNs ascending. -/
def dsnRuns (old : List Nat) : List Nat → List (Nat × Nat)
  | [] => []
  | d :: r =>
    if old.contains d then
      match r, dsnRuns old r with
      | e :: _, (a, b) :: q => if a = e then (d, b) :: q else (d, d) :: (a, b) :: q
      | _, q => (d, d) :: q
    else dsnRuns old r

/-- Lost-range entries that leave the old copies out, committed first (R223 step 5). -/
def State.excludeOld (s : State) (t : Nat) (ds : List Dataset) : State :=
  let vids := (ds.flatMap fun d => d.regions.map (·.vidx)).dedup
  let known := match (s.tp t).ld.cart with
    | some c => c.sets
    | none => []
  s.each vids fun s k =>
    let mine : List Dataset → List Nat := fun l => (l.filter fun d => d.regions.any fun r => r.vidx == k).map (·.dsn)
    let old := mine ds
    let all := ((mine known ++ old).dedup).mergeSort
    s.each (dsnRuns old all) fun s r => s.addLost t { vidx := k, power := false, exFirst := r.1, first := 0, last := 0, exLast := r.2 }

/-- Datasets not verified that stand on or wait for a wrap, in DSN order. -/
def Format.unverified (f : Format) (wrap : Nat) : List Dataset :=
  ((f.sets.map (·.set) ++ f.queue).filter fun d => d.wrap == wrap && d.dkind == 0).mergeSort fun a b => a.dsn ≤ b.dsn

/-- Those datasets are written again on the next wrap; what stood of them on the old one is left out, those of them that no interval carried
only follow. Datasets packed ahead for later wraps follow them, so that the volumes' bytes keep their order. -/
def State.moveWrap (s : State) (t : Nat) (ds : List Dataset) (wrap : Nat) : State :=
  let s0 := s.closeDataset t
  let ahead := (s0.fmt t).queue.filter fun d => d.wrap != wrap && d.dkind == 0
  let stood : Dataset → Bool := fun d => (s0.fmt t).sets.any fun x => x.set.dsn == d.dsn
  let s1 := s0.modFmt t fun f =>
    { f with sets := f.sets.filter fun d => d.set.wrap != wrap, queue := [], group := [], rewrites := [], intervals := [] }
  ((s1.excludeOld t (ds.filter stood)).each ds fun s d => s.writeAgain t d (stood d)).each ahead fun s d => s.writeAgain t d false

/-- The append point goes to the start of the wrap that packing has reached; the overwriting of a group begins with its first wrap (R111). -/
def State.toPackWrap (s : State) (t : Nat) : State :=
  let s0 := s.retarget t
  if (s0.fmt t).halted then s0
  else
    let w := (s0.fmt t).packWrap
    let s1 := if w % 8 = 0 then s0.reuseGroup t (w / 8) else s0
    (s1.modFmt t fun f => { f with wrap := w, interval := firstInterval w, wrapBits := wrapStart w }).modVfy t fun v =>
      { v with wrapsBegun := v.wrapsBegun + 1 }

/-- Declares the loaded cartridge unwritable (R224). -/
def State.unwritable (s : State) (t : Nat) : State :=
  let s1 := s.modVfy t fun v => { v with unwritable := true }
  let s2 := s1.each (s1.volsOf t) fun s p =>
    (((s.dropGaps p.1).loseRecords p.1 2 true fun _ => true).modVol p.1 fun w => { w.dropStream with blocks := [], recs := [], gapWait := [] }).releaseVol p.1
  (s2.modFmt t fun f => { f with group := [], fill := none, queue := [], sets := [], rewrites := [], intervals := [], abandon := 0 }).raise (evTp t 9)

/-- The datasets of an abandoned wrap are written again where packing goes on (R223 steps 3 to 5); with no wrap group free they wait (R386). -/
def State.abandonMove (s : State) (t : Nat) : State :=
  let wrap := (s.fmt t).wrap
  let ds := (s.fmt t).unverified wrap
  if (s.fmt t).halted then s.modFmt t fun f => { f with abandon := 2 }
  else ((s.modFmt t fun f => { f with abandon := 0 }).moveWrap t ds wrap).toPackWrap t

/-- The rest of the wrap is left (R223): the open group ends without parity, its datasets move, the event is raised; a third within 16
wraps declares the cartridge unwritable (R224). -/
def State.leaveRest (s : State) (t : Nat) : State :=
  let s1 := s.closeDataset t
  let s2 := s1.modFmt t fun f => { f with group := [] }
  let s3 := if (s2.fmt t).packWrap = (s2.fmt t).wrap then s2.packOn t else s2.retarget t
  let s4 := s3.modVfy t fun v => { v with abandoned := v.abandoned + 1, abandonAt := v.abandonAt ++ [v.wrapsBegun] }
  let s5 := (s4.abandonMove t).raise (evTp t 10)
  let n := (s.tp t).vfy.wrapsBegun
  if 3 ≤ ((s5.tp t).vfy.abandonAt.filter fun k => decide (n ≤ k + 15)).length then s5.unwritable t else s5

/-- Abandons the rest of the wrap (R223): after the interval in progress, or at once where none is. -/
def State.abandonWrap (s : State) (t : Nat) : State :=
  if (s.fmt t).abandon = 2 then s
  else if (s.fmt t).writing then s.modFmt t fun f => { f with abandon := 1 }
  else s.leaveRest t

/-- Writing resumes once a wrap group without live data exists (R386): packing goes on, and an abandoned wrap is left. -/
def State.tryResume (s : State) (t : Nat) : State :=
  if (s.fmt t).halted then
    let s1 := if (s.fmt t).ahead then
        (if liveGroup (s.dir t) ((s.fmt t).packWrap / 8) then s.retarget t else s.modFmt t fun f => { f with halted := false })
      else s.packOn t
    if (s1.fmt t).halted then s1
    else
      let s2 := if (s1.fmt t).abandon = 2 then s1.abandonMove t else s1
      s2.each (s2.volsOf t) fun s p => s.placeRest p.1
  else s

/-- Orders a retry of a dataset; one that counts is the third of its kind only by abandoning the wrap (R221, R222). -/
def State.retry (s : State) (t dsn : Nat) (counts : Bool) : State :=
  match s.ds? t dsn with
  | none => s
  | some d =>
    if d.retryDue then s
    else if counts && 2 ≤ d.retries then s.abandonWrap t
    else
      ((s.modDs t dsn fun d => { d with retryDue := true, retries := if counts then d.retries + 1 else d.retries }).modFmt t fun f =>
        { f with rewrites := f.rewrites.filter fun r => r.dsn != dsn }).modVfy t (fun v => { v with retries := min 65535 (v.retries + 1) })
        |>.stat (stTp t 4) 1

/-- A copy of a row fails: it is rewritten with RWC raised by 1, or its dataset retried (R209, R221). -/
def State.rowFailed (s : State) (t stop dsn sub row rwc track : Nat) : State :=
  let s1 := (s.modVfy t fun v => { v with rowsFailed := wrapAdd v.rowsFailed 1 }).stat (stTp t 2) 1
  match s1.ds? t dsn with
  | none => s1
  | some d =>
    if d.retryDue then s1
    else if rwc = 3 then s1.retry t dsn true
    else s1.modFmt t fun f => { f with rewrites := f.rewrites ++
      [{ dsn := dsn, sub := sub, row := row, rwc := rwc + 1, track := track, due := stop + 150000 }] }

/-- A copy of a row is accepted; with the last one its dataset is verified (R220). -/
def State.rowAccepted (s : State) (t dsn sub row : Nat) : State :=
  let s1 := s.modDs t dsn fun d => { d with accepted := setBit d.accepted (32 * row + sub) true }
  match s1.ds? t dsn with
  | none => s1
  | some d =>
    if d.accepted = BitVec.allOnes 3328 then
      (s1.modFmt t fun f => { f with sets := f.sets.filter fun x => x.set.dsn != dsn,
                                     rewrites := f.rewrites.filter fun r => r.dsn != dsn }).datasetVerified t d.set
    else s1

/-! ### Writing cut short (R211, R222) -/

/-- An interval whose read-back is not complete. -/
def IntervalRec.awaits (i : IntervalRec) : Bool := !i.rewrites.isEmpty || (i.dsn.isSome && i.reported != BitVec.allOnes 3328)

/-- The cartridge without an interval whose writing stopped: the copy of its dataset that stood before, or none; its separator is gone. -/
def takeBack (i : IntervalRec) (wrap interval : Nat) (c : Cartridge) : Cartridge :=
  { c with
    sets := match i.dsn with
      | some n => (c.sets.filter fun x => x.dsn != n) ++ i.copy.toList
      | none => c.sets
    rwOnly := c.rwOnly.filter fun p => p != (wrap, interval) && i.copy.all fun x => p != (x.wrap, x.interval) }

/-- Writing stops before every read-back has arrived: each dataset with an unverified row in the intervals written in full is retried, and
that does not count (R222). An interval whose writing stopped part-way is as never written (R211, R330): it gives its place back, its
dataset is written again, and its rewritten rows wait as before. A wrap that was to be abandoned after it is left. -/
def State.cutWrites (s : State) (t : Nat) : State :=
  let f := s.fmt t
  let last : Option IntervalRec := match f.intervals.getLast? with
    | some i => if f.writing && i.awaits && i.stop == f.wrapBits then some i else none
    | none => none
  let whole := f.intervals.filter fun i => i.awaits && some i.ord != last.map (·.ord)
  let ds := (whole.flatMap fun i => i.dsn.toList ++ i.rewrites.map (·.dsn)).dedup
  let s1 := s.modFmt t fun f => { f with intervals := [], writing := false }
  let s2 := match last with
    | none => s1
    | some i =>
      let again : DsState → DsState := fun d => if some d.set.dsn == i.dsn then { d with retryDue := true } else d
      ((s1.modFmt t fun f => { f with
          wrapBits := i.start, interval := f.interval - 1, rewrites := f.rewrites ++ i.was, sets := f.sets.map again }).modDir t fun d =>
        { d with eodInt := f.interval - 1, eodDsn := i.eodWas, extents := i.extWas, groups := i.grpWas }).modLd t fun l =>
        { l with cart := l.cart.map (takeBack i f.wrap (f.interval - 1)) }
  let s3 : State := s2.each ds fun s d => s.retry t d false
  if (s3.fmt t).abandon = 1 then s3.leaveRest t else s3

end Sys2Proof.Machine
end

