-- ==== Sys2Proof/Machine/OpsMotion.lean ====
section
/-! DEFINITION. Motion of a transport: readiness (R310), positions (R311, R313), starts (R233, Table 15-2), controlled and
emergency stops, and entry to Out of Service (R315, R325). -/

namespace Sys2Proof.Machine

def State.mot (s : State) (t : Nat) : Motion := (s.tp t).mot

/-! ### Power manager (R344, R350) -/

/-- An exit trigger: the device begins to leave its power state (R344). -/
def State.wake (s : State) (cause : Nat) : State :=
  if s.pm.state = 0 then s else s.modPm fun p => { p with exiting := true, lastWake := if p.exiting then p.lastWake else cause }

/-! ### Readiness of a transport (R310) -/

/-- The states in which commands can use a transport. -/
def TState.usable : TState → Bool
  | .relaxed | .parked | .streaming | .locating | .stopping => true
  | _ => false

/-- The core of a transport is held out of a warm reset, so that the transport only comes to its stop (R39). -/
def State.heldOut (s : State) (t : Nat) : Bool := s.dev.ctlPending.getLsbD (coreOf t)

/-- TRANSPORT is 1 in a usable state with a lane Up; it stays 0 once the part is quiesced (Table 08-6), and after a warm reset until
the load sequence sets it (Table 03-4). -/
def State.syncReady (s : State) (t : Nat) : State :=
  s.setTpReady t ((s.mot t).state.usable && !(s.upLanes t).isEmpty && s.dev.quiesced == 0 && !s.heldOut t)

/-- A transport's state changes; its idle time restarts (R347). -/
def State.setTState (s : State) (t : Nat) (st : TState) : State :=
  (s.modMot t fun m => { m with state := st, idleMs := 0 }).syncReady t

/-! ### Positions, in 0.1 mm (R311, R313) -/

/-- The sign of a wrap's direction of writing (R192). -/
def wrapSign (wrap : Nat) : Int := if wrap % 2 = 0 then 1 else -1
/-- x of a place on a wrap, given in channel bits from its start. -/
def xOf (wrap bits : Nat) : Int := if wrap % 2 = 0 then (bits / 2500 : Nat) else 10000000 - ((bits / 2500 : Nat) : Int)
/-- x of the append point. -/
def State.appendX (s : State) (t : Nat) : Int := xOf (s.fmt t).wrap (s.fmt t).wrapBits
/-- The run-up to speed index `i` at the streaming limits: v²/8 + v/20 metres with v = (4 + i)/2. -/
def runUp (i : Nat) : Int := ((625 * (4 + i) * (4 + i) / 2 + 250 * (4 + i) : Nat) : Int)
/-- The standby point for the speed in force. -/
def State.standbyX (s : State) (t : Nat) : Int :=
  s.appendX t - wrapSign (s.fmt t).wrap * (runUp (s.tp t).gov.speed + 10000)

/-- Tape speed of index `i` in 0.5 mm/s and in 0.1 m/s. -/
def velOf (i : Nat) : Int := ((4000 + 1000 * i : Nat) : Int)
def decOf (i : Nat) : Nat := 20 + 5 * i

/-- Reversals that a new target costs (R328): none at rest or with the target ahead; with it behind, one, and one more where the
tape must arrive in the direction it now moves. -/
def reversalsFor (m : Motion) (g : Target) : Nat :=
  let ahead : Int := if 0 < m.vel then g.x - m.x else m.x - g.x
  if m.vel = 0 || g.kind = 0 || 0 ≤ ahead then 0 else if g.dir == decide (0 < m.vel) then 2 else 1

/-- A target is given to the planner (R314, R329): the one in execution while the tape moves counts as replanned. -/
def State.aim (s : State) (t : Nat) (g : Target) : State :=
  s.modMot t fun m => { m with target := some g, lastTarget := g, idleMs := 0, reversals := wrapAdd m.reversals (reversalsFor m g),
                               replans := if m.target.isSome && m.vel ≠ 0 then wrapAdd m.replans 1 else m.replans }

/-! ### Starts -/

/-- Motion starts from standstill: counted in the life counters, with the events at 80 % and 100 % of the rating (R233); a
device power state ends, the front-end leaves a finished autonomous stop, and servo is to be acquired again (R317). -/
def State.startMotion (s : State) (t : Nat) : State :=
  let n := Tab.get 0 s.sachet.ss t + 1
  let rated := (s.trnCfg t).ratedSs
  let s0 := ((s.modSachet fun x => { x with ss := Tab.set t n x.ss }).lifeCkpt).stat (stTp t 8) 1
  let s1 := (s0.modMot t fun m => { m with servoAcquired := false, acquireRun := 0 }).clearAs t
  let s2 := if (rated * 8 ≤ n * 10 && (n - 1) * 10 < rated * 8) || n = rated then s1.raise (evTp t 12) else s1
  if s2.pm.state = 1 then s2.wake 4 else s2

/-- The transport starts toward the append point and will write (R232, R314 write resume). -/
def State.startWrite (s : State) (t : Nat) : State :=
  let i := (s.tp t).gov.speed
  (((s.startMotion t).aim t { x := s.appendX t, dir := (s.fmt t).wrap % 2 == 0, speed := decOf i, kind := 2 }).modMot t fun m =>
    { m with vel := wrapSign (s.fmt t).wrap * velOf i, starting := none, stopGoal := .parked }).setTState t
    (if (s.mot t).state == .unloading then .unloading else .streaming)

/-! ### Commands that a transport carries -/

/-- The transport of a command's volume. -/
def State.cmdTp (s : State) (c : Cmd) : Option Nat := (s.vol? c.entry.vol).map (·.transport)

/-- Commands that wait on a transport's tape: Flush, and reads, Verify Ranges and Locates. -/
def State.tapeCmds (s : State) (t : Nat) : List Cmd :=
  s.cmdsWhere fun c => s.cmdTp c == some t && (match c.stage with
    | .flushing _ | .reading _ => true
    | _ => false)

/-- They complete with a media status; a Flush that ends with Transport Out of Service reports the highest number verified (Table 07-2). -/
def State.failTape (s : State) (t : Nat) (st : Status) : State :=
  s.each (s.tapeCmds t) fun s c =>
    let r := match c.stage, s.vol? c.entry.vol with
      | .flushing _, some w => if st = Status.transportOutOfService then mkw [(0, w.verified % 2 ^ 48)] else 0
      | _, _ => 0
    s.complete c st { result := r, detail := BitVec.ofNat 64 t }

/-! ### Stops (R315, R325, R332) -/

/-- Enters Out of Service: tension off, reel outputs 0, brakes applied; the first cause stands; commands that need the
transport complete with Transport Out of Service (R49); a transport reset under way ends here. -/
def State.enterOos (s : State) (t cause : Nat) : State :=
  let s0 := s.modLd t fun l => { l with resetting := false, env := none }
  let s1 := ((((s0.cutWrites t).modFmt t fun f => { f with closing := false }).reelsOff t).brakesOn t).modMot t fun m =>
    { m with vel := 0, target := none, pendingTarget := none, starting := none, exc := none, servoAcquired := false,
             stopGoal := .parked, oosCause := if m.state == .outOfService then m.oosCause else cause }
  if (s.mot t).state == .outOfService then s1
  else ((s1.setTState t .outOfService).raise (evTp t 1)).failTape t Status.transportOutOfService

/-- The states in which the tape moves. -/
def TState.moving : TState → Bool
  | .streaming | .locating | .stopping | .loading | .unloading => true
  | _ => false

/-- The goal of a stop when two coincide: Out of Service before Parked, the first cause before a later one (R332). -/
def StopGoal.join : StopGoal → StopGoal → StopGoal
  | .outOfService c, _ => .outOfService c
  | _, .outOfService c => .outOfService c
  | .parked, g => g
  | g, _ => g

/-- Reads that an excursion carried wait again under R122. -/
def State.dropExc (s : State) (t : Nat) : State :=
  match (s.mot t).exc with
  | none => s
  | some e => (s.each e.cmds fun s c => match s.arb.cmds.find? fun x => x.id == c with
      | some x => if x.stage == .reading true then s.setStage c (.reading false) else s
      | none => s).modMot t fun m => { m with exc := none }

/-- A controlled stop (R315): the permit falls and the gate closes, the planner brings the tape to rest, and the transport
goes to the goal's state. A transport at rest is there at once. -/
def State.controlledStop (s : State) (t : Nat) (goal : StopGoal) : State :=
  let s1 := (((s.gateClose t 5).cutWrites t).modFmt t fun f => { f with closing := false }).dropExc t
  let st := (s.mot t).state
  if st == .streaming || st == .locating then
    ((s1.aim t { x := (s.mot t).x, dir := decide (0 < (s.mot t).vel), speed := 0, kind := 0 }).modMot t fun m =>
      { m with stopGoal := m.stopGoal.join goal, pendingTarget := none }).setTState t .stopping
  else if st == .stopping then s1.modMot t fun m => { m with stopGoal := m.stopGoal.join goal }
  else match goal with
    | .outOfService c => if st.usable then s1.enterOos t c else s1
    | _ => s1.modMot t fun m => { m with starting := none }

/-- Every transport's stop in a quiesce, and the stop of a transport reset (R38, R42): a load or unload sequence ends where it stands
and its tape is brought to rest too. -/
def State.orderedStop (s : State) (t : Nat) (goal : StopGoal) : State :=
  let st := (s.mot t).state
  if st == .loading || st == .unloading then
    let s1 := ((s.controlledStop t .parked).modLd t fun l =>
      { l with step := 0, scan := false, cart := if l.scan then none else l.cart }).aim t
      { x := (s.mot t).x, dir := decide (0 < (s.mot t).vel), speed := 0, kind := 0 }
    (s1.modMot t fun m => { m with stopGoal := m.stopGoal.join goal, pendingTarget := none }).setTState t .stopping
  else s.controlledStop t goal

/-- An emergency stop (R325): STOP with EMERGENCY, gate closed, every solenoid and drive output off, Out of Service. It takes
precedence over a stop in progress. -/
def State.emergencyStop (s : State) (t cause : Nat) : State :=
  let s1 := (((s.sendStop t true).gateClose t 5).solRelease t [0, 1, 2]).driveOff t
  let s2 := (s1.modMot t fun m => { m with emergencies := wrapAdd m.emergencies 1, stopGoal := .parked }).raise (evTp t 23)
  (s2.dropExc t).enterOos t cause

/-! ### Leaving and reaching Relaxed and Parked -/

/-- To Relaxed: tension and reel outputs 0, brakes applied (R347). -/
def State.relax (s : State) (t : Nat) : State := (((s.reelsOff t).brakesOn t).modMot t fun m => { m with vel := 0, target := none }).setTState t .relaxed

/-- The tape is at the standby point, stopped, tension held (R313). Where the transport only comes to its stop in a warm reset (R39)
it stands where the stop leaves it. -/
def State.park (s : State) (t : Nat) : State :=
  (s.modMot t fun m => { m with x := if s.heldOut t then m.x else s.standbyX t, vel := 0, target := none, starting := none }).setTState t .parked

end Sys2Proof.Machine
end

