-- ==== Sys2Proof/Machine/OpsLane.lean ====
section
/-! DEFINITION. Lanes: training (R273), link-up, failure, lane loss and quarantine (R274 to R281, R288, R289). -/

namespace Sys2Proof.Machine

/-- The other lane of a pair. -/
def State.partner (s : State) (n : Nat) : Option Nat := if s.cfg.isPaired (n / 2) then some (4 * (n / 2) + 1 - n) else none

/-- ROLE: 0 single, 1 lane 2p of a pair, 2 lane 2p + 1. -/
def State.role (s : State) (n : Nat) : Nat := if s.cfg.isPaired (n / 2) then n % 2 + 1 else 0

/-- Pre-cursor and post-cursor of a transmit preset, in units of 0.025 (Table 13-1). -/
def presetTaps (k : Nat) : Int × Int :=
  match k with
  | 1 => (0, -2) | 2 => (0, -4) | 3 => (0, -6) | 4 => (-2, 0) | 5 => (-2, -2) | 6 => (-2, -4) | 7 => (-4, -2) | 8 => (-4, -4)
  | 9 => (-2, -6) | 10 => (-4, -6) | _ => (0, 0)

/-- Training begins from step 1 with the image's preset; a Quarantined lane stays Quarantined meanwhile (R273, R279). -/
def State.trainStart (s : State) (n : Nat) : State :=
  let k := fld s.cfg.txpre (8 * n + 3) (8 * n)
  ((s.modLn n fun x =>
    { x with state := if x.state == .quarantined then .quarantined else .training, preset := k, tapPre := (presetTaps k).1,
             tapPost := (presetTaps k).2, feReady := false, trained := false, mismatch := false, window := [], trainReq := 0,
             badRun := 0, goodRun := 0, locked := false }).emit (.train n k)).stat (stLane n 7) 1

/-- The LANE bit cleared and the transport's bit brought up to date. -/
def State.laneDownBits (s : State) (n : Nat) : State := (s.setReady (rdLANE n) false).syncReady (s.tpOf n)

/-- A lane enters Up (Table 13-7): its bit is set and Lane Up raised. The first Up lane of a transport starts its link afresh:
SN and WBI from 0. After PS3 the front-end leaves its autonomous stop and takes its parameters again (R345). -/
def State.laneEnterUp (s : State) (n : Nat) : State :=
  let t := s.tpOf n
  let first := (s.sendLanes t).isEmpty
  let s1 := s.modLn n fun x => { x with state := .up, needClean := false, proposing := false, proposals := 0, window := [], locked := true, badRun := 0, resetting := false }
  let s2 := if first then (s1.modLink t fun l => { l with snNext := 0, snHigh := 0, snMissing := [], wbi := 0, quarFirst := none, rxRecent := [] }).modFe
      t fun f => { f with upVmot := none, upVlog := none } else s1
  let s3 := ((s2.setReady (rdLANE n) true).raise (evLane n 1)).syncReady t
  if s3.pm.transportsBack.contains t then
    (((s3.sendLink t 5 0 0).modFe t fun f => { f with asDone := false }).writeParams t).modPm fun p =>
      { p with transportsBack := p.transportsBack.filter (· != t) }
  else s3

/-- A failure is counted and its event raised (R275). -/
def State.laneFailCount (s : State) (n : Nat) : State :=
  ((s.modLn n fun x => { x with quarantines := x.quarantines + 1, window := [] }).raise (evLane n 0)).stat (stLane n 6) 1

/-- A transport loses its lanes (R276, R288): GATE close, STOP with AUTOSTOP, nothing more delivered, and each lane goes Down
and retrains, unless it is held. -/
def State.laneLoss (s : State) (t : Nat) : State :=
  let s1 := (((s.gateClose t 5).sendStop t false).cutWrites t).dropExc t
  let s2 := s1.each (s.lanesOf t) fun s n =>
    let s1 := (s.modLn n fun x => { x with state := .down, needClean := true, proposing := false, proposals := 0 }).laneDownBits n
    if (s.ln n).held then s1 else s1.trainStart n
  (s2.modMot t fun m => { m with servoAcquired := false }).syncReady t

/-- A lane of a pair is Quarantined and retrains; the partner carries everything (R279). -/
def State.quarantineLane (s : State) (n : Nat) : State :=
  ((s.modLn n fun x => { x with state := .quarantined, needClean := true, proposing := false, proposals := 0 }).laneDownBits n).trainStart n

/-- The formatter quarantines a lane of a split pair: LINK QUARANTINE on both lanes first. -/
def State.quarantine (s : State) (n : Nat) : State := (s.sendLink (s.tpOf n) 1 (s.laneBit n) 0).quarantineLane n

/-- A Rejoining lane is Up: it counts as a rejoin (R281). -/
def State.rejoined (s : State) (n : Nat) : State := (s.modLn n fun x => { x with rejoins := x.rejoins + 1 }).laneEnterUp n

/-- A lane fails (R275): in single mode a lane loss; in a pair a quarantine while the partner is Up (or Rejoining, which is then
Up at once, R289), else a lane loss of both (R288). A Rejoining lane goes back to Quarantined; a lane that carries nothing
only restarts its clean count. -/
def State.failLane (s : State) (n : Nat) : State :=
  match (s.ln n).state with
  | .up =>
    let s1 := s.laneFailCount n
    match s.partner n with
    | none => s1.laneLoss (s.tpOf n)
    | some p =>
      match (s.ln p).state with
      | .up => s1.quarantine n
      | .rejoining => (s1.rejoined p).quarantine n
      | _ => s1.laneLoss (s.tpOf n)
  | .rejoining =>
    let s1 := (s.laneFailCount n).modLn n fun x => { x with state := .quarantined, proposing := false, proposals := 0 }
    s1.trainStart n
  | _ => s.modLn n fun x => { x with window := [] }

/-- The lane of a transport that a management frame or a request uses: its lowest lane that carries words. -/
def State.mainLane (s : State) (t : Nat) : Option Nat := (s.sendLanes t).head?

/-! ### Receiving express words (R268, R269) -/

/-- A slot as a receiver sees it with P and N exchanged (R23): a PAM4 level k reads 3 - k, which inverts the later bit of each
pair (R267). -/
def invSlot (x : XSlot) : XSlot :=
  { x with copy1 := x.copy1 ^^^ 0xAAAAAAAAAAAAAAAAAAAAAAAA, copy2 := x.copy2 ^^^ 0xAAAAAAAAAAAAAAAAAAAAAAAA }

/-- The word of a received slot, where the lane carries words of its transport: the slot counters move; a lane that has
slot lock loses it, and fails, at the 16th period in a row without a well-formed copy. An absent lane is powered down (R20). -/
def State.rxSlot (s : State) (n : Nat) (x : XSlot) : State × Option (BitVec 96) :=
  if !s.lanePresent n then (s, none)
  else match slotWord (if (s.ln n).rxInv then invSlot x else x) with
  | none =>
    let s1 := (s.modLn n fun l => { l with bad := wrapAdd l.bad 1, badRun := l.badRun + 1, goodRun := 0 }).stat (stLane n 2) 1
    let l := s1.ln n
    if l.locked && 16 ≤ l.badRun then ((s1.modLn n fun l => { l with locked := false, badRun := 0 }).failLane n, none) else (s1, none)
  | some w =>
    (s.modLn n fun l => { l with badRun := 0, goodRun := min 8 (l.goodRun + 1), locked := l.locked || decide (8 ≤ l.goodRun + 1) }, some w)

/-- A valid word of the wanted type (R268): not IDLE or TRAIN, no duplicate of one accepted on the transport within 8
periods. A duplicate is counted. A Quarantined lane's words are counted and not acted on (Table 13-7). -/
def State.accept (s : State) (n ty : Nat) (x : XSlot) : State × Option Word :=
  match s.rxSlot n x with
  | (s1, none) => (s1, none)
  | (s1, some w) =>
    let t := s1.tpOf n
    if xType w != ty then (s1, none)
    else
      let recent := (s1.tp t).link.rxRecent.filter fun r => decide (x.period ≤ r.2.2 + 8)
      if recent.any fun r => r.1 == ty && r.2.1 == xSeq w then
        ((s1.modLn n fun l => { l with dup := wrapAdd l.dup 1 }).stat (stLane n 3) 1, none)
      else if (s1.ln n).state == .up || (s1.ln n).state == .rejoining then
        (s1.modLink t fun l => { l with rxRecent := recent ++ [(ty, xSeq w, x.period)] }, some (xPayload w))
      else (s1, none)

end Sys2Proof.Machine
end

