-- ==== Sys2Proof/Machine/OpsReady.lean ====
section
/-! DEFINITION. The readiness a command needs (Table 03-5) and the records a read asks for (R119, R120). -/

namespace Sys2Proof.Machine

/-- The sequence numbers from `start` on that a read takes: at most `count`, to the end of data, or to the first record with
MARK (R119). -/
def Volume.range (w : Volume) (start count : Nat) (toMark : Bool) : List Nat :=
  let ks := (List.range (min (start + count) w.nextSeq - start)).map (start + ·)
  if toMark then
    match ks.findIdx? fun k => w.markSeqs.contains k with
    | some i => ks.take (i + 1)
    | none => ks
  else ks

/-- A record held in the write buffer: one not verified, or verified and its segments not yet released. -/
def Volume.held? (w : Volume) (k : Nat) : Option BufRec := (w.recs ++ w.done).find? fun r => r.seq == some k

/-- The numbers a read or a Verify Range asks for from the whole range (R119, R125), without TO_MARK. -/
def Volume.asked (w : Volume) (e : SubEntry) : List Nat :=
  if e.op = 0x87 then w.range e.w4.toNat (e.w5.toNat + 1 - e.w4.toNat) false else w.range e.w4.toNat (fld e.w5 12 0) false

/-- What a command of a tenant pins at its dispatch (R120): of a read, every record asked for that the buffer holds. -/
def State.pinsFor (s : State) (u : Nat) (e : SubEntry) : List BufRec :=
  match s.vol? e.vol with
  | some w => if (e.op = 0x82 || e.op = 0x87) && w.tenant = u then (w.asked e).filterMap w.held? else []
  | none => []

/-- Every record that Read Records asks for is in the write buffer. -/
def Volume.allHeld (w : Volume) (e : SubEntry) : Bool :=
  (w.range e.w4.toNat (fld e.w5 12 0) (bit e.w5 16)).all fun k => (w.held? k).isSome

/-- The readiness bits a command needs, in ascending order (Table 03-5). A unit number that names no unit needs none of its own. -/
def State.needBits (s : State) (e : SubEntry) : List Nat :=
  let w := s.vol? e.vol
  let sl := match w with
    | some w => if w.encrypt then [rdSEAL] else []
    | none => []
  let tpv := match w with
    | some w => [rdTRANSPORT w.transport]
    | none => []
  let unit := fld e.w4 7 0
  let tpu := if unit < 8 then [rdTRANSPORT unit] else []
  match e.op with
  | 0x28 | 0x29 => [rdHOST]
  | 0x05 => [rdHOST, rdIMAGE] ++ (if unit = 3 || unit = 6 || unit = 8 then [rdSACHET] else [])
  | 0x11 | 0x12 | 0x86 => [rdHOST, rdIMAGE, rdSACHET]
  | 0x10 => [rdHOST, rdIMAGE, rdSACHET] ++ tpu
  | 0x18 | 0x19 => [rdHOST, rdIMAGE, rdSEAL]
  | 0x20 => [rdHOST, rdIMAGE] ++ (if unit < 8 then [rdCE (coreOf unit)] else [])
  | 0x22 => [rdHOST, rdIMAGE] ++ tpu
  | 0x83 => [rdHOST, rdIMAGE] ++ tpv
  | 0x87 => [rdHOST, rdIMAGE, rdBUFFER, rdCODEC] ++ sl ++ tpv
  | 0x84 | 0x85 => [rdHOST, rdIMAGE, rdBUFFER]
  | 0x81 => [rdHOST, rdIMAGE, rdBUFFER, rdCODEC] ++ sl
  | 0x82 => [rdHOST, rdIMAGE, rdBUFFER, rdCODEC] ++ sl ++ (match w with
      | some w => if w.allHeld e then [] else [rdTRANSPORT w.transport]
      | none => [])
  | _ => [rdHOST, rdIMAGE]

/-- The bound of Table 03-4 from the reset release by which a readiness bit sets, in ms: none for a lane or a transport, which set by
what their front-end and cartridge do. BUFFER's is 100 ms and the capacity at 28 GB/s, or at 14 GB/s with one channel. -/
def readyBound (g : Settings) (b : Nat) : Option Nat :=
  match b with
  | 0 => some 2
  | 1 => some 60
  | 2 => some (100 + ceilDiv (g.memCh * 2 ^ g.memPkg * 1073741824) (14000000 * g.memCh))
  | 3 => some 25
  | 4 => some 65
  | 5 => some 72
  | _ => if 24 ≤ b && b < 28 then some 68 else none

/-- RETRY_MS of a unit that will become ready: what is left of its bound (Table 03-7's example), counted from the reset release in the
model's 1 ms evaluations; once the bound is past, or where there is none, the formatter's estimate is a free value (assumption 23). -/
def State.retryMs (s : State) (b : Nat) : Nat :=
  match readyBound s.cfg b with
  | some n => if s.msNow - s.dev.releaseMs < n then n - (s.msNow - s.dev.releaseMs) else s.free.toNat % 65536
  | none => s.free.toNat % 65536

/-- The result word of Unit Not Ready (Table 03-6): RETRY unless the unit is absent, in safe mode, fatal or quiesced; with RETRY 0
no estimate exists. -/
def State.notReadyResult (s : State) (b : Nat) : Word :=
  let absent := (8 ≤ b && b < 16 && !s.lanePresent (b - 8)) || (16 ≤ b && b < 24 && !s.tpExists (b - 16)) ||
    (24 ≤ b && !s.tpExists (2 * (b - 24)) && !s.tpExists (2 * (b - 24) + 1))
  let noCart := 16 ≤ b && b < 24 && (match (s.mot (b - 16)).state with
    | .outOfService | .unloaded | .unloading => true
    | _ => false)
  let dead := s.image.safe || s.dev.quiesced != 0 || s.dev.fatal != 0 || (absent && s.image.loaded) || noCart
  mkw [(0, b), (8, b2n (!dead)), (16, if dead then 0xFFFF else s.retryMs b)]

/-- A command that finds a unit not ready completes with Unit Not Ready (R46). -/
def State.failNotReady (s : State) (c : Cmd) (b : Nat) : State :=
  s.take.complete c Status.unitNotReady { result := s.notReadyResult b }

/-- The first readiness bit a command needs and finds 0 (R46). -/
def State.missing (s : State) (e : SubEntry) : Option Nat := (s.needBits e).find? fun b => !s.ready b

end Sys2Proof.Machine
end

