-- ==== Sys2Proof/Machine/OpsUnload.lean ====
section
/-! DEFINITION. How the append point comes to a stop (R199, R210, R315) and the unload sequence (R320). -/

namespace Sys2Proof.Machine

/-! ### The append point stops (R199, R210) -/

/-- Nothing is left to write, and every row written has its status. -/
def Format.done (f : Format) : Bool :=
  f.queue.isEmpty && f.rewrites.isEmpty && !f.intervals.any IntervalRec.awaits && !f.sets.any fun d => d.retryDue

/-- The dataset being filled closes and the open group takes its parity, so that the group's numbers stay consecutive (R199). -/
def State.closeWriter (s : State) (t : Nat) : State := (s.closeDataset t).closeGroup t

/-- A stop of a transport that writes: group and rewrites first (R199, R210), then the controlled stop; otherwise the stop at once. -/
def State.orderStop (s : State) (t : Nat) (goal : StopGoal) : State :=
  let s1 := if (s.fmt t).writing then s.closeWriter t else s
  if (s1.mot t).state == .streaming && (s1.fmt t).writing && (s1.tp t).gu.gate && !(s1.fmt t).done then
    (s1.modFmt t fun f => { f with closing := true }).modMot t fun m => { m with stopGoal := m.stopGoal.join goal }
  else s1.controlledStop t goal

/-- A closing append point closes what datasets written again have opened (R199); once the last row has its status, the stop is ordered; an
excursion that waits for it departs by its own row. -/
def State.closeCheck (s : State) (t : Nat) : State :=
  let s1 := if (s.fmt t).closing && (!(s.fmt t).group.isEmpty || (s.fmt t).fill.isSome) then s.closeWriter t else s
  if (s1.fmt t).closing && (s1.fmt t).done && (s1.mot t).state == .streaming && (s1.mot t).exc.isNone then
    s1.controlledStop t (s1.mot t).stopGoal
  else s1

/-- A cartridge that takes no more data is stopped once its rewrites are finished (R386, R214, R224), and at once where its wrap is left. -/
def State.haltCheck (s : State) (t : Nat) : State :=
  let f := s.fmt t
  if (s.mot t).state == .streaming && (s.mot t).exc.isNone then
    if f.writing && !f.closing && !s.takesSets t then s.orderStop t .parked
    else if !f.writing && f.halted && (s.mot t).target.isNone then s.controlledStop t .parked
    else s
  else s

/-- The tape has no target, or one that the append point has left. -/
def State.astray (s : State) (t : Nat) : Bool :=
  match (s.mot t).target with
  | none => true
  | some g => (g.kind == 2 || g.kind == 4) && g.x != s.appendX t

/-- After a cut the tape goes back through the standby point to the append point, where writing resumes (R211, R330). Where the append point
has gone to a wrap of the other direction the tape turns for it (R223, R316). -/
def State.resumeCheck (s : State) (t : Nat) : State :=
  let m := s.mot t
  let f := s.fmt t
  if (m.state == .streaming || (m.state == .unloading && !f.done)) && m.vel != 0 && !f.writing && !f.halted && s.astray t then
    let turn := f.interval == firstInterval f.wrap && decide (m.vel * wrapSign f.wrap < 0)
    s.aim t { x := s.appendX t, dir := f.wrap % 2 == 0, speed := decOf (s.tp t).gov.speed, kind := if turn then 4 else 2 }
  else s

/-! ### Directory copies (R212, R225) -/

/-- LOADER of this formatter (Table 10-6). -/
def State.loader (s : State) : Word := wordAt (sha256 (wordBytes s.fuses.serial0 ++ wordBytes s.fuses.serial1)) 0

/-- The dataset of replica `k` of a directory copy (R212, Table 10-3): DKIND 2 with no region; its user area is the directory stream
(`dirPayload`). -/
def replicaSet (d : Directory) (b : Bool) (k : Nat) : Dataset :=
  { dsn := 0, dkind := 2, wrap := 0, interval := 4 * b2n b + k, tmask := BitVec.allOnes 32, gpos := k, gdsn0 := 0, part := true, rewrite := false,
    origDsn := 0, time := d.time, regions := [], parity := [] }

/-- A copy's replicas on the cartridge: each decodes to the directory where every row of it was accepted. -/
def putDir (b : Bool) (l : List (Option Directory)) (c : Cartridge) : Cartridge :=
  if b then { c with dirB := l, areaWritten := true } else { c with dirA := l, areaWritten := true }

/-- One writing of a copy: four replicas with 32 tracks and Q 0 in intervals 0 to 3 (A) or 4 to 7 (B) of wrap 0, read back under the threshold
in force (R212, R219); true where a replica passes. -/
def State.writeCopy (s : State) (t : Nat) (b : Bool) (d : Directory) : State × Bool :=
  let v := (s.trnCfg t).verifyV
  let rows := (List.range 4).map fun k => (s.tp t).ld.dirRead.getD k []
  let reps := rows.map fun r => if r.all (acceptedOf v) then some d else none
  let bad := (rows.flatMap fun r => r.filter fun x => !acceptedOf v x).length
  let s1 := s.modLd t fun l => { l with cart := l.cart.map (putDir b reps), dirRead := l.dirRead.drop 4, dirV := v }
  let s2 := s1.each (List.range 4) fun s k => s.emit
    (.interval t 0 (4 * b2n b + k) (BitVec.allOnes 32) 104 0 (some (replicaSet d b k)) (List.replicate 32 []))
  let s3 := ((s2.emit (.directory t b d)).modVfy t fun x => { x with rowsFailed := wrapAdd x.rowsFailed bad }).stat (stTp t 2) bad
  (s3.modLink t fun l => { l with wbi := l.wbi + 4 * intervalBits 104 0 }, reps.any Option.isSome)

/-- A copy whose four replicas all fail is written again in the same intervals, `n` times in all (R225). -/
def State.writeTries (t : Nat) (b : Bool) (d : Directory) : Nat → State → State × Bool
  | 0, s => (s, false)
  | n + 1, s =>
    let r := s.writeCopy t b d
    if r.2 then r else State.writeTries t b d n r.1

/-- Writes a directory copy in the place other than the one last read or written (R212); where no replica of three writings passes, Directory
Write Failed is raised and the other copy stands (R225). The directory kept in Sachet still takes OPEN: with it a later load scans. -/
def State.writeDir (s : State) (t : Nat) (opn : Bool) : State :=
  let l := (s.tp t).ld
  let b := !l.lastCopyB
  let d := { l.dir with dirgen := l.dir.dirgen + 1, opn := opn, loader := s.loader }
  let r := State.writeTries t b d 3 s
  if r.2 then r.1.modLd t fun l => { l with dir := d, dirDirty := true, lastCopyB := b }
  else (r.1.modLd t fun l =>
    { l with dir := { l.dir with opn := l.dir.opn || opn }, dirDirty := true, lastCopyB := b, dirFails := l.dirFails + 1 }).raise (evTp t 7)

/-! ### The unload sequence (R320) -/

/-- Everything of a volume's stream stands in datasets. -/
def Volume.allPlaced (w : Volume) : Bool := w.opn.isEmpty && w.blocks.all fun b => b.stage == .sealed && b.placed == b.stored.length

/-- The unload begins: open blocks are cut (R170), and a transport at rest under its brakes releases them for the rewind. `dir` is what the
directory copy's read-back meets; `servoOk` says whether servo can be acquired out of service. -/
def State.beginUnload (s : State) (t : Nat) (dir : DirRead) (servoOk : Bool) : State :=
  let s1 := (s.dropExc t).setTState t .unloading
  let s2 := s1.modLd t fun l => { l with dirRead := dir, servoOk := servoOk }
  let s3 := s2.each (s2.volsOf t) fun s p => s.cut p.1 3
  let s4 := s3.modMot t fun m => { m with starting := none, pendingTarget := none }
  if (s4.tp t).sol.released then s4 else s4.brakesOff t

/-- Steps 1 to 3 can be made: not out of service, or servo can be acquired. -/
def State.unloadWrites (s : State) (t : Nat) : Bool := (s.mot t).oosCause == 0 || (s.tp t).ld.servoOk

/-- Steps 1 and 2 are done: every record has reached tape, and every gap entry and parity with it where anything is written. -/
def State.unloadReady (s : State) (t : Nat) : Bool :=
  let f := s.fmt t
  (s.tp t).sol.released && (s.volsOf t).all (fun p => !p.2.recs.any fun r => r.seq.isSome) &&
    (!s.unloadWrites t || (s.pendingOf t == 0 && (s.volsOf t).all (fun p => p.2.gapWait.isEmpty) &&
      f.done && f.group.isEmpty && f.fill.isNone && f.sets.isEmpty))

/-- One volume goes offline at unload: its anchor (R189), sealing before zeroising (R184), its commands with Cartridge Unloaded. -/
def State.unloadVol (s : State) (t h : Nat) : State :=
  match s.vol? h with
  | none => s
  | some w =>
    let s1 := match w.anchored with
      | some (n, last, hash) => s.anchor h w 1 n last hash
      | none => s
    let s2 := (s1.sealAll h).zeroise h
    let s3 := (s2.each (s2.cmdsWhere fun c => c.entry.vol == h) fun s c => s.complete c Status.cartridgeUnloaded { detail := BitVec.ofNat 64 t }).syncDir h
    s3.dropVol h

/-- Steps 3 to 6: directory copy, volumes offline with their snapshot, rewind and unthreading, brakes applied, latch withdrawn. -/
def State.unloadFinish (s : State) (t : Nat) : State :=
  let l := (s.tp t).ld
  let s0 := s.each (s.volsOf t) fun s p => s.syncDir p.1
  let s1 := s0.modDir t fun d => { d with dsnLimit := max d.eodDsn ((s.fmt t).nextDsn - 1) }
  let s2 := if s.unloadWrites t && !l.dirUnreadable then s1.writeDir t false else s1
  let gone := !(s2.volsOf t).isEmpty
  let s3 := s2.each (s2.volsOf t) fun s p => s.unloadVol t p.1
  let s4 := if l.dirUnreadable then s3 else s3.commitDir t
  let s5 := if gone then s4.snapshot 2 else s4
  let s6 := s5.modSachet fun x => match x.areaOf (s.serial t) with
    | some a => { x with idle := x.idle.filter (· != a) ++ [a] }
    | none => x
  let s7 := (((s6.startMotion t).startMotion t).gateClose t 5).modMot t fun m =>
    { m with vel := 0, x := -120000, target := none, lastTarget := { x := 0, dir := false, speed := (s.trnCfg t).locate, kind := 5 }, pendingTarget := none, starting := none, exc := none, threaded := false, oosCause := 0,
             stopGoal := .parked, servoAcquired := false }
  let s8 := s7.modLd t fun l => { l with cart := none, dir := default, dirDirty := false, dirUnreadable := false, scan := false, step := 0, latchOut := true, dirRead := [] }
  let s9 := (s8.modFmt t fun f => { ({} : Format) with
    tmask := f.tmask, nact := f.nact, p := f.p, q := f.q, rwRows := f.rwRows, rwOnly := f.rwOnly, overflow := f.overflow }).modVfy t fun v =>
    { v with unwritable := false }
  (((s9.reelsOff t).brakesOn t).solRequest t 2).setTState t .unloaded

/-- The unload goes on as far as it can: the open group closes once every block is placed, a tape at rest starts for what is to be written,
and the rest follows when all is verified. -/
def State.unloadCheck (s : State) (t : Nat) : State :=
  if (s.mot t).state != .unloading then s
  else
    let f := s.fmt t
    let placed := (s.volsOf t).all fun p => p.2.allPlaced && p.2.gapWait.isEmpty
    let s1 := if s.unloadWrites t && placed && (f.fill.isSome || !f.group.isEmpty) then s.closeWriter t else s
    if s1.unloadReady t && !s1.therm.shut then s1.unloadFinish t
    else
      let m := s1.mot t
      let go := m.vel = 0 && !(s1.fmt t).done && s1.unloadWrites t && (s1.tp t).sol.released && !(s1.upLanes t).isEmpty && !s1.therm.shut &&
        s1.dev.quiesced == 0 && !(s1.fmt t).halted
      if go then s1.startWrite t else s1

end Sys2Proof.Machine
end

