-- ==== Sys2Proof/Machine/OpsSettle.lean ====
section
/-! DEFINITION. Waiting commands and the conditions that complete them (R128, R97, R109, R114, R125, R321), the quiesce (R162,
R164) and device fatal errors (R145). -/

namespace Sys2Proof.Machine

/-- The code of a transport state (Table 15-1). -/
def TState.code : TState → Nat
  | .absent => 0 | .unloaded => 1 | .loading => 2 | .relaxed => 3 | .parked => 4 | .streaming => 5 | .locating => 6
  | .stopping => 7 | .unloading => 8 | .outOfService => 9

/-- The result word of Transport Control (R321). -/
def State.tcResult (s : State) (t : Nat) (scan : Bool) (discarded : Nat) : Word :=
  let m := s.mot t
  mkw [(0, m.state.code), (4, m.oosCause), (8, b2n m.cartPresent), (9, b2n (s.tp t).sol.brakesApplied), (10, b2n scan), (32, discarded % 2 ^ 32)]

/-- The code of a lane state (Table 13-7). -/
def LaneState.code : LaneState → Nat
  | .absent => 0 | .down => 1 | .training => 2 | .up => 3 | .quarantined => 4 | .rejoining => 5

/-- The result word of Lane Service (R286). -/
def State.lsResult (s : State) (n : Nat) : Word :=
  let l := s.ln n
  mkw [(0, l.state.code), (3, s.role n), (5, b2n l.held), (8, l.preset), (32, l.window.length % 65536)]

/-- The result word of Channel Service (R252). -/
def State.csResult (s : State) (t c : Nat) : Word :=
  let x := s.chan t c
  mkw [(0, s.outMask t), (32, match x.state with
    | .inService => 0 | .out => 1 | .outHeld => 2), (34, x.probeRun)]

/-- Unit and action of a service command. -/
def Cmd.unit (c : Cmd) : Nat := fld c.entry.w4 7 0
def Cmd.action (c : Cmd) : Nat := fld c.entry.w4 15 8

/-- The dataset being filled closes where it holds a region of a volume that goes offline (R198). -/
def State.closeFor (s : State) (t vidx : Nat) : State :=
  match (s.fmt t).fill with
  | some f => if f.has vidx then s.closeDataset t else s
  | none => s

/-- The effect of Delete Volume once the earlier commands of the volume have completed (R109): its admitted records that are not on tape go,
those still to be replayed among them; its open gap entries leave their Pruning log entries (R236). -/
def State.finishDelete (s : State) (c : Cmd) : State :=
  let h := c.entry.vol
  match s.vol? h with
  | none => s.fail c Status.invalidVolume
  | some w =>
    let n := (w.recs.filter fun r => r.seq.isSome).length + w.replay.length
    let s1 := ((((s.dropGaps h).closeFor w.transport w.vidx)).syncDir h).modDir w.transport fun d => { d with
      vols := Tab.set w.vidx { (Tab.get default d.vols w.vidx) with deleted := true } d.vols }
    let s2 := ((((s1.dropVol h).ringDone fun e => decide (e.uuid = w.uuid)).commitDir w.transport).snapshot 1).tryResume w.transport
    s2.succeed c (mkw [(0, n % 2 ^ 32)])

/-- The effect of Clear Key once the earlier commands of the volume have completed: every record sealed, the slot zeroised
(R114). It waits while a block cannot be placed. -/
def State.finishClear (s : State) (c : Cmd) : State :=
  let s1 := s.sealAll c.entry.vol
  match s1.vol? c.entry.vol with
  | none => s1.fail c Status.cartridgeUnloaded
  | some w => if w.sealedPos = w.streamPos then (s1.zeroise c.entry.vol).succeed c else s1

/-- Whether a Transport Control that waits has reached its end (Table 15-5). -/
def State.tcDone (s : State) (t action : Nat) : Bool :=
  let m := s.mot t
  match action with
  | 1 => (m.state != .loading && (s.tp t).ld.env.isNone) || (s.tp t).ld.scan
  | 2 => m.state != .unloading && !(m.state == .unloaded && (s.tp t).ld.latchOut)
  | 5 => m.state != .stopping && !(m.state == .streaming && m.stopGoal != .parked)
  | 7 => !(s.tp t).ld.resetting
  | _ => m.starting != some .park

/-- Completes one waiting command whose condition holds. -/
def State.settleCmd (s : State) (c : Cmd) : State :=
  match c.stage with
  | .fetched | .afterLoad => s
  | .flushing k =>
    match s.vol? c.entry.vol with
    | none => s.fail c Status.cartridgeUnloaded
    | some w => if k ≤ w.verified then s.succeed c (mkw [(0, w.verified % 2 ^ 48)]) else s
  | .reading _ => if (s.vol? c.entry.vol).isNone then s.fail c Status.cartridgeUnloaded else s
  | .deletingQp q =>
    if s.arb.cmds.any fun x => x.u == c.u && x.q == q && x.id != c.id then s
    else (s.modTn c.u fun x => { x with
      qps := Tab.erase q x.qps, wrr := if x.wrr.queue = some q then { x.wrr with queue := none, grants := 0, burst := 0 } else x.wrr }).succeed c
  | .waitingFor ids =>
    if s.arb.cmds.any fun x => ids.contains x.id then s
    else if c.entry.op = 0x11 then s.finishDelete c else s.finishClear c
  | .service =>
    if c.entry.op = 0x20 then
      if s.tcDone c.unit c.action then s.succeed c (s.tcResult c.unit (c.action == 1 && (s.tp c.unit).ld.scan) 0) else s
    else if c.entry.op = 0x21 then
      if (s.ln c.unit).state == .up then s.succeed c (s.lsResult c.unit) else s
    else
      let ch := fld c.entry.w4 12 8
      let x := s.chan c.unit ch
      if x.leaving.isSome || x.resetTaps then s else s.succeed c (s.csResult c.unit ch)

/-- What follows any change of a volume's blocks or pins: blocks take their place in the cut order (R172), idle segments return (R151), and
sealed blocks that waited for a dataset are placed (R8). -/
def State.settleBlocks (s : State) (h : Nat) : State := ((s.numberCuts h).releaseVol h).placeRest h

/-- Completes every waiting command whose condition holds; an admin pair being deleted goes with its last command (R81). -/
def State.settle (s : State) : State :=
  let once : State → State := fun s => s.each s.arb.cmds fun s c =>
    if s.arb.cmds.any fun x => x.id == c.id then s.settleCmd c else s
  let sv := s.each s.vols fun s p => s.settleBlocks p.1
  let s0 := sv.each sv.tpList fun s t => ((((s.tryResume t).haltCheck t).closeCheck t).unloadCheck t).resumeCheck t
  let s1 := once (once s0)
  s1.each (List.range 16) State.rdyDown

/-! ### The quiesce (R162, R164; Table 08-6) -/

/-- Sachet is mounted and alive, so that the sequence can commit to it. -/
def State.sachetUp (s : State) : Bool := s.ready rdSACHET && !s.dev.fatal.getLsbD 2

/-- Step `k` of the sequence of Table 08-6: 1 admission stops and the gates drop; 2 every transport is ordered to a controlled stop;
3 the directories are committed; 4 the snapshot with REASON and a new LOSS_ID is committed, BUFFER and every TRANSPORT bit clear, and
Power Fail is raised where PFAIL_N started the sequence. In PS3 a power loss records only the new LOSS_ID (R351). -/
def State.quiesceStep (s : State) (reason k : Nat) : State :=
  let asleep := s.pm.state == 3 && reason == 3
  let s1 := s.modDev fun d => { d with quiesced := reason, qstep := k }
  match k with
  | 1 => s1.each s1.tpList fun s t => s.gateClose t 5
  | 2 => s1.each s1.tpList fun s t => s.orderedStop t .parked
  | 3 => if !s1.sachetUp || asleep then s1 else s1.commitDirs
  | _ =>
    let s2 := if !s1.sachetUp then s1 else if asleep then s1.newLoss else ((s1.newLoss).snapshot reason).lifeCkpt
    let s3 := (s2.setReady rdBUFFER false).each (List.range 8) fun s t => s.setTpReady t false
    if reason = 3 then s3.raise evPowerFail else s3

/-- The sequence goes on with its next steps, at most `n` of them, up to step `upTo` (R28, R29: only POR_N ends it midway). -/
def State.quiesceTo (s : State) (reason upTo : Nat) : State :=
  let done := if s.dev.quiesced = 0 then 0 else s.dev.qstep
  (List.range' (done + 1) (min upTo 4 - done)).foldl (fun s k => s.quiesceStep reason k) s

/-- The whole sequence (R38, R145, R162). A part already quiesced stays so: the first reason stands. -/
def State.quiesce (s : State) (reason : Nat) : State :=
  if s.dev.quiesced ≠ 0 then s else s.quiesceTo reason 4

/-- Commands that wait on tape end with Device Fatal when a fatal error stops every transport, where a completion can still be
posted (R145). -/
def State.fatalTape (s : State) : State := s.each s.tpList fun s t => s.failTape t Status.deviceFatal

/-- Fetched commands that satisfy a test complete with Device Fatal (R145). -/
def State.fatalCmds (s : State) (p : Cmd → Bool) : State := s.each (s.cmdsWhere p) fun s c => s.fail c Status.deviceFatal

/-- A device fatal cause (R145): DV_FATAL, the Device Fatal event, AER, the failed units' readiness bits, the quiesce, and Device
Fatal for the fetched commands that need those units or wait on tape. -/
def State.deviceFatal (s : State) (cause : Nat) (bits : List Nat) : State :=
  let s1 := s.modDev fun d => { d with fatalFirst := if d.fatal = 0 then cause else d.fatalFirst, fatal := setBit d.fatal cause true }
  let s2 := ((s1.raise evDeviceFatal).aerFatal 0).each bits fun s b => s.setReady b false
  ((s2.fatalCmds fun c => (s.needBits c.entry).any fun b => bits.contains b).quiesce 5).fatalTape

/-! ### The command that a row executes -/

/-- The oldest command not yet executed that satisfies a test. -/
def State.fetched (s : State) (p : Cmd → Bool) : Option Cmd := s.arb.cmds.find? fun c => c.stage == .fetched && p c
/-- The oldest fetched admin command of tenant `u` with an opcode; with an action in W4[15:8]. -/
def State.adminCmd (s : State) (u op : Nat) : Option Cmd := s.fetched fun c => c.u == u && c.q == 0 && c.entry.op == op
def State.serviceCmd (s : State) (op action : Nat) : Option Cmd :=
  s.fetched fun c => c.u == 0 && c.q == 0 && c.entry.op == op && c.action == action
/-- Commands of one SQ that name the same volume execute, and so complete, in fetch order; writes to one volume take their
numbers in fetch order whichever SQs they came from (R86). -/
def State.turnOf (s : State) (c : Cmd) : Bool :=
  let wr : Cmd → Bool := fun x => x.entry.op == 0x81 || x.entry.op == 0x84
  !s.arb.cmds.any fun x => decide (x.id < c.id) && x.entry.vol == c.entry.vol && x.q != 0 &&
    ((x.u == c.u && x.q == c.q) || (wr c && wr x && x.stage == .fetched))
/-- The oldest fetched I/O command of a queue pair with the opcode whose turn it is. -/
def State.ioCmd (s : State) (u q op : Nat) : Option Cmd :=
  s.fetched fun c => c.u == u && c.q == q && c.q != 0 && c.entry.op == op && s.turnOf c
/-- Runs a command's effect where one is fetched; else nothing is executed. -/
def State.run (s : State) (c : Option Cmd) (f : Cmd → State) : State :=
  match c with
  | some c => f c
  | none => s

/-- Check 5 of R104: the volume is online, owned by the submitting tenant, and no Delete Volume of it was dispatched before the command
(R109). -/
def State.ownVol (s : State) (c : Cmd) : Option Volume :=
  match s.vol? c.entry.vol with
  | some w =>
    let gone := match w.deleting with
      | some d => decide (d < c.id)
      | none => false
    if w.tenant = c.u && !gone then some w else none
  | none => none

end Sys2Proof.Machine
end

