-- ==== Sys2Proof/Machine/OpsReset.lean ====
section
/-! DEFINITION. What resets clear and keep (Table 03-3), and the start of the links and loop slots from the image. -/

namespace Sys2Proof.Machine

/-! ### Starting units from the image -/

/-- The loop slots of a transport as the image gives them (R300, R307): an absent slot is disabled, its words 0. -/
def State.loadSlots (s : State) (t : Nat) : State :=
  s.modTp t fun x => { x with slots := (List.range 5 ++ [5, 6, 7]).map fun k =>
    let l : LoopCfg := Tab.get {} s.image.img.loops (8 * t + k)
    (k, { ({} : Slot) with w0 := l.w0, w1 := l.w1, active := l.coefs, shadow := l.coefs }) }

/-- The lanes of a transport begin to train and the transport is Unloaded (R273, R310). -/
def State.startLink (s : State) (t : Nat) : State :=
  let s1 := (s.lanesOf t).foldl (fun s n => (s.modLn n fun x => { x with state := .down }).trainStart n) s
  (s1.loadSlots t).modMot t fun m => { m with state := .unloaded }

/-! ### The host side comes up (R44) -/

/-- HOST sets: every function outside a Function Level Reset has FUNC 1, and enabled tenants come into service. -/
def State.hostUp (s : State) : State :=
  (s.setReady rdHOST true).each (List.range 16) fun s u =>
    if (s.tn u).inFlr then s else (s.modTn u fun x => { x with func := true }).tryRdy u

/-! ### Resets -/

/-- POR_N (R37, R6): everything returns to its reset value but Sachet, the NVM, the fuses and the pins driven from outside.
What stood in the buffer is lost as in a power loss. -/
def porReset (s : State) : State :=
  { State.reset with
    pending := s.pending, out := s.out, freeCtr := s.freeCtr, msNow := s.msNow, fuses := s.fuses, sachet := s.sachet,
    image := { nvm := s.image.nvm }
    pins := { ({} : Pins) with porN := s.pins.porN, perstN := s.pins.perstN, monitorReset := s.pins.monitorReset } }

/-- A held core's transports have stopped with brakes applied (R39). -/
def State.coreAtRest (s : State) (c : Nat) : Bool :=
  [2 * c, 2 * c + 1].all fun t => !s.tpExists t || ((s.mot t).vel == 0 && (s.tp t).sol.brakesApplied && !(s.mot t).state.moving)

/-- Bits of the cores that serve a transport that exists. -/
def State.servedCores (s : State) : BitVec 4 :=
  BitVec.ofNat 4 (((List.range 4).map fun c => if s.tpExists (2 * c) || s.tpExists (2 * c + 1) then 2 ^ c else 0).sum)

/-- The cores that stay out of a warm reset: those that serve a transport not yet at rest under its brakes (R39). -/
def State.heldCores (s : State) : BitVec 4 :=
  BitVec.ofNat 4 (((List.range 4).map fun c => if s.servedCores.getLsbD c && !s.coreAtRest c then 2 ^ c else 0).sum)

/-- What a warm reset leaves of the settings (R38, R39): only what the held cores and their lanes run on; every other setting stands
at its reset value until the load. -/
def Settings.heldPart (g : Settings) (held : BitVec 4) : Settings :=
  if held = 0 then {}
  else
    let lanes := BitVec.ofNat 8 (((List.range 8).map fun n => if held.getLsbD (coreOf n) && g.lanePresent n then 2 ^ n else 0).sum)
    { lanes := lanes, paired := g.paired &&& held, txpre := g.txpre, trn := g.trn, loops := g.loops, sol := g.sol }

/-- What a warm reset leaves of a held transport: what the control engine and the lanes hold (CK_CTL, lane clocks). The write formatter,
the verifier, the governor, the read channel, management frames and the load sequence reset (Table 03-1). -/
def Transport.heldPart (x : Transport) : Transport :=
  { mot := { x.mot with exc := none, starting := none, stopGoal := .parked, pendingTarget := none }
    sol := x.sol, fe := x.fe, gu := x.gu, slots := x.slots
    link := { x.link with mgmt := [], snNext := 0, snHigh := 0, snMissing := [], wbi := 0, wclk := 0 } }

/-- The warm reset of PERST_N (R38): every domain but the always-on domain, and the control cores with their transports and
lanes that wait for their stop (R39). A tenant keeps only its GEN; the GPIO keep all but OUT (R19); TLIM and the supply
readings stay, and the DSNs that may never have reached tape are counted on since POR_N (Table 09-8). -/
def warmReset (s : State) (last : Nat) : State :=
  let held := s.heldCores
  { State.reset with
    pending := s.pending, out := s.out, freeCtr := s.freeCtr, msNow := s.msNow, fuses := s.fuses, sachet := s.sachet,
    pins := s.pins, therm := s.therm,
    gpio := { s.gpio with out := 0 }
    image := { nvm := s.image.nvm, cfg := s.image.cfg.heldPart held }
    pm := { tlim := s.pm.tlim }
    bm := { retired := s.bm.retired }
    dev := { lastReset := last, ctlPending := held, dsnResv := s.dev.dsnResv, releaseMs := s.msNow }
    tenants := s.tenants.map fun p => (p.1, { gen := p.2.gen })
    lanes := s.lanes.filter fun p => held.getLsbD (coreOf p.1)
    tps := (s.tps.filter fun p => held.getLsbD (coreOf p.1)).map fun p => (p.1, p.2.heldPart)
    cores := s.cores.filter fun p => held.getLsbD p.1 }

/-- A held core resets with its transports and lanes; where the image is loaded by then, their bring-up starts. -/
def State.coreReset (s : State) (c : Nat) : State :=
  let mine : Nat → Bool := fun k => coreOf k == c
  let s1 := { s with
    lanes := s.lanes.filter fun p => !mine p.1
    tps := s.tps.filter fun p => !mine p.1
    cores := Tab.erase c s.cores
    dev := { s.dev with ctlPending := setBit s.dev.ctlPending c false } }
  let s2 := s1.each [2 * c, 2 * c + 1] fun s k => (s.setReady (rdLANE k) false).setReady (rdTRANSPORT k) false
  if s2.image.loaded then s2.each (s2.tpList.filter mine) fun s t => s.startLink t else s2

end Sys2Proof.Machine
end

