-- ==== Sys2Proof/Machine/OpsEngine.lean ====
section
/-! DEFINITION. The control engine and the guard unit of a transport: measurements (Table 14-2), jobs and their outputs (R298,
R299), the permit and the gate (R302, R303), and the responses to lost feedback (Table 14-5). -/

namespace Sys2Proof.Machine

/-! ### Slots -/

/-- The tape stands under tension or moves (R301). -/
def State.loopsOn (s : State) (t : Nat) : Bool :=
  match (s.mot t).state with
  | .loading | .parked | .streaming | .locating | .stopping | .unloading => true
  | .relaxed => (s.mot t).starting.isSome
  | _ => false

/-- An enabled slot that is neither open, suspended nor held runs (R300, R301, R305). -/
def State.slotActive (s : State) (t k : Nat) : Bool :=
  s.tpExists t && loopEnable (s.slot t k).w0 && (if k ≤ 1 then (s.mot t).servoAcquired else if k ≤ 4 then s.loopsOn t else true)

/-- A slot is held: by its own hold, or because it measures the output of an enabled slot that is held or suspended (R305). The fuel is a slot
each. -/
def State.slotHeld (s : State) (t : Nat) : Nat → Nat → Bool
  | 0, k => (s.slot t k).hold
  | n + 1, k =>
    let z := s.slot t k
    let src := loopInput z.w0 - 0x10
    z.hold || (decide (0x10 ≤ loopInput z.w0) && decide (loopInput z.w0 ≤ 0x17) && loopEnable (s.slot t src).w0 &&
      (!s.slotActive t src || s.slotHeld t n src))
def State.slotRuns (s : State) (t k : Nat) : Bool := s.slotActive t k && !s.slotHeld t 8 k

/-- A released job that its core starts before another of the same core (R292): slot 0, then 4, then 2, 3, 1, 5, 6 and 7, each of the core's
first transport before its second. -/
def slotRank (t k : Nat) : Nat := 2 * ([0, 4, 2, 3, 1, 5, 6, 7].findIdx fun j => j == k) + t % 2
def State.jobAhead (s : State) (t k : Nat) : Bool :=
  [2 * coreOf t, 2 * coreOf t + 1].any fun r => (List.range 8).any fun j =>
    (s.slot r j).released && s.slotRuns r j && decide (slotRank r j < slotRank t k)

/-- A word brings new values of some signals: an assignable slot that their loss has held resumes, its detectors armed (Table 14-5). -/
def State.rearm (s : State) (t : Nat) (codes : List Nat) : State :=
  s.each [5, 6, 7] fun s k =>
    let z := s.slot t k
    if z.hold && codes.contains (loopInput z.w0) then s.modSlot t k fun z => { z with hold := false, lastM := none, sameRun := 0 } else s

/-- The lateral position of the wrap in use, in 2 nm: offset index × STEP (R317, R192). -/
def State.lateral (s : State) (t : Nat) : Int :=
  ((s.fmt t).wrap % 52 * ((s.tp t).ld.cart.map (·.step)).getD 0 / 2 : Nat)

/-- A 16-bit field in a slot's data format; a 32-bit (Q1.31) value in it (R295). -/
def in16 (x32 : Bool) (v : Int) : Int := (saturate x32 (if x32 then v * 65536 else v)).1
def in32 (x32 : Bool) (v : Int) : Int := (saturate x32 (if x32 then v else roundShift 16 v)).1

/-- The sign of the commanded direction. -/
def State.dirSign (s : State) (t : Nat) : Int := if (s.mot t).vel < 0 then -1 else 1

/-- The estimate of a reel's edge rate in edges/s (R306): K × SPEED, or the back-EMF rate. `b` is true for reel B. -/
def State.reelEstimate (s : State) (t : Nat) (b bemf : Bool) : Int :=
  let g := (s.tp t).gu
  let f := (s.tp t).fe
  let e := if b then g.bemfB else g.bemfA
  let ke := e.toNat % 65536
  let rate : Int := if bemf then
      if ke = 0 then 0
      else (signed 16 (if b then fld g.drive 63 48 else fld g.drive 47 32) * f.vmot.toNat * 10000 / 32768 -
        (if b then f.iB else f.iA) * (e.toNat / 65536 : Nat)) / (ke : Nat)
    else ((if b then g.ratioB else g.ratioA).toNat * f.speedRaw / 131072000 : Nat)
  if bemf then rate else s.dirSign t * rate

/-- The measurement of a code in a slot's format (Table 14-2), and whether it took a free value: YAVG with no valid channel. -/
def State.measure (s : State) (t : Nat) (x32 : Bool) (code : Nat) : Int × Bool :=
  let f := (s.tp t).fe
  match code with
  | 0x01 => (in16 x32 f.y0, false)
  | 0x02 => (in16 x32 f.y1, false)
  | 0x03 =>
    if f.v0 && f.v1 then (in32 x32 ((f.y0 + f.y1) * 32768), false)
    else if f.v0 then (in16 x32 f.y0, false)
    else if f.v1 then (in16 x32 f.y1, false)
    else (in16 x32 (signed 16 s.free.toNat), true)
  | 0x04 => (in16 x32 (if f.dirEot then (f.speedRaw : Int) else -(f.speedRaw : Int)), false)
  | 0x05 => (in32 x32 (s.dirSign t * f.edgeA * 2048), false)
  | 0x06 => (in32 x32 (s.dirSign t * f.edgeB * 2048), false)
  | 0x07 => (in16 x32 f.tension, false)
  | 0x08 => (in16 x32 f.iA, false)
  | 0x09 => (in16 x32 f.iB, false)
  | c =>
    if 0x10 ≤ c && c ≤ 0x17 then
      let z := s.slot t (c - 0x10)
      if loopX32 z.w0 then (in32 x32 z.out, false) else (in16 x32 z.out, false)
    else (0, false)

/-- The planner's reference of a slot: lateral position for slots 0 and 1, 0.8 N for slot 4; the others' are not stated (free). -/
def State.planRef (s : State) (t k : Nat) (x32 : Bool) : Int × Bool :=
  if k ≤ 1 then (in16 x32 (s.lateral t), false)
  else if k = 4 then (in16 x32 800, false)
  else (in32 x32 (signed 32 s.free.toNat), true)

/-- A slot's feedforward: a measurement, or the planner's, which is not stated (free). -/
def State.feedforward (s : State) (t : Nat) (x32 : Bool) (code : Nat) : Int × Bool :=
  if code = 0x20 then (in32 x32 (signed 32 s.free.toNat), true) else s.measure t x32 code

/-- An output as Q1.15 (R297). -/
def outQ15 (x32 : Bool) (v : Int) : Int := if x32 then (saturate false (roundShift 16 v)).1 else v

/-- Two enabled slots name the same AUX output: the higher-numbered one is not sent (R299). -/
def State.outConflict (s : State) (t k : Nat) : Bool :=
  let o := loopOutput (s.slot t k).w0
  loopEnable (s.slot t k).w0 && decide (0x10 ≤ o) &&
    (List.range k).any fun j => loopEnable (s.slot t j).w0 && loopOutput (s.slot t j).w0 == o

/-- A slot's output goes to its destination (Table 14-3, R294). -/
def State.sendOutput (s : State) (t k : Nat) : State :=
  let q : Nat → Int := fun j => outQ15 (loopX32 (s.slot t j).w0) (s.slot t j).out
  let put : State → Nat → Int → State := fun s f v => s.modGu t fun g => { g with drive := setDrive g.drive f (toField 16 v) }
  let reels : State → State := fun s =>
    let x : Nat → Int := fun j => in32 true ((s.slot t j).out * (if loopX32 (s.slot t j).w0 then 1 else 65536))
    let a := outQ15 true (saturate true (x 2 + x 4)).1
    let b := outQ15 true (saturate true (x 3 - x 4)).1
    (put (put s 2 a) 3 b).sendDrive t
  let o := loopOutput (s.slot t k).w0
  if k = 0 then (put s 0 (q 0)).sendDrive t
  else if k = 1 then (put s 1 (q 1)).sendDrive t
  else if k ≤ 4 then reels s
  else if 0x10 ≤ o && !s.outConflict t k then s.sendWord t xtAux (mkw [(0, o - 0x10), (16, toField 16 (q k))])
  else s

/-- Clears biquad states and e_prev, and I as well on a CLR_STATE (Table 14-5, R307). -/
def Slot.clearStates (z : Slot) (integ : Bool) : Slot := { z with biquads := [], ePrev := 0, integ := if integ then 0 else z.integ }

/-! ### The guard unit (R302, R303) -/

/-- The first condition of R302 that fails, as a LAST_CAUSE; 0 with the permit. Condition 2 is `SERVO_TIMEOUT`. -/
def State.permitCause (s : State) (t f0 f1 : Nat) : Nat :=
  let f := (s.tp t).fe
  let g := (s.tp t).gu
  let lim : Int := (g.cfg.toNat % 65536 : Nat)
  let tol := fld g.cfg 23 16
  let v := (s.mot t).vel.natAbs
  let dev := ((f.speedRaw : Int) - v).natAbs
  let far : Bool → Int → Bool := fun ok y => ok && decide (lim < ((y - s.lateral t).natAbs : Int))
  if (f0 = 1 && !f.v0) || (f1 = 1 && !f.v1) then 2
  else if far f.v0 f.y0 || far f.v1 f.y1 then 3
  else if tol * v < dev * 1000 then 4
  else if (s.upLanes t).isEmpty || (s.mot t).state == .stopping || !(s.mot t).state.moving ||
      (List.range 8).any (fun k => (s.slot t k).fault) then 5
  else if !(s.mot t).servoAcquired || (s.slot t 0).hold then 6
  else 0

/-- REOPEN, at least 8 (Table 14-8). -/
def Guard.reopen (g : Guard) : Nat := max 8 (fld g.cfg 31 24)

/-- A request of the write formatter for the separator at a write bit index: sent once the permit has held for REOPEN SERVO
words (R303). -/
def State.requestGate (s : State) (t wbi : Nat) : State :=
  let g := (s.tp t).gu
  if g.gate then s
  else if g.permit && g.reopen ≤ g.validRun then s.gateOpen t wbi
  else s.modGu t fun g => { g with openReq := some wbi }

/-- The permit falls: an open gate closes, and the writing in progress stops with it (R211, R248, R303). -/
def State.permitFalls (s : State) (t cause : Nat) : State :=
  if (s.tp t).gu.gate then (s.gateClose t cause).cutWrites t else s.gateClose t cause

/-- The permit after a SERVO word. -/
def State.guardWord (s : State) (t f0 f1 : Nat) : State :=
  let c := s.permitCause t f0 f1
  if c ≠ 0 then s.permitFalls t c
  else
    let s1 := s.modGu t fun g => { g with permit := true, validRun := g.validRun + 1 }
    match (s1.tp t).gu.openReq with
    | some w => if (s1.tp t).gu.reopen ≤ (s1.tp t).gu.validRun then s1.gateOpen t w else s1
    | none => s1

/-! ### Lost feedback (R304, R305, Table 14-5) -/

/-- Slot 0 resumes after eight valid frames within its 8 ms; slot 1 runs again with it. -/
def State.resumeServo (s : State) (t : Nat) : State :=
  ((s.modSlot t 0 fun z => { z.clearStates false with hold := false, stale := z.stale, missRun := 0, lastM := none, sameRun := 0 }).modSlot t 1
    fun z => { z with hold := false }).modMot t fun m => { m with holdRun := 0 }

/-- A reel tachometer is lost: the slot runs on the estimate, on back-EMF where the servo is lost too; with KE 0 the front-end
stops by itself. A hold of slot 0 ends without resumption or another attempt. -/
def State.reelLost (s : State) (t k : Nat) : State :=
  let noServo := (s.slot t 0).hold || !(s.mot t).servoAcquired
  let e := if k = 3 then (s.tp t).gu.bemfB else (s.tp t).gu.bemfA
  let s0 := if (s.slot t 0).hold then ((s.modSlot t 0 fun z => { z with hold := false }).modSlot t 1 fun z => { z with hold := false }).modMot t fun m =>
      { m with servoAcquired := false, acquireRun := 0, attempts := 0 } else s
  let s1 := (s0.modSlot t k fun z => { z with sensorless := true, bemf := noServo }).raise (evTp t 18)
  let s2 := if noServo && e.toNat % 65536 = 0 then s1.sendStop t false else s1
  s2.controlledStop t (.outOfService 4)

/-- A reel's tape-speed estimate is below 0.2 m/s (R306, Table 14-5). -/
def State.reelSlow (s : State) (t k : Nat) : Bool :=
  let z := s.slot t k
  let g := (s.tp t).gu
  let r := if k = 3 then g.ratioB else g.ratioA
  if z.bemf then decide (0 < r.toNat) && decide ((s.reelEstimate t (k == 3) true).natAbs * 65536 * 5 < r.toNat)
  else decide ((s.tp t).fe.speedRaw < 400)

/-- A sensorless stop ends once the estimate is slow: brakes applied, Out of Service. -/
def State.endSensorless (s : State) (t : Nat) : State :=
  match (s.mot t).state, (s.mot t).stopGoal with
  | .stopping, .outOfService c => s.enterOos t c
  | _, _ => s

/-- The decided response of a slot to staleness, freeze or a loop fault (Table 14-5). -/
def State.lostFeedback (s : State) (t k : Nat) : State :=
  match k with
  | 0 =>
    if (s.slot t 0).hold then s
    else
      (((s.gateClose t 6).cutWrites t).modSlot t 0 fun z => { z with hold := true, released := false, retries := 0 }).modSlot t 1
        (fun z => { z with hold := true }) |>.modMot t fun m => { m with holdRun := 0, attempts := 0 }
  | 1 =>
    ((s.modSlot t 1 fun z => { z with hold := true, fault := true, faults := wrapAdd z.faults 1 }).raise (evTp t 17)).controlledStop t (.outOfService 3)
  | 2 => s.reelLost t 2
  | 3 => s.reelLost t 3
  | 4 =>
    ((s.modSlot t 4 fun z => { z with hold := true, fault := true, faults := wrapAdd z.faults 1 }).raise (evTp t 19)).controlledStop t (.outOfService 5)
  | _ => (s.modSlot t k fun z => { z with hold := true }).raise (evTp t 17)

/-- A missed deadline (R304): the previous output is sent again; the third in a row on slot 0 or 4 is a loop fault. A slot in
hold or stale counts the miss and no more. -/
def State.deadlineMissed (s : State) (t k : Nat) : State :=
  let c := coreOf t
  let s1 := ((s.modSlot t k fun z =>
      { z with released := false, miss := true, misses := wrapAdd z.misses 1, missRun := if z.hold then z.missRun else z.missRun + 1 }).modCores
        fun m => Tab.set c { Tab.get {} m c with misses := wrapAdd (Tab.get ({} : Core) m c).misses 1 } m).raise (evTp t 20)
  let s2 := (s1.stat (stTp t 20) 1).sendOutput t k
  if (k = 0 || k = 4) && 3 ≤ (s2.slot t k).missRun && !(s2.slot t k).hold then
    (s2.modSlot t k fun z => { z with fault := true, missRun := 0, faults := wrapAdd z.faults (b2n (k == 0)) }).lostFeedback t k
  else s2

end Sys2Proof.Machine
end

