-- ==== Sys2Proof/Machine/Engine.lean ====
section
/-! DEFINITION. The control engine: SLOT_RELEASE, SLOT_JOB, DEADLINE_MISS, STALE_DETECT, SERVO_HOLD_TIMEOUT, SERVO_TIMEOUT,
SENSORLESS_STOP_LIMIT, COEF_COMMIT. -/

namespace Sys2Proof.Machine

/-- SLOT_RELEASE (R292, R304): a periodic job is released; one not yet started at its next release is skipped and counted. Slot
0 is released by SERVO words, and a suspended or held slot releases none. -/
def execSlotRelease (t k : Nat) (s : State) : Host.Outcome State Fault Refusal :=
  if k = 0 || 8 ≤ k || !s.slotRuns t k then commit s s
  else if (s.slot t k).released then commit s (((s.deadlineMissed t k).modSlot t k fun z => { z with released := true }).settle)
  else commit s (s.modSlot t k fun z => { z with released := true })

/-- The cost of a slot's job in CK_CTL cycles (R291). -/
def jobCycles (w0 : Word) : Nat := if loopX32 w0 then 30 + 10 * loopNbq w0 else 20 + 6 * loopNbq w0

/-- A job has run on its core (Table 14-9): its cycles count to the core's load, twice where the job was replayed; whether it was, and the
response of a job of slot 0, are free, as no row brings them. -/
def State.jobRan (s : State) (t k : Nat) : State :=
  let f := s.free
  let again := f.getLsbD 16
  s.take.modCores fun m =>
    let c : Core := Tab.get {} m (coreOf t)
    Tab.set (coreOf t)
      { c with busy := c.busy + jobCycles (s.slot t k).w0 * (1 + b2n again), replays := if again then wrapAdd c.replays 1 else c.replays,
               resp0 := if k = 0 && c.resp0.ult (f.setWidth 16) then f.setWidth 16 else c.resp0 } m

/-- SLOT_JOB (R294, R297 to R299, R305 to R307): coefficients committed take effect, then the job runs on the measurement, or on
the reel's estimate, and its output is sent. It starts only when its core has no released job of higher priority (R292); a slot that measures the output of a held
or suspended slot is held. -/
def execSlotJob (t k : Nat) (s : State) : Host.Outcome State Fault Refusal :=
  let z := s.slot t k
  if 8 ≤ k || !z.released || !s.slotRuns t k || s.jobAhead t k then commit s s
  else
    let code := loopInput z.w0
    let z1 := if z.pending then { (if z.clrState then z.clearStates true else z) with active := z.commitWords, pending := false } else z
    let x32 := loopX32 z.w0
    let m := if z.sensorless then (in32 x32 (s.reelEstimate t (k == 3) z.bemf * 2048), false) else s.measure t x32 code
    let s1 := if m.2 then s.take else s
    let r := if loopRef z.w0 then s1.planRef t k x32 else (0, false)
    let s2 := if r.2 then s1.take else s1
    let f := s2.feedforward t x32 (loopFf z.w0)
    let s3 := if f.2 then s2.take else s2
    let z2 := loopJob z1 m.1 r.1 f.1
    let z3 := { z2 with released := false, missRun := 0, lastM := some m.1, sameRun := if z.lastM = some m.1 then z.sameRun + 1 else 1 }
    let s4 := (((s3.modSlot t k fun _ => z3).sendOutput t k).jobRan t k).rearm t [0x10 + k]
    commit s (if z.sensorless && s4.reelSlow t k then (s4.endSensorless t).settle else s4)

/-- DEADLINE_MISS (R304). -/
def execDeadlineMiss (t k : Nat) (s : State) : Host.Outcome State Fault Refusal :=
  if k < 8 && (s.slot t k).released then commit s ((s.deadlineMissed t k).settle) else commit s s

/-- STALE_DETECT (R305, Table 14-5): STALE_N expected periods without a new value, or FREEZE_M identical measurements while the
output is beyond FREEZE_THR (below 0.5 m/s slots 0 to 3 are not watched). -/
def execStaleDetect (t k : Nat) (kind : StaleKind) (s : State) : Host.Outcome State Fault Refusal :=
  let z := s.slot t k
  if 8 ≤ k || !s.slotRuns t k then commit s s
  else match kind with
    | .stale =>
      commit s ((((s.modSlot t k fun z => { z with stale := true, stales := wrapAdd z.stales 1 }).stat (stTp t 21) 1).lostFeedback t k).settle)
    | .frozen =>
      let thr : Int := (loopFreezeThr z.w1 : Nat)
      let armed := k > 3 || decide (1000 ≤ (s.mot t).vel.natAbs)
      if armed && 0 < loopFreezeM z.w0 && loopFreezeM z.w0 ≤ z.sameRun && decide (thr < (z.out.natAbs : Int)) then
        commit s ((((s.modSlot t k fun z => { z with frozen := true, freezes := wrapAdd z.freezes 1, sameRun := 0 }).stat (stTp t 22) 1).lostFeedback t k).settle)
      else commit s s

/-- SERVO_HOLD_TIMEOUT (Table 14-5): slot 0 has not resumed within 8 ms: a controlled stop, then re-acquisition from the standby
point. -/
def execServoHoldTimeout (t : Nat) (s : State) : Host.Outcome State Fault Refusal :=
  if (s.slot t 0).hold then
    let s1 := ((s.modSlot t 0 fun z => { z.clearStates false with hold := false }).modSlot t 1 fun z => { z with hold := false }).modMot t fun m =>
      { m with servoAcquired := false, acquireRun := 0, attempts := 1 }
    commit s ((((s1.modSlot t 0 fun z => { z with retries := 1 })).controlledStop t .parked).settle)
  else commit s s

/-- SERVO_TIMEOUT (R302 condition 2, R327): no SERVO word for 1.5 T_F: the permit falls. -/
def execServoTimeout (t : Nat) (s : State) : Host.Outcome State Fault Refusal :=
  if s.tpExists t && (s.tp t).gu.permit then commit s ((s.permitFalls t 1).settle) else commit s s

/-- SENSORLESS_STOP_LIMIT (Table 14-5): 3 s after a tachometer or tension loss the brakes apply and the transport is Out of
Service. -/
def execSensorlessStopLimit (t : Nat) (s : State) : Host.Outcome State Fault Refusal :=
  let lost := (s.slot t 2).sensorless || (s.slot t 3).sensorless || (s.slot t 4).fault
  commit s (if lost then (s.endSensorless t).settle else s)

/-- CE_COEF_CTL.COMMIT (R307, R309): the shadow is checked; what passes is taken at the slot's next job, what fails changes nothing and
is named. A transport in reset discards the write (R382). -/
def State.coefCommit (s : State) (t k : Nat) (clrState : Bool) : State :=
  if !s.tpExists t || 8 ≤ k || (s.tp t).ld.resetting then s
  else
    let z := s.slot t k
    match coefFirstBad z.w0 z.shadow with
    | none => s.modSlot t k fun z => { z with pending := true, commitWords := z.shadow, clrState := clrState, err := false, errIdx := 0 }
    | some i => s.modSlot t k fun z => { z with err := true, errIdx := i }

/-- COEF_COMMIT. -/
def execCoefCommit (t k : Nat) (clrState : Bool) (s : State) : Host.Outcome State Fault Refusal := commit s (s.coefCommit t k clrState)

end Sys2Proof.Machine
end

