-- ==== Sys2Proof/Machine/OpsArb.lean ====
section
/-! DEFINITION. Fetching (R85), arbitration (R89 to R95, R98), segment requests (R152, R154, R156) and the checks made at dispatch
before a command's own (R104 steps 1 to 3). -/

namespace Sys2Proof.Machine

/-- A function's BARs answer: out of reset, PERST_N high, the early block in force, the function there and not in a reset. -/
def State.reach (s : State) (u : Nat) : Bool := s.on && s.pins.perstN && s.earlyDone && s.fnExists u && !(s.tn u).inFlr

/-- A TLP to the formatter begins the exit from PS3 (Table 16-6). -/
def State.tlp (s : State) : State := if s.pm.state = 3 then s.wake 3 else s

/-! ### Eligibility (R85, R93, R129, R155, R156, R236, R320) -/

/-- The first entry of a pair's SQ. -/
def QueuePair.head? (p : QueuePair) : Option SubEntry := p.ring.head?

/-- The sealing limits of R129 with the command's LEN added. -/
def State.sealRoom (s : State) (u len : Nat) : Bool :=
  decide (s.unsealedOf u + len ≤ 268435456) && decide (s.unsealedAll + len ≤ 536870912)

/-- A command that admits to a volume waits while its transport unloads (R320) or a closed gap entry waits for a segment (R236). -/
def State.admitOk (s : State) (e : SubEntry) : Bool :=
  match s.vol? e.vol with
  | some w => (s.mot w.transport).state != .unloading && w.gapWait.isEmpty
  | none => true

/-- The durable ring has room for a write's Durable records beside what fetched commands claim (R155); one that could never fit is fetched, to
fail. -/
def State.ringRoom (s : State) (n : Nat) : Bool :=
  decide (n = 0) || decide (ringSize < n) || decide (s.sachet.ringUsed + (s.arb.cmds.map fun c => c.ring).sum + n ≤ ringSize)

/-- The head entry may be fetched as far as the buffer is concerned; with BUFFER 0 nothing holds it (R85). -/
def State.bufferOk (s : State) (u : Nat) (p : QueuePair) (urgent : Bool) (e : SubEntry) : Bool :=
  !s.ready rdBUFFER ||
    ((!e.needsSegs || urgent || p.grant.isSome) && (e.op != 0x81 || urgent || s.sealRoom u e.len) &&
      (e.op != 0x81 || s.ringRoom p.ringNeed) &&
      (!(e.op == 0x81 || e.op == 0x84) || s.admitOk e))

/-- A burst of the tenant's round robin stands in this queue (R94). -/
def State.inBurst (s : State) (u q : Nat) : Bool := (s.tn u).wrr.queue == some q && decide (0 < (s.tn u).wrr.burst)

/-- The class a queue is arbitrated under: a burst in progress finishes under the class it began with (R98). -/
def State.classOf (s : State) (u q : Nat) (p : QueuePair) : QClass := if s.inBurst u q then (s.tn u).wrr.cls else p.sched.cls

/-- An I/O queue is eligible but for the urgent reserve. -/
def State.ioEligible (s : State) (u q : Nat) (p : QueuePair) : Bool :=
  q != 0 && !p.stopped && !p.deleting && p.cqFree && !(s.tn u).frz.frozen &&
    (match p.head? with
      | some e => s.bufferOk u p (s.classOf u q p == .urgent) e
      | none => false)

/-- The urgent reserve lets Urgent queues be served (R156). -/
def State.reserveOk (s : State) : Bool := !s.ready rdBUFFER || decide (16 ≤ s.bm.urgFree)

/-- Every queue pair as (tenant, queue, pair), in order of tenant and queue. -/
def State.pairs (s : State) : List (Nat × Nat × QueuePair) := s.tenants.flatMap fun t => t.2.qps.map fun p => (t.1, p.1, p.2)

/-- Urgent queues that could be fetched from. -/
def State.urgentReady (s : State) : List (Nat × Nat) :=
  (s.pairs.filter fun x => s.classOf x.1 x.2.1 x.2.2 == .urgent && s.ioEligible x.1 x.2.1 x.2.2).map fun x => (x.1, x.2.1)

/-- Eligible queues below the Urgent level of a tenant, the one whose burst runs on among them. -/
def State.tenantReady (s : State) (u : Nat) : List (Nat × QueuePair) :=
  (s.tn u).qps.filter fun p => s.classOf u p.1 p.2 != .urgent && s.ioEligible u p.1 p.2

/-- A burst ends early where its queue is not eligible at a decision (R94). -/
def State.endBursts (s : State) : State :=
  s.each (s.tenants.filter fun t => 0 < t.2.wrr.burst) fun s t =>
    if (s.tenantReady t.1).any fun p => s.inBurst t.1 p.1 then s
    else s.modTn t.1 fun x => { x with wrr := { x.wrr with burst := 0 } }

/-! ### Dispatch (R104 steps 1 to 3) -/

def adminOps : List Nat := [1, 2, 3, 4, 5, 6, 7, 8, 0x10, 0x11, 0x12, 0x18, 0x19, 0x20, 0x21, 0x22, 0x28, 0x29, 0x30]
def ioOps : List Nat := [0x81, 0x82, 0x83, 0x84, 0x85, 0x86, 0x87]

/-- A command that only the steward may issue (R75, Table 05-1), submitted by another tenant. -/
def stewardOnly (u : Nat) (e : SubEntry) : Bool :=
  let fid := fld e.w4 7 0
  let own := fld e.w4 11 8 == u
  u != 0 && (match e.op with
    | 0x20 | 0x21 | 0x22 | 0x28 | 0x29 | 0x30 => true
    | 0x06 => !(fid == 0x12 && own)
    | 0x07 => (fid == 0x10 || fid == 0x11 || fid == 0x12) && !own
    | _ => false)

/-- Actions of Transport Control, Lane Service and Channel Service (Tables 15-5, 13-9 and 12-3). -/
def actionKnown (e : SubEntry) : Bool :=
  match e.op with
  | 0x20 => decide (fld e.w4 15 8 ≤ 0x0A)
  | 0x21 => decide (fld e.w4 15 8 ≤ 4)
  | 0x22 => decide (fld e.w4 23 16 ≤ 3)
  | _ => true

/-- The checks at dispatch that no row of its own makes; a command that passes stands fetched. -/
def State.dispatch (s : State) (c : Cmd) : State :=
  let e := c.entry
  if !(if c.q = 0 then adminOps else ioOps).contains e.op then s.fail c Status.invalidOpcode
  else if stewardOnly c.u e then s.fail c Status.stewardOnly
  else match s.missing e with
    | some b => s.failNotReady c b
    | none => if actionKnown e then s else s.fail c Status.invalidField

/-! ### Withdrawing entries -/

/-- A request or grant of the lookahead entry is withdrawn (R97). -/
def State.withdraw (s : State) (u q : Nat) : State :=
  let p := s.qp u q
  let s1 := match p.grant, p.head? with
    | some g, some e => s.giveBack u e.op e.vol e.len g p.bound
    | _, _ => s
  s1.modQp u q fun x => { x with grant := none, bound := false, lookahead := false }

/-- A pair is being deleted: nothing more is fetched from it and its entries are discarded (R97). -/
def State.closePair (s : State) (u q : Nat) : State := (s.withdraw u q).modQp u q fun x => { x with deleting := true, ring := [] }

/-! ### Fetch (R85, R92) -/

/-- The Pruning level of a volume's transport (R117). -/
def State.levelOf (s : State) (vol : Nat) : Nat :=
  match s.vol? vol with
  | some w => (s.tp w.transport).gov.level
  | none => 0

/-- Fetches the head entry of a pair under a class: a CQ slot, the SQ head, the charge of an I/O queue that is not Urgent, and dispatch.
A grant that the entry of an Urgent queue still holds from another class is withdrawn first (R98). The idle interval of PS2 ends (Table 16-6). -/
def State.fetch (s0 : State) (u q : Nat) (cls : QClass) : State :=
  let urgent := q != 0 && cls == .urgent
  let s := if urgent then s0.withdraw u q else s0
  let p := s.qp u q
  match p.ring with
  | [] => s
  | e :: r =>
    let out := if urgent && e.op == 0x82 && s.ready rdBUFFER then min (ceilDiv e.len 65536) (min 16 s.bm.urgFree) else 0
    let hd := (p.sqHead + 1) % p.sqDepth
    let c : Cmd :=
      { id := s.arb.nextCmd, u := u, q := q, entry := e, sqhd := hd, level := s.levelOf e.vol, urgent := urgent, cls := cls,
        segs := if urgent then (out, 0) else p.grant.getD (0, 0), bound := p.bound, stage := .fetched,
        seqAt := ((s.vol? e.vol).map fun w => w.nextSeq - 1).getD 0, data := ⟨[], []⟩, pins := s.pinsFor u e,
        sachet := s.ready rdSACHET, ring := if q ≠ 0 && e.op = 0x81 then p.ringNeed else 0 }
    let s1 := s.modQp u q fun x =>
      { x with sqHead := hd, ring := r, lookahead := false, grant := none, bound := false, ringNeed := 0, reserved := x.reserved + 1 }
    let s2 := (s1.modArb fun a => { a with nextCmd := a.nextCmd + 1, cmds := a.cmds ++ [c] }).modPm fun p => { p with idle2 := 0 }
    let s3 := ((s2.stat (stTen u 0) 1).stat (stTen u 1) (b2n urgent)).modBm fun b => { b with urgFree := b.urgFree - out }
    let s4 := if q ≠ 0 && !urgent then
        (s3.modTn u fun x => { x with deficit := x.deficit - (e.cost : Int) }).stat (stTen u 14) e.cost
      else s3
    s4.dispatch c

/-! ### Decisions -/

/-- Set Queue Class takes effect at a decision (R98): a burst in progress runs to its end under the class it began with; what is left of
the visit follows the new weight, or ends where the class changed. The lookahead entry of a queue made Urgent gives its grant back. -/
def State.applyClasses (s : State) : State :=
  s.each s.pairs fun s x =>
    match x.2.2.next with
    | none => s
    | some n =>
      let old := x.2.2.sched
      let s0 := if n.cls == .urgent && old.cls != .urgent && !s.inBurst x.1 x.2.1 then s.withdraw x.1 x.2.1 else s
      let s1 := s0.modQp x.1 x.2.1 fun p => { p with sched := n, next := none }
      if (s1.tn x.1).wrr.queue = some x.2.1 then
        s1.modTn x.1 fun t => { t with wrr := { t.wrr with
          grants := if old.cls = n.cls then n.weight - (old.weight - t.wrr.grants) else 0 } }
      else s1

/-- The first of an ascending list at or after a position, else its first. -/
def pickFrom (ptr : Nat) (l : List Nat) : Option Nat :=
  match l.find? fun k => decide (ptr ≤ k) with
  | some k => some k
  | none => l.head?

/-- Whole rounds in which a balance stays at or below 0: it rises by the quantum at each. -/
def drrRounds (d : Int) (quantum : Nat) : Nat := if 0 ≤ d then 0 else (-d).toNat / quantum

/-- The balances after `n` whole rounds in which no tenant is served: an eligible tenant gains its quantum each time, any other falls to
0 (R92). -/
def drrSkip (elig : Nat → Bool) (quantum : Nat → Nat) (n : Nat) (ds : List Int) : List Int :=
  if n = 0 then ds
  else (List.range 16).map fun u => if elig u then ds.getD u 0 + (n * quantum u : Nat) else 0

/-- Deficits from tenant `t` on until one with an eligible command has a balance above 0 (R92). -/
def drrSeek (elig : Nat → Bool) (quantum : Nat → Nat) : Nat → Nat → List Int → Nat × List Int
  | 0, t, ds => (t, ds)
  | n + 1, t, ds =>
    if elig t then
      let d := ds.getD t 0 + (quantum t : Int)
      if 0 < d then (t, ds.set t d) else drrSeek elig quantum n ((t + 1) % 16) (ds.set t d)
    else drrSeek elig quantum n ((t + 1) % 16) (ds.set t 0)

/-- The place of a queue in a tenant's round: High, Medium, Low, then queue ID (R94). -/
def QSched.rank (c : QSched) : Nat :=
  match c.cls with
  | .high => 0
  | .medium => 1
  | _ => 2

/-- Serves one entry of a tenant's turn (R94): the burst in progress, the next grant of the visit, or the next queue of the round. -/
def State.serveTenant (s : State) (u : Nat) : State :=
  let w := (s.tn u).wrr
  let l := s.tenantReady u
  let on := fun (q : Nat) => l.any fun p => p.1 == q
  let go : Wrr → Nat → QClass → State := fun w q cls => (s.modTn u fun x => { x with wrr := w }).fetch u q cls
  let q0 := w.queue.getD 0
  if w.queue.isSome && 0 < w.burst && on q0 then go { w with burst := w.burst - 1 } q0 w.cls
  else
    let sched := fun (q : Nat) => (s.qp u q).sched
    if w.queue.isSome && 0 < w.grants && on q0 then
      go { w with cls := (sched q0).cls, grants := w.grants - 1, burst := (sched q0).burst - 1 } q0 (sched q0).cls
    else
      let ks := (l.map fun p => 256 * p.2.sched.rank + p.1).mergeSort
      match pickFrom w.pos ks with
      | some k =>
        let c := sched (k % 256)
        go { queue := some (k % 256), pos := k + 1, cls := c.cls, grants := c.weight - 1, burst := c.burst - 1 } (k % 256) c.cls
      | none => s

/-- The deficit round robin (R92): the turn in progress goes on, or the round moves to the next tenant with a balance; with no
eligible command anywhere every balance falls to 0 as the round passes. Where the round stands after such a decision the spec does not
say: DESIGN CHOICE, at the tenant last in turn (assumption 61). -/
def State.drrDecision (s : State) : State :=
  let elig := fun (u : Nat) => !(s.tenantReady u).isEmpty
  let t := s.arb.tenant
  let burst := (s.tenantReady t).any fun p => s.inBurst t p.1
  if s.arb.inTurn && (burst || (decide (0 < (s.tn t).deficit) && elig t)) then s.serveTenant t
  else
    let put : List Int → State := fun ds => s.modTenants fun m => m.map fun p => (p.1, { p.2 with deficit := ds.getD p.1 0 })
    if (List.range 16).any elig then
      let ds := (List.range 16).map fun u => (s.tn u).deficit
      let quantum := fun (u : Nat) => (s.tenCfg u).weight * 4096
      let n := (((List.range 16).filter elig).map fun u => drrRounds (ds.getD u 0) (quantum u)).min?.getD 0
      let r := drrSeek elig quantum 16 (if s.arb.inTurn then (t + 1) % 16 else t) (drrSkip elig quantum n ds)
      ((put r.2).modArb fun a => { a with tenant := r.1, inTurn := true }).serveTenant r.1
    else (put []).modArb fun a => { a with inTurn := false }

/-- The decision is given the durable-ring bytes of the first entries. -/
def State.noteRing (s : State) (ring : List (Nat × Nat × Nat)) : State :=
  s.each s.pairs fun s x => s.modQp x.1 x.2.1 fun p => { p with ringNeed := match ring.find? fun r => r.1 == x.1 && r.2.1 == x.2.1 with
    | some r => r.2.2
    | none => 0 }

/-- One I/O decision: the Urgent level first (R89, R91), then the tenants. -/
def State.ioDecision (s : State) : State :=
  let s1 := s.applyClasses.endBursts
  let l := s1.urgentReady
  if !l.isEmpty && s1.reserveOk then
    match pickFrom (256 * s1.arb.urgTenant + s1.arb.urgQueue) (l.map fun x => 256 * x.1 + x.2) with
    | some k =>
      (s1.modArb fun a => { a with urgTenant := (k + 1) / 256 % 16, urgQueue := (k + 1) % 256 }).fetch (k / 256) (k % 256) .urgent
    | none => s1
  else (if l.isEmpty then s1 else s1.modBm fun b => { b with waitUrg := min (2 ^ 32 - 1) (b.waitUrg + 1) }).drrDecision

/-- Tenants that exist whose admin SQ may be served: one admin command of a tenant executes at a time (R90). -/
def State.adminReady (s : State) : List Nat :=
  (s.tenants.filter fun t => s.fnExists t.1 && t.2.qps.any (fun p => p.1 == 0 && !p.2.stopped && !p.2.deleting && p.2.cqFree && !p.2.ring.isEmpty) &&
    !s.arb.cmds.any (fun c => c.u == t.1 && c.q == 0)).map fun t => t.1

def State.adminDecision (s : State) : State :=
  match pickFrom s.arb.admin s.adminReady with
  | some u => (s.modArb fun a => { a with admin := (u + 1) % 16 }).fetch u 0 .medium
  | none => s

/-! ### The allocator (R152, R154, R156, R167) -/

/-- Requests by requester ID: queues that are not Urgent whose head entry needs segments and has no grant. -/
def State.requests (s : State) : List Nat :=
  (s.pairs.filter fun x => x.2.1 != 0 && s.classOf x.1 x.2.1 x.2.2 != .urgent && !x.2.2.stopped && !x.2.2.deleting && x.2.2.grant.isNone &&
    (match x.2.2.head? with
      | some e => e.needsSegs
      | none => false)).map fun x => 256 * x.1 + x.2.1

/-- Segments that an entry needs (R152). -/
def State.segsFor (s : State) (e : SubEntry) : Nat :=
  if e.op = 0x81 then
    match s.vol? e.vol with
    | some w => ceilDiv (e.len - w.free) 65536
    | none => ceilDiv e.len 65536
  else min (ceilDiv e.len 65536) 64

/-- Decides one request: the whole count from the shared pool and then the floor, or nothing. A write's segments join its volume's
storage, where its LEN is claimed. -/
def State.decideRequest (s : State) (u q : Nat) (e : SubEntry) : State :=
  let n := s.segsFor e
  let fl := Tab.get 0 s.bm.floorFree u
  let s0 := s.modQp u q fun p => { p with lookahead := true }
  if n ≤ s.bm.sharedFree + fl then
    let a := min n s.bm.sharedFree
    let s1 := (s0.modBm fun b => { b with sharedFree := b.sharedFree - a, floorFree := Tab.set u (fl - (n - a)) b.floorFree }).stat (stDev 2) n
    let bound := e.op == 0x81 && (s1.vol? e.vol).isSome
    let s2 := if bound then s1.modVol e.vol fun w => { w.addSegs n with claimed := w.claimed + e.len } else s1
    s2.modQp u q fun p => { p with grant := some (a, n - a), bound := bound }
  else ((s0.modBm fun b => { b with waitReq := min (2 ^ 32 - 1) (b.waitReq + 1) }).stat (stDev 3) 1).stat (stTen u 12) 1

/-- One decision of the allocator: a refill of the urgent reserve comes first. -/
def State.allocate (s : State) : State :=
  let b := s.bm
  if b.urgFree < 1024 && 0 < b.sharedFree then
    let m := min (1024 - b.urgFree) b.sharedFree
    s.modBm fun b => { b with urgFree := b.urgFree + m, sharedFree := b.sharedFree - m }
  else match pickFrom b.pointer s.requests with
    | none => s
    | some k =>
      match (s.qp (k / 256) (k % 256)).head? with
      | some e => (s.modBm fun b => { b with pointer := (k + 1) % 4096 }).decideRequest (k / 256) (k % 256) e
      | none => s

/-- An ignored doorbell write (R83): the event, and an Error Log entry whose failing address, a bus address, is not the formatter's
to know (a free value). -/
def State.doorbellInvalid (s : State) (u q : Nat) : State :=
  (((s.raise (evTen u 0)).stat (stTen u 13) 1).take).logError u Status.doorbellInvalid { sqid := q, detail := s.free }

/-! ### The virtual functions go (R66, R74) -/

/-- VF Enable goes to 0: the virtual functions are gone, with their queues, logs and commands; their GEN stays. -/
def State.dropVfs (s : State) : State :=
  let s1 := s.each (s.cmdsWhere fun c => c.u != 0) fun s c => s.dropCmd c.id
  let s2 := s1.each (s1.pairs.filter fun x => x.1 != 0) fun s x => s.withdraw x.1 x.2.1
  (s2.modTenants fun m => m.map fun p => if p.1 = 0 then p else (p.1, { gen := p.2.gen, pruneLog := p.2.pruneLog })).modDev fun d =>
    { d with vfEnable := false }

end Sys2Proof.Machine
end

