-- ==== Sys2Proof/Machine/OpsGov.lean ====
section
/-! DEFINITION. Pressure (R153), the speed governor (R226 to R229, R231), Pruning levels (R234) and starts (R232). Pressure, rates and
thresholds are compared as exact fractions. -/

namespace Sys2Proof.Machine

/-! ### Pressure (R153) -/

/-- C_t: the transport's buffer capacity. -/
def State.capacity (s : State) : ℚ := (bufBytes s.cfg : ℚ) / (s.tpList.length : ℚ)

/-- Pressure of transport `t`: the larger of P_t / C_t and the fraction of the shared pool in use. -/
def State.pressure (s : State) (t : Nat) : ℚ :=
  max ((s.pendingOf t : ℚ) / s.capacity) (((s.bm.shared - s.bm.sharedFree : Nat) : ℚ) / (s.bm.shared : ℚ))

/-- Pressure in percent as BM_PRESS reports it: rounded down, held at 100. -/
def State.pressPct (s : State) (t : Nat) : Nat := min 100 (s.pressure t * 100).floor.toNat

/-- Pressure has reached a percentage. -/
def State.pressAt (s : State) (t pct : Nat) : Bool := decide ((pct : ℚ) / 100 ≤ s.pressure t)

/-! ### Rates and targets (R226 to R228, R231) -/

/-- PRN for a transport: an overridden W1 is in use from the next dataset boundary on (Table 04-18). -/
def State.prnOf (s : State) (t : Nat) : PrnCfg :=
  match (s.tp t).gov.prnUse with
  | some o => { s.cfg.prn with spdIntMs := o.spdIntMs, avgMs := o.avgMs, margin := o.margin, burst := o.burst }
  | none => s.cfg.prn

/-- Inflow in bytes per second: what was offered in the last AVG_MS (R226). -/
def State.inflow (s : State) (t : Nat) : ℚ :=
  (((s.tp t).gov.offeredMs.take (s.prnOf t).avgMs).sum : ℚ) * 1000 / ((s.prnOf t).avgMs : ℚ)

/-- Bytes offered to a transport's volumes since the last evaluation. -/
def State.offer (s : State) (t n : Nat) : State := s.modGov t fun g => { g with offered := g.offered + n }

/-- Positions per track under the mask in force. -/
def State.posNow (s : State) (t : Nat) : Nat := positions (activeTracks (s.trackMask t)).length

/-- r_i in bytes per second (R227). -/
def State.rate (s : State) (t i : Nat) : ℚ :=
  ((4 + i : Nat) : ℚ) / 2 * 25000000 * 571200 / ((2176 + 2224 * s.posNow t : Nat) : ℚ)

/-- The ceiling: MAX_SPEED, and index 6 under the thermal limit (R228). -/
def State.ceiling (s : State) (t : Nat) : Nat :=
  let m := (s.tp t).gov.maxUse.getD (s.trnCfg t).maxSpeed
  if s.therm.limit then min 6 m else m

/-- The target index (R228); index 0 in burst mode outside drain (R231). -/
def State.goalOf (s : State) (t : Nat) : Nat :=
  let g := (s.tp t).gov
  let top := s.ceiling t
  if g.drain then top
  else if g.burst then 0
  else ((List.range top).find? fun i => decide (s.inflow t * ((s.prnOf t).margin : ℚ) / 1000 ≤ s.rate t i)).getD top

/-- The Pruning level after an evaluation (R234): it rises to the highest level whose threshold pressure has reached, and falls past
each threshold that pressure has left by HYST_PCT. -/
def State.levelAfter (s : State) (t : Nat) : Nat :=
  let p := s.cfg.prn
  let pct := fun (n : Nat) => if n = 1 then p.l1 else if n = 2 then p.l2 else p.l3
  let up := ([3, 2, 1].find? fun n => s.pressAt t (pct n)).getD 0
  let keep := ([3, 2, 1].find? fun n => decide (n ≤ (s.tp t).gov.level) && s.pressAt t (pct n - p.hyst)).getD 0
  max up keep

/-! ### Starts of a transport at rest (R232) -/

/-- A Flush waits on one of the transport's volumes. -/
def State.flushWaits (s : State) (t : Nat) : Bool :=
  s.arb.cmds.any fun c => s.cmdTp c == some t && (match c.stage with
    | .flushing _ => true
    | _ => false)

/-- A start is due: in burst mode by R232; out of it whenever the transport stands. -/
def State.startDue (s : State) (t : Nat) : Bool :=
  !(s.tp t).gov.burst || decide ((s.trnCfg t).bstart * 1048576 ≤ s.pendingOf t) || s.pressAt t s.cfg.prn.l1 || s.flushWaits t ||
    (s.fmt t).sets.any fun d => d.retryDue

/-- A motion may start: a lane is Up, no shutdown, no quiesce, no excursion under way. -/
def State.mayMove (s : State) (t : Nat) : Bool :=
  s.tpExists t && !(s.upLanes t).isEmpty && !s.therm.shut && s.dev.quiesced == 0 && (s.mot t).exc.isNone

/-- The cartridge takes data. -/
def State.writable (s : State) (t : Nat) : Bool :=
  !(s.fmt t).halted && !(s.dir t).locked && !(s.tp t).vfy.unwritable && !(s.tp t).ld.dirUnreadable

/-- The transport starts toward the append point: at once from Parked, from Relaxed once both brakes count as released. -/
def State.beginWrite (s : State) (t : Nat) : State :=
  let s1 := s.modGov t fun g => { g with speed := if g.burst && !g.drain then 0 else min g.goal (s.ceiling t) }
  match (s.mot t).state with
  | .parked => s1.startWrite t
  | .relaxed => if (s.mot t).starting.isSome then s else (s1.brakesOff t).modMot t fun m => { m with starting := some .burst }
  | _ => s

/-! ### One evaluation (R153, R226, R228, R229, R231, R234) -/

/-- Pressure, inflow, level, drain, burst mode and target of one transport, 1 ms after the evaluation before. -/
def State.evaluate (s : State) (t : Nat) : State :=
  let s1 := s.modGov t fun g => { g with offeredMs := (g.offered :: g.offeredMs).take 2000, offered := 0 }
  let lv := s1.levelAfter t
  let p := s1.prnOf t
  let was := (s1.tp t).gov
  let drain := if was.drain then s1.pressAt t (p.l1 - p.hyst) else s1.pressAt t p.l1
  let burst := if was.burst then decide (s1.inflow t < s1.rate t 0) else decide (s1.inflow t < s1.rate t 0 * (p.burst : ℚ) / 1000)
  let s2 := s1.modGov t fun g =>
    { g with pressure := s1.pressPct t, pressPending := ceilDiv (s1.pendingOf t) 65536, inflow := (s1.inflow t).floor.toNat, level := lv,
             drain := drain, burst := burst, entryRaise := g.entryRaise || (drain && !g.drain) }
  let goal := s2.goalOf t
  let s3 := s2.modGov t fun g =>
    { g with goal := goal, sinceChange := g.sinceChange + 1, lowFor := if goal < g.speed then g.lowFor + 1 else 0,
             lowMax := if goal < g.speed then max g.lowMax goal else 0 }
  let s4 := if lv = was.level then s3 else s3.raise (evTp t 11)
  let s5 := (s4.peak (stTp t 23) (s1.pressPct t)).stat (stTp t 24) (b2n (decide (0 < lv)))
  let st := (s5.mot t).state
  if !burst && (st == .parked || st == .relaxed) && s5.mayMove t && s5.writable t && (s5.tp t).ld.cart.isSome then s5.beginWrite t else s5

/-- The speed index for the next separator (R229): a raise at once on entry to drain, else SPD_INT_MS after the last change; a lowering
when the target has stayed below for SPD_INT_MS, to the highest target of that time; a lowered ceiling at once. -/
def State.nextSpeed (s : State) (t : Nat) : Nat :=
  let g := (s.tp t).gov
  let n := (s.prnOf t).spdIntMs
  let cap := s.ceiling t
  let goal := min g.goal cap
  if cap < g.speed then cap
  else if g.speed < goal && (g.entryRaise || n ≤ g.sinceChange) then goal
  else if goal < g.speed && n ≤ g.lowFor && n ≤ g.sinceChange then min g.lowMax g.speed
  else g.speed

end Sys2Proof.Machine
end

