-- ==== Sys2Proof/Machine/OpsImage.lean ====
section
/-! DEFINITION. The image: loading it (R64 to R68), safe mode (R66), writing and checking a copy
(R69, R70). -/

namespace Sys2Proof.Machine

/-! ### Tamper effects (R18, R19) -/

/-- An assertion of a Tamper input: event, statistics, and an entry in the chain of every online volume (R18, R187). -/
def State.tamperEffects (s : State) (pin : Nat) : State :=
  ((s.raise evTamper).stat (stDev 19) 1).each s.vols fun s p =>
    s.raiseChain p.1 { kind := 1, gpio := pin, count := 1, time := (s.dir p.2.transport).time, epoch := s.stats.epoch, ref := 0 }

/-- FUNC and POL of a GPIO in force: 0 until a full image has loaded after POR_N (R17), the old values through a PERST_N and its reload
(R19), whatever is written to CF_GPIO meanwhile. -/
def Gpio.func (g : Gpio) (n : Nat) : Nat := (g.inForce >>> (8 * n)).toNat % 8
def Gpio.pol (g : Gpio) (n : Nat) : Bool := g.inForce.getLsbD (8 * n + 3)
/-- Whether a Tamper input is asserted by its pin's level and polarity (R17). -/
def Gpio.asserted (g : Gpio) (n : Nat) : Bool := g.level.getLsbD n != g.pol n

/-! ### Loading (R64 to R68) -/

/-- Safe mode (R66): the PF alone, no lane or transport, RWL at their reset values, IMAGE 0. A Tamper input loses its debounce, and
what a virtual function had is gone with it. An early block accepted before stays the one that Image Activate compares with
(assumption 72). -/
def State.enterSafe (s : State) : State :=
  ((s.dropVfs.modImage fun i => { i with safe := true, loaded := false, early := default, img := default, cfg := default }).modDev fun d =>
    { d with vfEnable := false, numVfs := 0 }).modGpio fun g => { g with rwl := 0, inForce := 0, debounce := [] }

/-- The header and early block of a copy: what a load checks within its first 2 ms (R64). -/
def State.earlyOf (s : State) (fails : List NvmFail) (b : Bool) : Except ImgFail (Bytes × EarlyCfg) :=
  let bad := match failAt fails b with
    | some o => decide (o < 0x1040)
    | none => false
  if bad then .error (0x0F, (failAt fails b).getD 0)
  else
    match chkHeader s.fuses.keyHash.isSome (s.copyBytes b 0x40) with
    | .error e => .error e
    | .ok _ =>
      let eb := slice (s.copyBytes b 0x1040) 0x40 0x1000
      match chkEarly eb with
      | .error e => .error e
      | .ok c => .ok (eb, c)

/-- GPIO functions and polarities from an image (R19): a Tamper input that stays one keeps its debounce, a new one, or one whose
polarity changes (assumption 71), starts its debounce. -/
def Gpio.load (g : Gpio) (cfg : BitVec 32) : Gpio :=
  let g1 := { g with rwl := cfg &&& 0x0F0F0F0F, inForce := cfg &&& 0x0F0F0F0F }
  { g1 with debounce := ((List.range 4).filter fun n => g1.func n == 1).map fun n =>
      (n, if Tab.has g.debounce n && g.pol n == g1.pol n then Tab.get {} g.debounce n else { running := g1.asserted n, armed := true }) }

/-- Settings are delivered to every unit (R65, R67, R68): registers from the image, events' routes and enables (R336), GPIO,
the links of the cores that are not held (R39), and the shadow in Sachet. -/
def State.deliver (s : State) (g : Settings) : State :=
  let s1 := s.modImage fun i => { i with img := g, cfg := g, loaded := true }
  let s2 := if s1.ready rdSACHET then s1.shadowImage g else s1
  let s3 := s2.each g.evt fun s e => (s.modEvSrc e.event fun x => { x with owner := e.owner, vector := e.vector }).setEna e.event e.enable
  let s4 := (s3.modStats fun x => { x with epochMs := g.epochMs, nextMs := g.epochMs }).modGpio fun p => p.load g.gpio
  let s5 := s4.each (g.tpList.filter fun t => !s4.dev.ctlPending.getLsbD (coreOf t)) fun s t =>
    (s.startLink t).modGov t fun x => { x with goal := 0 }
  s5.setReady rdIMAGE true

/-- A full load ends (R65, R71): copy A, else copy B with its event, else safe mode; codes and offsets are recorded. Copy A is not read
again where its header or early block has failed already (R64): its first failure stands. -/
def State.loadImage (s : State) (fails : List NvmFail) : State :=
  let chk := fun (b : Bool) => chkCopy s.fuses.keyHash (some s.image.earlyBytes) (failAt fails b) (s.copyBytes b)
  match (if s.image.earlyFrom = some true then .error (s.image.aCode, s.image.aOff) else chk false) with
  | .ok x => (s.modImage fun i => { i with aCode := 0, bCode := 0xFF, aOff := 0, bOff := 0, sigChecked := x.sigOk, copyB := false }).deliver x.settings
  | .error a =>
    match chk true with
    | .ok x =>
      ((s.modImage fun i => { i with aCode := a.1, aOff := a.2, bCode := 0, bOff := 0, sigChecked := x.sigOk, copyB := true }).deliver x.settings).raise
        evImageFallback
    | .error b => (s.modImage fun i => { i with aCode := a.1, aOff := a.2, bCode := b.1, bOff := b.2 }).enterSafe

/-- A load is still reading the NVM (R72). -/
def State.loading (s : State) : Bool := !s.image.loaded && !s.image.safe

/-! ### Image Write and Image Activate (R69, R70) -/

/-- What stands from the piece's offset on when `pages` of its pages of 256 bytes are programmed (R69, R73): each sector is erased
before its pages, so the rest of the sector in progress reads erased, and later sectors are untouched. -/
def imagePages (data : Bytes) (pages : Nat) : Bytes :=
  let done := data.take (256 * pages)
  done ++ List.replicate (min data.length (65536 * (pages / 256 + 1)) - done.length) 0xFF

/-- Programs one piece of a copy: the whole of it, or, where PFAIL_N or PERST_N arrives first, `cut` pages, after which the command is
abandoned with no completion (R73). -/
def State.doImageWrite (s : State) (c : Cmd) (cut : Option Nat) : State :=
  let e := c.entry
  let off := fld e.w4 63 32
  let ok := e.headOk false false && e.dataOk c.data && fld e.w4 31 1 == 0 && zeros [e.w5, e.w6, e.w7] && off % 65536 == 0 &&
    decide (off < 16777216) && e.len % 65536 == 0 && decide (65536 ≤ e.len) && decide (e.len ≤ 1048576) && decide (off + e.len ≤ 16777216)
  let base := copyBase (bit e.w4 0) + off
  if !ok then s.fail c Status.invalidField
  else match cut with
    | none => (s.modImage fun i => { i with nvm := nvmWrite base (hostBytes e c.data) i.nvm }).succeed c
    | some k => (s.modImage fun i => { i with nvm := nvmWrite base (imagePages (hostBytes e c.data) k) i.nvm }).dropCmd c.id

/-- The copy the next reset will load (R65, R71), where one will. -/
def State.nextLoad (s : State) (fails : List NvmFail) : Option Bool :=
  let chk := fun (b : Bool) (f : Option Bytes) => (chkCopy s.fuses.keyHash f (failAt fails b) (s.copyBytes b)).toOption.isSome
  if chk false none then some false
  else if chk true ((s.earlyOf fails false).toOption.map (·.1)) then some true
  else none

/-- Checks a copy as a load would, against the early block in force; NEXT_COPY is a free bit where no copy would load. In safe mode an
early block that had been accepted counts as in force (assumption 72). -/
def State.doImageActivate (s : State) (c : Cmd) (fails : List NvmFail) : State :=
  let e := c.entry
  if !(e.headOk false false && e.noData && fld e.w4 63 1 == 0 && zeros [e.w5, e.w6, e.w7]) then s.fail c Status.invalidField
  else
    let b := bit e.w4 0
    let r := chkCopy s.fuses.keyHash (if s.image.earlyFrom.isSome then some s.image.earlyBytes else none) (failAt fails b) (s.copyBytes b)
    let (s1, nxt) := match s.nextLoad fails with
      | some x => (s, x)
      | none => (s.take, s.free.getLsbD 0)
    let s2 := s1.modImage fun i => { i with nextCopy := nxt }
    match r with
    | .ok x => s2.succeed c (mkw [(8, b2n nxt), (9, b2n x.sigOk)])
    | .error f => s2.complete c Status.imageCheckFailed { result := mkw [(0, f.1), (8, b2n nxt), (32, f.2)] }

/-- The commands that waited for the load run, in fetch order (R72). -/
def State.runAfterLoad (s : State) (fails : List NvmFail) : State :=
  s.each (s.cmdsWhere fun c => c.stage == .afterLoad) fun s c => if c.entry.op = 0x28 then s.doImageWrite c none else s.doImageActivate c fails

/-- The oldest image command not yet executed: they run one at a time in fetch order (R72). -/
def State.imageCmd (s : State) (op : Nat) : Option Cmd :=
  match s.fetched fun c => c.u == 0 && c.q == 0 && (c.entry.op == 0x28 || c.entry.op == 0x29) with
  | some c => if c.entry.op = op then some c else none
  | none => none

/-- A command with its host data waits for the load. -/
def State.waitLoad (s : State) (c : Cmd) (h : HostData) : State :=
  s.modArb fun a => { a with cmds := a.cmds.map fun x => if x.id == c.id then { x with stage := .afterLoad, data := h } else x }

end Sys2Proof.Machine
end

