-- ==== Sys2Proof/Machine/OpsReplay.lean ====
section
/-! DEFINITION. A volume comes online (R107) and its Durable records are replayed from the ring (R166). -/

namespace Sys2Proof.Machine

/-- H_0 of a volume's chain (R185): SHA-256 of "TLYCHAIN" and the UUID. -/
def chainStart (uuid : BitVec 128) : Bytes := sha256 ([0x54, 0x4C, 0x59, 0x43, 0x48, 0x41, 0x49, 0x4E] ++ uuidBytes uuid)

/-- The directory's volume of a UUID, with its slot. -/
def dirFind (d : Directory) (uuid : BitVec 128) : Option (Nat × DirVolume) := d.vols.find? fun p => p.2.used && decide (p.2.uuid = uuid)

/-- `n` segments for a volume from the shared pool and then its tenant's floor, all or none. -/
def State.grow (s : State) (h n : Nat) : Option State :=
  match s.vol? h with
  | none => none
  | some w =>
    let fl := Tab.get 0 s.bm.floorFree w.tenant
    if n ≤ s.bm.sharedFree + fl then
      let a := min n s.bm.sharedFree
      some (((s.modBm fun b => { b with sharedFree := b.sharedFree - a, floorFree := Tab.set w.tenant (fl - (n - a)) b.floorFree }).stat
        (stDev 2) n).modVol h fun w => w.addSegs n)
    else none

/-- A record enters the buffer and the stream of its volume under its number. -/
def State.storeRecord (s : State) (h seq : Nat) (rec : Bytes) (urgent : Bool) : State :=
  s.modVol h fun w =>
    let w0 := wordAt rec 0
    w.append { seq := some seq, bytes := rec, start := 0, place := 0, tag := fld w0 47 32, time := (wordAt rec 8).toNat, durable := bit w0 50,
               mark := bit w0 51, gen := (s.tn w.tenant).gen, urgent := urgent } seq

/-- Replays the Durable records of an online volume in order, as far as the buffer takes them; an encrypted volume's wait for its key. -/
def State.tryReplay : Nat → Nat → State → State
  | 0, _, s => s
  | n + 1, h, s =>
    match s.vol? h with
    | none => s
    | some w =>
      match w.replay with
      | [] => s
      | (seq, rec) :: r =>
        if !s.ready rdBUFFER || (w.encrypt && w.key.isNone) then s
        else match s.grow h (ceilDiv (rec.length - w.free) 65536) with
          | none => s
          | some s1 => State.tryReplay n h ((s1.modVol h fun w => { w with replay := r }).storeRecord h seq rec false)

/-- Every volume's replay goes on. -/
def State.replayAll (s : State) : State :=
  s.each s.vols fun s p => if p.2.replay.isEmpty then s else State.tryReplay p.2.replay.length p.1 s

/-- The volume that comes online from its directory entry; its records held in the ring are to be replayed. -/
def State.onlineVolume (s : State) (t vidx : Nat) (d : DirVolume) : Volume :=
  let held := s.sachet.ring.filter fun e => decide (e.uuid = d.uuid) && e.held.isSome && !e.done
  let rs := ((held.filter fun e => e.crcOk).map fun e => (e.seq, e.body)).mergeSort fun a b => a.1 ≤ b.1
  let w : Volume :=
    { uuid := d.uuid, tenant := d.tenant, transport := t, vidx := vidx, encrypt := d.encrypt, strict := d.strict, hold := d.hold,
      retention := d.retention, nextSeq := d.nextSeq, acked := d.nextSeq - 1, verified := 0, kcv := d.kcv, chainN := d.chainN, chainH := d.h,
      chainWait := d.waiting, pruned := d.pruned, markSeqs := d.markSeqs, marks := d.marks, replay := rs,
      replayLoss := held.foldl (fun m e => max m (e.held.getD 0)) 0 }
  { w with verified := w.vNow }

end Sys2Proof.Machine
end

