-- ==== Sys2Proof/Machine/OpsLoad.lean ====
section
/-! DEFINITION. The load sequence (R319, Table 15-4): its steps, the choice of a directory and the end-of-data scan (R212, R215,
R217), and what a loss leaves to be done at a load (R166, R188). -/

namespace Sys2Proof.Machine

/-! ### Datasets a reader keeps (R216) -/

/-- One dataset per DSN of a list in which the copies of one stand together. -/
def oncePerDsn : List Dataset → List Dataset
  | [] => []
  | x :: r =>
    let q := oncePerDsn r
    match q with
    | y :: _ => if x.dsn = y.dsn then q else x :: q
    | [] => [x]

/-- Where a dataset stands in the order of R216: at its DSN, and one that repeats another (REWRITE) where that stood, since no block's bytes
would join otherwise (R190; assumption 82). The fuel is a repetition each. -/
def streamKey (sets : List Dataset) : Nat → Dataset → Nat
  | 0, x => x.dsn
  | n + 1, x =>
    if x.rewrite then match sets.find? fun y => y.dkind == 0 && y.dsn == x.origDsn with
      | some y => streamKey sets n y
      | none => x.origDsn
    else x.dsn

/-- The volume's datasets on a cartridge in order, less those above EOD_DSN, below their group's REUSE_DSN, or excluded. -/
def keptSets (d : Directory) (c : Cartridge) (k : Nat) : List Dataset :=
  let key := streamKey c.sets c.sets.length
  oncePerDsn ((c.sets.filter fun x => x.dkind == 0 && x.regions.any (fun r => r.vidx == k) && decide (x.dsn ≤ d.eodDsn) &&
    decide ((Tab.get (default : WrapGroup) d.groups (x.wrap / 8)).reuseDsn ≤ x.dsn) &&
    !d.lost.any fun l => l.vidx == k && l.exFirst != 0 && decide (l.exFirst ≤ x.dsn) && decide (x.dsn ≤ l.exLast)).mergeSort fun a b => key a ≤ key b)

/-- A number that a lost range of the volume names. -/
def isLost (d : Directory) (k seq : Nat) : Bool := d.lost.any fun l => l.vidx == k && l.first != 0 && decide (l.first ≤ seq) && decide (seq ≤ l.last)

/-! ### Directory copies and the scan (R212, R215, R217) -/

/-- A copy as its replicas give it: any one that decodes is enough, the newest where they differ (R212). -/
def copyOf (l : List (Option Directory)) : Option Directory :=
  l.foldl (fun m r => match m, r with
    | some a, some b => if a.dirgen < b.dirgen then some b else some a
    | none, r => r
    | m, none => m) none

/-- The copy of the higher DIRGEN that decodes; true for B. -/
def tapeDir (c : Cartridge) : Option (Bool × Directory) :=
  match copyOf c.dirA, copyOf c.dirB with
  | some a, some b => if a.dirgen < b.dirgen then some (true, b) else some (false, a)
  | some a, none => some (false, a)
  | none, some b => some (true, b)
  | none, none => none

/-- The Sachet copy of a cartridge's directory. -/
def Sachet.dirOf (x : Sachet) (serial : Bytes) : Option Directory := (x.dirs.find? fun p => decide (p.2.1 = serial)).map fun p => p.2.2

/-- A wrap's separators from an interval on, in the order of the tape, with the dataset that each interval carries, if any. -/
def sepsOn (c : Cartridge) (wrap start : Nat) : List (Nat × Option Dataset) :=
  let with_ : List (Nat × Option Dataset) := (c.sets.filter fun d => d.wrap == wrap && decide (start ≤ d.interval)).map fun d => (d.interval, some d)
  let bare : List (Nat × Option Dataset) := (c.rwOnly.filter fun p => p.1 == wrap && decide (start ≤ p.2)).map fun p => (p.2, none)
  (with_ ++ bare).mergeSort fun a b => a.1 ≤ b.1

/-- A dataset that the scan meets: EOD, TIME, extents, chain values, volumes the copy lacks, and the old copy that a rewrite leaves out; a
table without room for that locks the cartridge (R214). -/
def scanSet (d : Directory) (x : Dataset) : Directory :=
  let one : Directory → Region → Directory := fun d r =>
    let v0 : DirVolume := Tab.get default d.vols r.vidx
    let v := if v0.used then v0 else
      { (default : DirVolume) with uuid := r.uuid, tenant := r.tenant, encrypt := r.encrypt, strict := r.strict, hold := r.hold, used := true,
                                   retention := r.retention, nextSeq := 1, h := chainStart r.uuid }
    let v1 := if v.chainN < r.chainN then { v with chainN := r.chainN, h := r.h } else v
    let v2 := { v1 with nextSeq := max v1.nextSeq (r.lastSeq + 1), v := max v1.v r.whole }
    let named := d.lost.any fun l => l.vidx == r.vidx && decide (l.exFirst ≤ x.origDsn) && decide (x.origDsn ≤ l.exLast)
    let add := x.rewrite && !named
    let room := decide (d.lost.length < 6144)
    { d with vols := Tab.set r.vidx v2 d.vols, extents := if r.bytes.isEmpty then d.extents else addExtent r x.wrap x.dsn d.extents
             locked := d.locked || (add && !room)
             lost := if add && room then
               d.lost ++ [{ vidx := r.vidx, power := false, exFirst := x.origDsn, first := 0, last := 0, exLast := x.origDsn }] else d.lost }
  let d1 := x.regions.foldl one d
  let g : WrapGroup := Tab.get default d1.groups (x.wrap / 8)
  { d1 with eodDsn := max d1.eodDsn x.dsn, eodWrap := x.wrap, eodInt := x.interval + 1, time := max d1.time x.time,
            groups := Tab.set (x.wrap / 8) { g with reuseDsn := if g.reuseDsn = 0 then x.dsn else g.reuseDsn } d1.groups }

/-- The scan along a wrap, whose next separator is due at interval `next`; true where it ended: 3 nominal interval lengths without a
separator, a DSN below the bound, or one below REUSE_DSN. A separator without a dataset moves the append point. -/
def scanList (wrap bound : Nat) : Nat → List (Nat × Option Dataset) → Directory → Directory × Bool
  | _, [], d => (d, false)
  | next, (k, y) :: r, d =>
    if next + 3 ≤ k then (d, true)
    else match y with
      | none => scanList wrap bound (k + 1) r { d with eodWrap := wrap, eodInt := k + 1 }
      | some x =>
        if x.dsn < bound || x.dsn < (Tab.get (default : WrapGroup) d.groups (wrap / 8)).reuseDsn then (d, true)
        else scanList wrap bound (k + 1) r (scanSet d x)

/-- A reused group's directory entries are given up (R111, R214). -/
def freshGroup (d : Directory) (g : Nat) : Directory :=
  let w : WrapGroup := Tab.get default d.groups g
  { d with groups := Tab.set g { reuseDsn := 0, reuses := if w.reuseDsn = 0 then w.reuses else w.reuses + 1 } d.groups,
           extents := d.extents.filter fun e => e.wrap / 8 != g }

/-- The scan from an append point; it goes on along the order of wraps while the next wrap begins with a DSN above the highest found. -/
def scanFrom : Nat → Cartridge → Nat → Nat → Nat → Directory → Directory
  | 0, _, _, _, _, d => d
  | n + 1, c, wrap, start, bound, d =>
    match scanList wrap bound start (sepsOn c wrap start) d with
    | (d1, true) => d1
    | (d1, false) =>
      match nextWrap (fun g => !liveGroup d1 g) wrap with
      | none => d1
      | some (w, fresh) =>
        match (sepsOn c w 0).findSome? (·.2) with
        | some x => if d1.eodDsn < x.dsn then scanFrom n c w (firstInterval w) x.dsn (if fresh then freshGroup d1 (w / 8) else d1) else d1
        | none => d1

/-- The whole scan of R217 from a copy. -/
def scanDir (c : Cartridge) (d : Directory) : Directory :=
  let firsts := (d.extents.filter fun e => e.wrap == d.eodWrap).map fun e => e.firstDsn
  let bound := match firsts with
    | [] => d.eodDsn
    | k :: r => r.foldl min k
  scanFrom 208 c d.eodWrap d.eodInt bound d

/-! ### Losses applied at a load (R166, R188) -/

/-- The runs of numbers from `lo` to `hi` that an ascending list leaves out. -/
def missingRuns (lo hi : Nat) : List Nat → List (Nat × Nat)
  | [] => if lo ≤ hi then [(lo, hi)] else []
  | k :: r => (if lo < k then [(lo, k - 1)] else []) ++ missingRuns (k + 1) hi r

/-- The Lost Record entry of a loss (Table 07-4), with its event: REPLAYED where no replay falls due, RELEASED where the steward has given it
up before the load (R166). -/
def State.logLost (s : State) (p : PendingLoss) (left bad : Nat) : State :=
  let v := p.vol
  let e : Nat → List Word := fun n =>
    [BitVec.ofNat 64 n, mkw [(0, v.vol), (16, v.transport), (24, p.reason)], BitVec.ofNat 64 v.v, BitVec.ofNat 64 v.a,
      mkw [(0, v.durable), (32, b2n (left == 0 && !(p.released && v.durable != 0))), (33, b2n p.released), (48, min bad 65535)], BitVec.ofNat 64 v.uuid.toNat, BitVec.ofNat 64 (v.uuid.toNat / 2 ^ 64),
      BitVec.ofNat 64 p.lossId]
  (s.modSachet fun x => { x with lostRec := Tab.set v.tenant ((Tab.get {} x.lostRec v.tenant).add 128 e) x.lostRec }).raise (evTen v.tenant 4)

/-- One volume's loss: the datasets written after those that hold the stream up to V are excluded (R216's order, so that datasets excluded
before are not looked at and datasets written again keep their place), the lost numbers recorded, A + 1 is next, and the chain resumes from
the last dataset kept with a Resume entry (R188). Ring entries whose CRC fails, and those outside V + 1 to A, are reclaimed. -/
def State.applyLoss (s : State) (t : Nat) (p : PendingLoss) : State :=
  let v := p.vol
  let d := s.dir t
  let ents := s.sachet.ring.filter fun e => decide (e.uuid = v.uuid) && e.held == some p.lossId && !e.done
  let good := (ents.filter fun e => e.crcOk).mergeSort fun a b => a.seq ≤ b.seq
  let lost := missingRuns (v.v + 1) v.a (good.map (·.seq))
  let s1 := s.ringDone fun e => decide (e.uuid = v.uuid) && (if e.held == some p.lossId then !e.crcOk else e.held.isNone)
  let s2 := if v.v < v.a then s1.logLost p good.length (ents.length - good.length) else s1
  match dirFind d v.uuid with
  | none => s2
  | some (k, x) =>
    let mine : List Dataset := match (s.tp t).ld.cart with
      | some c => keptSets d c k
      | none => []
    let has : Dataset → Bool := fun z => z.regions.any fun r => r.vidx == k && decide (v.v ≤ r.whole)
    let upTo : List Dataset := if v.v = 0 then [] else match mine.findIdx? has with
      | some i => mine.take (i + 1)
      | none => mine
    let high := upTo.foldl (fun m z => max m z.dsn) 0
    let kept := mine.find? fun z => z.dsn == high
    let cut := mine.filter fun y => decide (high < y.dsn)
    let ex := match cut with
      | [] => (0, 0)
      | y :: r => ((r.map (·.dsn)).foldl min y.dsn, (r.map (·.dsn)).foldl max y.dsn)
    let entry : Nat × Nat → Nat × Nat → LostRange := fun ex r =>
      { vidx := k, power := true, exFirst := ex.1, first := r.1, last := r.2, exLast := ex.2 }
    let rows := match lost with
      | [] => if cut.isEmpty then [] else [entry ex (0, 0)]
      | r :: q => entry ex r :: q.map (entry (0, 0))
    let link : Option (Nat × Bytes) := match kept with
      | some z => (z.regions.find? fun r => r.vidx == k).map fun r => (r.chainN, r.h)
      | none => if v.v = 0 then some (0, chainStart v.uuid) else none
    let marks := (x.markSeqs.filter fun m => decide (m ≤ v.v)) ++ (good.filter fun e => bit (wordAt e.body 0) 51).map (·.seq)
    let resume : ChainEntry := { kind := 2, gpio := 0, count := 0, time := d.time, epoch := s.stats.epoch, ref := p.lossId }
    let x1 := { x with nextSeq := v.a + 1, v := v.v, markSeqs := marks, marks := x.marks + marks.length - x.markSeqs.length }
    let x2 := if cut.isEmpty then x1 else
      { x1 with chainN := (link.getD (x.chainN, x.h)).1, h := (link.getD (x.chainN, x.h)).2, waiting := x.waiting ++ [resume] }
    (s2.each rows fun s r => s.addLost t r).modDir t fun d => { d with vols := Tab.set k x2 d.vols }

/-- Every loss of the cartridge in a transport that no load has applied yet, oldest first. -/
def State.applyLosses (s : State) (t : Nat) : State :=
  let cart := cartHash (s.serial t)
  let mine := s.sachet.pendingLoss.filter fun p => p.vol.cart == cart && !p.applied
  (s.each mine fun s p => s.applyLoss t p).modSachet fun x => { x with
    pendingLoss := x.pendingLoss.map fun p => if p.vol.cart == cart then { p with applied := true } else p }

/-! ### The sequence -/

/-- A management request of the load sequence: the steps that complete have had their answers. -/
def State.mgmtSend (s : State) (t op : Nat) (arg : Word) (data : Bytes) : State :=
  let tag := (s.tp t).link.nextTag
  (s.emit (.management t op tag false arg data)).modLink t fun l => { l with nextTag := (tag + 1) % 65536 }

/-- The channel figures kept since the load restart; states, windows and PROBE_RUN stay (R253, Table 12-2). -/
def Chan.newLoad (c : Chan) : Chan :=
  { c with syncMiss := 0, rows := 0, failed := 0, corrected := 0, viol := 0, probes := 0, probesFailed := 0, outMs := 0, clipped := 0 }

/-- A step that exceeds its bound ends the sequence (R319): the tape is unthreaded, Load Failed, Unloaded. -/
def State.loadFailed (s : State) (t : Nat) : State :=
  let s1 := if (s.mot t).threaded then s.startMotion t else s
  let s2 := ((s1.reelsOff t).brakesOn t).modMot t fun m => { m with threaded := false, servoAcquired := false }
  ((s2.modLd t fun l => { l with step := 0, scan := false, cart := if l.scan then none else l.cart, resetting := false }).raise (evTp t 2)).setTState t .unloaded

/-- Steps 1 to 6 as far as the environment lets them complete. -/
def State.loadSteps (s : State) (t : Nat) (env : LoadEnv) : State :=
  let k := env.steps
  let s1 := s.mgmtSend t 5 0 []
  let s2 := if 1 ≤ k then s1.brakesOff t else s1
  let s3 := if 2 ≤ k then s2.modSol t fun x => { x with energ := x.energ ||| 3, solSt := x.solSt ||| 3, pullin := none, wait := [] } else s2
  let s4 := if 3 ≤ k && !env.threaded then (s3.startMotion t).modMot t fun m => { m with x := -120000, lastTarget := { x := 0, dir := true, speed := 5, kind := 5 } } else s3
  let s5 := s4.modMot t fun m => { m with threaded := (2 ≤ k && env.threaded) || 3 ≤ k }
  let s6 := if 5 ≤ k then
      let z := ((s5.startMotion t).modMot t fun m => { m with x := -20000 }).modGu t fun g => { g with bemfA := env.bemfA, bemfB := env.bemfB }
      (z.modLd t fun l => { l with params := env.params }).each env.params fun s p => s.mgmtSend t 3 (BitVec.ofNat 64 (p.1 % 65536)) (wordBytes p.2)
    else s5
  if 6 ≤ k then (s6.startMotion t).modMot t fun m => { m with servoAcquired := true } else s6

/-- The writer stands at the append point of the directory in force; DSNs go on above those used (R183): after a scan 4,096 above the
highest found, and in every case above the committed limit, which an unload has left at the last number taken. -/
def State.mountWriter (s : State) (t : Nat) (scanned : Bool) : State :=
  let d := s.dir t
  let n := max (d.eodDsn + (if scanned then 4096 else 1)) (d.dsnLimit + 1)
  let int := max d.eodInt (firstInterval d.eodWrap)
  ((s.modFmt t fun f => { ({} : Format) with
      wrap := d.eodWrap, packWrap := d.eodWrap, interval := int, wrapBits := 233472 * int, nextDsn := n, dsnLimit := max d.dsnLimit (n - 1),
      tmask := f.tmask, nact := f.nact, p := f.p, q := f.q, rwRows := f.rwRows, rwOnly := f.rwOnly, overflow := f.overflow }).modVfy t fun v =>
    { v with abandoned := 0, unwritable := false, wrapsBegun := 1, abandonAt := [] })

/-- Step 8: Parked, ready, counted in LOADS. -/
def State.loadDone (s : State) (t : Nat) : State :=
  ((s.modLd t fun l => { l with scan := false, step := 8, resetting := false }).modMot t fun m =>
    { m with loads := wrapAdd m.loads 1, oosCause := 0, vel := 0, target := none, x := s.standbyX t, idleMs := 0 }).setTState t .parked

/-- The channel figures kept since the load restart (R247). -/
def State.freshFigures (s : State) (t : Nat) : State := s.modRc t fun r => { r with chans := r.chans.map fun p => (p.1, p.2.newLoad) }

/-- The directory stands: losses are applied, the writer is placed, the copy of the load is written with OPEN set (R212). -/
def State.mountDir (s : State) (t : Nat) (scanned : Bool) : State :=
  (((((((s.applyLosses t).mountWriter t scanned).freshFigures t).writeDir t true).commitDir t).groupCheck t).loadDone t)

/-- Step 7: the copy in force is Sachet's where DIRGEN and LOADER agree with the tape's, else the tape's; with OPEN set in it a scan runs.
The scan runs along the append point's wrap at speed index 12 (R217). A cartridge with an empty directory area gets copies A and B; one without
a valid copy is not written (R215). -/
def State.loadDirectory (s : State) (t : Nat) (env : LoadEnv) : State :=
  let c := env.cart
  let s1 := s.modLd t fun l => { l with cart := some c, dirDirty := false, dirDeltas := 0, dirUnreadable := false, dirFails := 0, step := 7, dirRead := env.dir }
  match tapeDir c with
  | none =>
    if c.areaWritten then (((s1.modLd t fun l => { l with dirUnreadable := true, dir := default }).freshFigures t).raise (evTp t 6)).loadDone t
    else
      let s2 := s1.modLd t fun l => { l with dir := { (default : Directory) with loader := s.loader }, lastCopyB := true }
      ((s2.writeDir t false).writeDir t false).mountDir t false
  | some (b, d) =>
    let mine := s.sachet.dirOf c.serial
    let d1 := match mine with
      | some x => if x.dirgen = d.dirgen && d.loader == s.loader then x else { d with dsnLimit := max d.dsnLimit x.dsnLimit }
      | none => d
    let s2 := s1.modLd t fun l => { l with dir := d1, lastCopyB := b, scan := d1.opn }
    if d1.opn then s2.modMot t fun m => { m with x := xOf d1.eodWrap (233472 * d1.eodInt), vel := wrapSign d1.eodWrap * velOf 12 }
    else s2.mountDir t false

/-- The cartridge in force is loaded: its directory has been read. -/
def State.mounted (s : State) (t : Nat) : Bool := (s.tp t).ld.cart.isSome && !(s.tp t).ld.scan

/-- The volumes of a cartridge that is no longer in the transport go offline (R9, assumption 78): sealed before their keys are zeroised, their
directory committed. -/
def State.formerOffline (s : State) (t : Nat) : State :=
  if (s.volsOf t).isEmpty then s
  else ((s.each (s.volsOf t) fun s p => s.unloadVol t p.1).commitDir t).snapshot 2

/-- The load sequence: steps that complete, and Loading at the step that does not (its bound then ends it). A transport reset keeps the
cartridge's directory, volumes and buffered records where the cartridge is the same (R42); with another one, records still to be written
end the load, since their volumes are bound to the former cartridge (R9, assumption 78). In a thermal shutdown nothing starts, and the
load waits (R348). -/
def State.runLoad (s : State) (t : Nat) (env : LoadEnv) : State :=
  if s.therm.shut then s.modLd t fun l => { l with env := some env } else
  let same := s.mounted t && decide (s.serial t = env.cart.serial)
  let s0 := if s.pm.state = 1 then s.wake 4 else s
  let s1 := (s0.modMot t fun m => { m with cartPresent := true }).loadSteps t env
  if 1 ≤ env.steps && env.cart.length ≠ 1024 then
    (((s1.brakesOn t).raise (evTp t 3)).modLd t fun l => { l with step := 0, resetting := false }).setTState t .unloaded
  else if 1 ≤ env.steps && !same && s.pendingOf t ≠ 0 then
    (((s1.brakesOn t).raise (evTp t 2)).modLd t fun l => { l with step := 0, resetting := false }).setTState t .unloaded
  else
    let s2 := (s1.modLd t fun l => { l with step := env.steps, scan := false }).setTState t .loading
    if env.steps < 7 then s2
    else if same then
      if (s.tp t).ld.dirUnreadable then s2.loadDone t
      else (((s2.modLd t fun l => { l with dirRead := env.dir }).writeDir t true).commitDir t).loadDone t
    else (s2.formerOffline t).loadDirectory t env

/-! ### Transport reset (R42) -/

/-- At rest, the reset goes on (the lanes' FIFOs resynchronise, R36): the front-end is reset by management frame, every lane trains again, slots and channels start afresh (R253,
R308), TP_FE and the CE registers return to their reset values but CE_GU_CFG and CE_BEMF. Without a cartridge it ends at Unloaded; else the
load follows once a lane is Up. -/
def State.resetTp (s : State) (t : Nat) : State :=
  let s1 := ((s.mgmtSend t 2 0 []).gateClose t 5).cutWrites t
  let s2 := s1.modTp t fun x =>
    { x with fe := {}, rc := { x.rc with chans := [] }, sol := { x.sol with energ := 0, pullin := none, wait := [] },
             gu := { ({} : Guard) with cfg := x.gu.cfg, bemfA := x.gu.bemfA, bemfB := x.gu.bemfB }
             link := { x.link with mgmt := [], rxRecent := [] }
             ld := if x.ld.scan then { x.ld with cart := none, scan := false, step := 0 } else { x.ld with step := 0 } }
  let s3 := ((s2.loadSlots t).modMot t fun m =>
    { m with vel := 0, target := none, pendingTarget := none, starting := none, exc := none, stopGoal := .parked, oosCause := 0, servoAcquired := false,
             acquireRun := 0, attempts := 0, holdRun := 0, fcount := none }).setTState t .unloaded
  let s4 := s3.each (s3.lanesOf t) fun s n =>
    if (s.ln n).held || (s.ln n).mismatch then s
    else ((s.modLn n fun l => { l with state := .down, proposing := false, proposals := 0 }).laneDownBits n).trainStart n
  let s5 := (s4.discards (s4.tp t).ld.disc).modLd t fun l => { l with disc := [] }
  if (s5.tp t).ld.env.isSome then s5 else s5.modLd t fun l => { l with resetting := false }

/-- The load that a transport reset owes, with a lane Up. -/
def State.reload (s : State) (t : Nat) : State :=
  match (s.tp t).ld.env with
  | none => s
  | some e => (s.modLd t fun l => { l with env := none }).runLoad t e

end Sys2Proof.Machine
end

