-- ==== Sys2Proof/Machine/Pins.lean ====
section
/-! DEFINITION. Configuration space, die temperature, GPIO, SMBus and the register writes with rows of their own: CONFIG_REQUEST,
DIE_TEMP_MEASURE, GPIO_INPUT_CHANGE, TAMPER, SMB_READ_TEMPERATURE, SMB_READ_POWER_STATE, SMB_READ_READY, SMB_NACK, EV_STS_CLEAR,
TQ_EVT_CLR, PM_CTL_WAKE, SC_RING_REL. -/

namespace Sys2Proof.Machine

/-! ### Configuration space (R41, R74, R78) -/

/-- What a configuration register of a function reads (R74, R76, R77): 64-bit non-prefetchable BARs of 64 KiB and, BAR2, 1 MiB; those of
a VF stand in the SR-IOV capability of the PF. First VF Offset and VF Stride are 1, Interrupt Pin is 0. -/
def PcieFn.cfgReg (f : PcieFn) (fn : Nat) (vfEnable : Bool) : CfgReg → Word
  | .bar0 => if fn = 0 then f.bar0 ||| 4 else 0
  | .bar2 => if fn = 0 then f.bar2 ||| 4 else 0
  | .vfBar0 => if fn = 0 then f.vfBar0 ||| 4 else 0
  | .vfOffset | .vfStride => if fn = 0 then 1 else 0
  | .sriovControl => if fn = 0 then mkw [(0, b2n vfEnable), (4, b2n f.ari)] else 0
  | .deviceControl => f.devCtl.setWidth 64
  | .deviceControl2 | .interruptPin => 0
  | .aerUncorrectable => f.aerUnc.setWidth 64
  | .aerCorrectable => f.aerCor.setWidth 64

/-- Device Control as written (R76, R77): Enable Relaxed Ordering, Max_Payload_Size up to 512 B, Enable No Snoop and
Max_Read_Request_Size up to 4 KiB are kept, a larger size as the largest; Extended Tag Enable is ignored. -/
def devCtlOf (v : Word) : BitVec 16 :=
  (mkw [(4, fld v 4 4), (5, min 2 (fld v 7 5)), (11, fld v 11 11), (12, min 5 (fld v 14 12))]).setWidth 16

/-- A write of a configuration register: a base address keeps the bits above its size, AER's status bits clear where 1 is written, and
what is hard-wired or ignored stays. -/
def PcieFn.cfgWrite (f : PcieFn) (fn : Nat) (v : Word) : CfgReg → PcieFn
  | .bar0 => if fn = 0 then { f with bar0 := v &&& ~~~(0xFFFF : Word) } else f
  | .bar2 => if fn = 0 then { f with bar2 := v &&& ~~~(0xFFFFF : Word) } else f
  | .vfBar0 => if fn = 0 then { f with vfBar0 := v &&& ~~~(0xFFFF : Word) } else f
  | .sriovControl => if fn = 0 then { f with ari := bit v 4 } else f
  | .deviceControl => { f with devCtl := devCtlOf v }
  | .aerUncorrectable => { f with aerUnc := f.aerUnc &&& ~~~(v.setWidth 32) }
  | .aerCorrectable => { f with aerCor := f.aerCor &&& ~~~(v.setWidth 32) }
  | .vfOffset | .vfStride | .deviceControl2 | .interruptPin => f

/-- CONFIG_REQUEST (R41, R74, R76, R77, R78): Request Retry Status until the early block is in force; then a read answers with what is
kept here, and a write sets its field. NumVFs is written only while VF Enable is 0 and up to TotalVFs; a function that does not exist
takes nothing. VF Enable has its own form, so SR-IOV Control as a register writes ARI Capable Hierarchy. -/
def execConfigRequest (fn : Nat) (op : ConfigOp) (s : State) : Host.Outcome State Fault Refusal :=
  if !s.on || !s.pins.perstN then commit s s
  else if !s.earlyDone then commit s (s.tlp.emit (.cfgRetry fn))
  else if !s.fnExists fn then commit s s
  else
    let s1 := s.tlp
    let set : (PcieFn → PcieFn) → State := fun f => (s1.modTn fn fun x => { x with fn := f x.fn }).flushMsix fn
    match op with
    | .read =>
      let e := s1.image.early
      commit s (s1.emit (if fn = 0 then .cfgAnswer 0 0x1F5D 0x0832 e.subsysVid e.subsysDid e.totalVfs s1.dev.numVfs s1.dev.vfEnable
        else .cfgAnswer fn 0xFFFF 0xFFFF e.subsysVid e.subsysDid 0 0 false))
    | .readReg r => commit s (s1.emit (.cfgReg fn r ((s1.tn fn).fn.cfgReg fn s1.dev.vfEnable r)))
    | .writeReg r v => commit s (s1.modTn fn fun x => { x with fn := x.fn.cfgWrite fn v r })
    | .busMaster b => commit s (set fun f => { f with busMaster := b })
    | .msixEnable b => commit s (set fun f => { f with msixEn := b })
    | .functionMask b => commit s (set fun f => { f with msixMask := b })
    | .numVfs n =>
      commit s (if fn = 0 && !s1.dev.vfEnable && n ≤ s1.image.early.totalVfs then s1.modDev fun d => { d with numVfs := n } else s1)
    | .vfEnable b =>
      if fn ≠ 0 || s1.image.safe then commit s s1
      else if b then
        commit s ((s1.modDev fun d => { d with vfEnable := true }).each (List.range' 1 15) fun s u =>
          if s.fnExists u && s.ready rdHOST then s.modTn u fun x => { x with func := true } else s)
      else commit s (s1.dropVfs.settle)

/-! ### Die temperature (R348) -/

/-- The larger of two readings in 0.125 °C; 0x8000 is no reading. -/
def maxTemp (a b : BitVec 16) : BitVec 16 := if a = 0x8000 || decide (a.toInt < b.toInt) then b else a

/-- DIE_TEMP_MEASURE (R348, Tables 16-16, 17-13 and 17-14): the highest of four sensors; the thermal limit from 100 °C until below
95 °C, the shutdown from 110 °C until below 100 °C. `rails` are VDDC, VDDS, VDDQ, VDDIO, VDDM, VDDSH and VDDQH in mV; in PS3, whose power
comes from VDDIO, VDDM and VDDC, the others read 0 (assumption 86). When the shutdown ends, a load that waited begins. -/
def execDieTempMeasure (sensors rails : List (BitVec 16)) (s : State) : Host.Outcome State Fault Refusal :=
  if !s.on then commit s s
  else
    let v := sensors.foldl maxTemp 0x8000
    let c := v.toInt
    let was := s.therm
    let lim := if 800 ≤ c then true else if c < 760 then false else was.limit
    let shut := if 880 ≤ c then true else if c < 800 then false else was.shut
    let r := fun (k : Nat) => (rails.getD k 0).toNat
    let on := fun (k : Nat) => if s.pm.state = 3 then 0 else r k
    let s1 := (s.modTherm fun x =>
      { x with temp := v, peak := maxTemp x.peak v, limit := lim, shut := shut, vmon := mkw [(0, r 0), (16, on 1), (32, on 2), (48, r 3)],
               vmon2 := mkw [(0, r 4), (16, on 5), (32, on 6)] }).peak (stDev 16) c.toNat
    let s2 := if lim && !was.limit then s1.raise evThermalLimit else s1
    let s3 := if shut && !was.shut then
        let s4 := ((s2.raise evThermalShutdown).modPins fun p => { p with thermN := false }).emit (.thermN false)
        s4.each s4.tpList fun s t => s.controlledStop t .parked
      else if was.shut && !shut then
        let s4 := (s2.modPins fun p => { p with thermN := true }).emit (.thermN true)
        s4.each s4.tpList fun s t => if (s.upLanes t).isEmpty then s else s.reload t
      else s2
    commit s s3.settle

/-! ### GPIO (R17 to R19, R385) -/

/-- What an output pin drives: `none` for an input (Table 02-7). -/
def State.gpioDrive (s : State) (n : Nat) : Option Bool :=
  let drive : Bool → Option Bool := fun b => some (b != s.gpio.pol n)
  match s.gpio.func n with
  | 3 => drive (s.gpio.out.getLsbD n)
  | 4 => drive (s.tpList.any fun t => (s.mot t).state == .streaming)
  | 5 => drive (decide (s.dev.fatal ≠ 0) || s.tpList.any fun t => (s.mot t).state == .outOfService)
  | _ => none

/-- The signals of Table 02-4, a bus or a pair of like signals under one name. -/
inductive Signal where
  | hlTx (n : Nat) | hlRx (n : Nat) | hlRefClk | peTx | peRx | peRefClk | perstN | clkreqN | wakeN
  | memCmd | memData | mResetN | mZq | nvCsN | nvCk | nvDqs | nvD | nvResetN | crystal | porN | pfailN
  | strap (n : Nat) | smb | uartTx | uartRx | tckTrstN | tmsTdi | tdo | gpio (n : Nat) | thermN
  deriving DecidableEq, Repr

/-- What a signal does at its pin; `active` is what the function that owns the pin does with it. -/
inductive PinDrive where
  | electricalIdle | terminated | released | drivenLow | drivenHigh | highZ | highZPullUp | highZPullDown | pullDown | input
  | oscillating | sampled | active
  deriving DecidableEq, Repr

/-- The state of each signal while POR_N is low (Table 02-4); a signal for which the table gives none is an input of the owner's. -/
def Signal.inReset : Signal → PinDrive
  | .hlTx _ | .peTx => .electricalIdle
  | .hlRx _ | .hlRefClk | .peRx => .terminated
  | .clkreqN | .wakeN | .smb | .thermN => .released
  | .memCmd | .mResetN | .nvResetN => .drivenLow
  | .memData | .nvD | .tdo => .highZ
  | .nvCsN => .highZPullUp
  | .nvCk => .highZPullDown
  | .nvDqs => .pullDown
  | .crystal => .oscillating
  | .strap _ => .sampled
  | .uartTx => .drivenHigh
  | .gpio _ => .input
  | .peRefClk | .perstN | .mZq | .porN | .pfailN | .uartRx | .tckTrstN | .tmsTdi => .input

/-- What a signal does (R11): in a cold reset the column of Table 02-4; then the open-drain and GPIO outputs follow the state, an absent
lane is powered down (R20), and every other signal is its owner's. -/
def State.pinDrive (s : State) (g : Signal) : PinDrive :=
  let od : Bool → PinDrive := fun high => if high then .released else .drivenLow
  if !s.on then g.inReset
  else match g with
    | .wakeN => od s.pins.wakeN
    | .thermN => od s.pins.thermN
    | .clkreqN => od s.pins.clkreqN
    | .gpio n => match s.gpioDrive n with
      | some true => .drivenHigh
      | some false => .drivenLow
      | none => .input
    | .hlTx n | .hlRx n => if s.lanePresent n then .active else g.inReset
    | .nvDqs | .crystal | .strap _ | .hlRefClk | .peRefClk | .perstN | .mZq | .porN | .pfailN | .uartRx | .tckTrstN | .tmsTdi => g.inReset
    | _ => .active

/-- GPIO_INPUT_CHANGE (R17, R18): the pin's level; on a Tamper input an assertion starts its 10 ms debounce, and counts again only
after 10 ms deasserted. `heldMs` is how long the level before was held. -/
def execGpioInputChange (pin : Nat) (level : Bool) (heldMs : Nat) (s : State) : Host.Outcome State Fault Refusal :=
  if !s.on || 4 ≤ pin then commit s s
  else
    let s1 := s.modGpio fun g => { g with level := setBit g.level pin level }
    if s1.gpio.func pin ≠ 1 || s.gpio.level.getLsbD pin == level then commit s s1
    else
      let d := Tab.get {} s1.gpio.debounce pin
      let n : GpioPin := if s1.gpio.asserted pin then
          { armed := d.armed || decide (10 ≤ heldMs), running := d.armed || decide (10 ≤ heldMs) }
        else { d with running := false }
      commit s (s1.modGpio fun g => { g with debounce := Tab.set pin n g.debounce })

/-- TAMPER (R18, R19, R345, R385): 10 ms asserted. The latch sets at once; event and chain entries follow now, or once an image is
loaded and the part is out of PS3. With WAKE set it leaves PS3 under WAKE_N; it leaves PS2 in any case. -/
def execTamper (pin : Nat) (s : State) : Host.Outcome State Fault Refusal :=
  let g := s.gpio
  if !s.on || 4 ≤ pin || g.func pin ≠ 1 || !(Tab.get ({} : GpioPin) g.debounce pin).running || !g.asserted pin then commit s s
  else
    let s1 := s.modGpio fun g =>
      { g with tamper := setBit g.tamper pin true, debounce := Tab.set pin { running := false, armed := false } g.debounce }
    if s.pm.state = 3 || !s.image.loaded then
      let s2 := s1.modGpio fun g => { g with held := g.held ++ [pin] }
      if s.pm.state = 3 && g.wake.getLsbD pin then
        commit s (((s2.modPins fun p => { p with wakeN := false }).emit (.wakeN false)).wake 6)
      else commit s s2
    else
      let s2 := s1.tamperEffects pin
      commit s (if s.pm.state = 2 then s2.wake 6 else s2)

/-! ### SMBus (R26, R27) -/

/-- An answer of `data` to a command byte with its packet error code (SMBus 3.1: CRC-8 over both address bytes, the command and the
data). -/
def smbAnswer (cmd : Byte) (data : Bytes) : Output := .smbus data (crc8 ([0xB4, cmd, 0xB5] ++ data))

/-- SMB_READ_TEMPERATURE. -/
def execSmbReadTemperature (s : State) : Host.Outcome State Fault Refusal :=
  commit s (if s.on then s.emit (smbAnswer 1 (leBytes 2 s.therm.temp.toNat)) else s)

/-- SMB_READ_POWER_STATE. -/
def execSmbReadPowerState (s : State) : Host.Outcome State Fault Refusal :=
  commit s (if s.on then s.emit (smbAnswer 2 (leBytes 1 (s.pm.state % 4))) else s)

/-- SMB_READ_READY: a block of 8 bytes after its count. -/
def execSmbReadReady (s : State) : Host.Outcome State Fault Refusal :=
  commit s (if s.on then s.emit (smbAnswer 3 (8 :: leBytes 8 s.dev.ready.toNat)) else s)

/-- SMB_NACK: any other command byte and any write transaction. -/
def execSmbNack (command : Byte) (write : Bool) (s : State) : Host.Outcome State Fault Refusal :=
  commit s (if s.on && (write || !(command == 1 || command == 2 || command == 3)) then s.emit .smbusNack else s)

/-! ### Register writes with rows of their own -/

/-- EV_STS (R335, R338): the steward clears each status written 1, with its COUNT. -/
def State.evStsWrite (s : State) (i : Nat) (value : Word) : State :=
  if !s.reach 0 || 8 ≤ i then s
  else s.tlp.each ((List.range 64).filter fun j => bit value j) fun s j => s.clearEv (64 * i + j)

/-- TQ_EVT_STS (R338): TEN clears the tenant's own sources; CLR clears CLR_SRC where the tenant owns it. -/
def State.tqEvtWrite (s : State) (u : Nat) (value : Word) : State :=
  if !s.reach u then s
  else
    let s1 := s.tlp.each ((List.range 8).filter fun k => bit value k) fun s k => s.clearEv (evTen u k)
    let e := fld value 40 32
    if bit value 41 && (s1.evSrc e).owner == u then s1.clearEv e else s1

/-- PM_CTL.WAKE (R344): the exit from PS2 or PS3 begins. -/
def State.pmWake (s : State) : State := if s.reach 0 && 2 ≤ s.pm.state then s.wake 2 else s

/-- EV_STS_CLEAR (R335, R338). -/
def execEvStsClear (i : Nat) (value : Word) (s : State) : Host.Outcome State Fault Refusal := commit s (s.evStsWrite i value)

/-- TQ_EVT_CLR (R338). -/
def execTqEvtClr (u : Nat) (value : Word) (s : State) : Host.Outcome State Fault Refusal := commit s (s.tqEvtWrite u value)

/-- PM_CTL_WAKE (R344). -/
def execPmCtlWake (s : State) : Host.Outcome State Fault Refusal := commit s s.pmWake

/-- The replay of a loss of one volume is given up: what is not replayed yet is lost, in the directory as in a power loss (R166). -/
def State.releaseReplay (s : State) (h : Nat) (w : Volume) : State :=
  let rs := runs ((w.replay.map (·.1)).mergeSort)
  let s1 := s.each rs fun s r => s.addLost w.transport
    { vidx := w.vidx, power := true, exFirst := 0, first := r.1, last := r.2, exLast := 0 }
  (s1.modVol h fun x => { x with replay := [], replayLoss := 0 }).settleVol h

/-- SC_RING_REL (R166, R374): every held ring entry of the loss is reclaimed, RELEASED is set, and records not replayed yet are lost;
an unknown value is ignored. -/
def State.ringRel (s : State) (lossId : Word) : State :=
  let k := lossId.toNat
  if !s.reach 0 || !s.ready rdSACHET || k = 0 || !s.sachet.ring.any (fun e => e.held == some k && !e.done) then s
  else
    let us := ((s.sachet.ring.filter fun e => e.held == some k && !e.done).map (·.uuid)).dedup
    let s1 := s.tlp.modSachet fun x => { x with
      lostRec := x.lostRec.map fun p => (p.1, us.foldl (fun l u => markLost u (· == k) 33 l) p.2)
      pendingLoss := x.pendingLoss.map fun p => if p.lossId == k && !p.applied then { p with released := true } else p }
    let s2 := s1.ringDone fun e => e.held == some k
    (s2.each (s2.vols.filter fun p => p.2.replayLoss == k) fun s p => s.releaseReplay p.1 p.2).settle

/-- SC_RING_REL. -/
def execScRingRel (lossId : Word) (s : State) : Host.Outcome State Fault Refusal := commit s (s.ringRel lossId)

end Sys2Proof.Machine
end

