-- ==== Sys2Proof/Machine/Queues.lean ====
section
/-! DEFINITION. Tenants and queues: TQ_CFG_ENABLE, TQ_CFG_DISABLE, SQ_TAIL_DOORBELL, CQ_HEAD_DOORBELL, ARBITRATION_DECISION,
RING_ACCESS_ERROR, HOST_DATA_ERROR, CQ_AGG_TIMER, ALLOCATOR_DECISION, CREATE_QUEUE_PAIR, DELETE_QUEUE_PAIR, SET_QUEUE_CLASS,
RESTART_QUEUES. -/

namespace Sys2Proof.Machine

/-- A BAR0 write that sets EN (R80): the tenant comes into service, now or once FUNC and HOST are set, or CFG_ERR sets. -/
def State.tqEnable (s : State) (u : Nat) : State :=
  if !s.reach u || (s.tn u).cfgEn then s else (s.tlp.modTn u fun x => { x with cfgEn := true }).tryRdy u

/-- A BAR0 write that clears EN (R81): every pair is deleted; RDY clears once every fetched command has completed. TQ_FRZ and CFG_ERR
clear. -/
def State.tqDisable (s : State) (u : Nat) : State :=
  if !s.reach u || !(s.tn u).cfgEn then s
  else
    let s1 := s.tlp.modTn u fun x => { x with cfgEn := false, cfgErr := false, frz := {}, disabling := x.rdy }
    (s1.each (s1.tn u).qps fun s p => s.closePair u p.1).settle

/-- An SQ tail doorbell (R83, R97): the value becomes the tail and the entries up to it available; `entries` are what the host has put
there, and one that it does not give reads 0. An invalid write is ignored and counted. -/
def State.sqTail (s : State) (u q : Nat) (value : BitVec 64) (entries : List SubEntry) : State :=
  if !s.reach u then s
  else
    let s1 := if s.pm.state = 2 then s.wake 1 else s.tlp
    let p := s1.qp u q
    let v := fld value 15 0
    if !s1.hasQp u q || !(s1.tn u).cfgEn then s1.doorbellInvalid u q
    else if p.deleting then s1
    else if p.sqDepth ≤ v then s1.doorbellInvalid u q
    else
      let n := (v + p.sqDepth - p.sqHead) % p.sqDepth
      let more := n - p.ring.length
      let s2 := if n = 0 then s1.withdraw u q else s1
      s2.modQp u q fun x => { x with sqTail := v, ring := x.ring.take n ++ (entries ++ List.replicate more default).take more }

/-- A CQ head doorbell (R84): entries up to the value are consumed; one that would consume entries not yet posted is invalid. -/
def State.cqHead (s : State) (u q : Nat) (value : BitVec 64) : State :=
  if !s.reach u then s
  else
    let s1 := if s.pm.state = 2 then s.wake 1 else s.tlp
    let p := s1.qp u q
    let v := fld value 15 0
    let posted := (p.cqTail + p.cqDepth - p.cqHead) % p.cqDepth
    let used := (v + p.cqDepth - p.cqHead) % p.cqDepth
    if !s1.hasQp u q || !((s1.tn u).cfgEn || p.deleting) || p.cqDepth ≤ v || posted < used then s1.doorbellInvalid u q
    else s1.modQp u q fun x => { x with cqHead := v }

/-- TQ_CFG_ENABLE (R80). -/
def execTqCfgEnable (u : Nat) (s : State) : Host.Outcome State Fault Refusal := commit s (s.tqEnable u)

/-- TQ_CFG_DISABLE (R81). -/
def execTqCfgDisable (u : Nat) (s : State) : Host.Outcome State Fault Refusal := commit s (s.tqDisable u)

/-- SQ_TAIL_DOORBELL (R83, R97). -/
def execSqTailDoorbell (u q : Nat) (value : BitVec 64) (entries : List SubEntry) (s : State) : Host.Outcome State Fault Refusal :=
  commit s (s.sqTail u q value entries)

/-- CQ_HEAD_DOORBELL (R84). -/
def execCqHeadDoorbell (u q : Nat) (value : BitVec 64) (s : State) : Host.Outcome State Fault Refusal := commit s (s.cqHead u q value)

/-- ARBITRATION_DECISION (R85, R89 to R95, R98, R104): one decision, of the admin queues or of the I/O queues; in PS2 and PS3 nothing is
fetched (R345). -/
def execArbitrationDecision (a : ArbInput) (s : State) : Host.Outcome State Fault Refusal :=
  if 2 ≤ s.pm.state then commit s s
  else commit s ((if a.admin then s.adminDecision else (s.noteRing a.ring).ioDecision).settle)

/-- RING_ACCESS_ERROR (R132): the SQ stops with the entry unfetched; an Error Log entry and an advisory non-fatal AER report. -/
def execRingAccessError (u q : Nat) (err : ReadError) (s : State) : Host.Outcome State Fault Refusal :=
  let p := s.qp u q
  if !s.hasQp u q || p.ring.isEmpty || p.lookahead || p.stopped || p.deleting then commit s s
  else
    let addr : Word := p.sqBase + BitVec.ofNat 64 (64 * p.sqHead)
    commit s (((s.modQp u q fun x => { x with stopped := true }).logError u Status.ringAccessError { sqid := q, detail := addr }).aerRead u err)

/-- HOST_DATA_ERROR (R384, R86): the oldest fetched command of the pair that reads host memory, and whose turn it is, ends with Host Data
Error. -/
def execHostDataError (u q : Nat) (err : ReadError) (addr : Word) (s : State) : Host.Outcome State Fault Refusal :=
  commit s (s.run (s.fetched fun c => c.u == u && c.q == q && c.entry.readsHost && s.turnOf c) fun c =>
    ((s.aerRead u err).complete c Status.hostDataError { detail := addr }).settle)

/-- CQ_AGG_TIMER (R88): AGG_TIME has passed since the first unsignalled completion. -/
def execCqAggTimer (u q : Nat) (s : State) : Host.Outcome State Fault Refusal :=
  let p := s.qp u q
  if s.hasQp u q && p.aggTimer then commit s ((s.modQp u q fun x => { x with unsignalled := 0, aggTimer := false }).sendMsix u p.vector)
  else commit s s

/-- ALLOCATOR_DECISION (R154, R156, R167): none while BUFFER is 0. -/
def execAllocatorDecision (s : State) : Host.Outcome State Fault Refusal :=
  commit s (if s.ready rdBUFFER then s.allocate else s)

/-- Urgent queues of a tenant other than `q` (R99, R105). -/
def State.urgentOthers (s : State) (u q : Nat) : Nat :=
  ((s.tn u).qps.filter fun p => p.1 != q && (p.2.next.getD p.2.sched).cls == .urgent).length

/-- CLASS, WEIGHT and BURST of W4 (Table 06-5). -/
def schedOf (w4 : Word) : QSched :=
  { cls := match fld w4 9 8 with
      | 0 => .medium | 1 => .high | 2 => .low | _ => .urgent
    weight := max 1 (fld w4 24 16), burst := 2 ^ fld w4 27 25 }

/-- The pair that Create Queue Pair makes: both rings empty (R82, Table 06-5). -/
def newPair (e : SubEntry) : QueuePair :=
  { ({} : QueuePair) with
    sqBase := e.w5, cqBase := e.w6, sqDepth := fld e.w4 43 32 + 1, cqDepth := fld e.w4 43 32 + 1, sched := schedOf e.w4,
    vector := fld e.w4 53 48, aggCount := fld e.w7 15 0, aggTime := fld e.w7 31 16 }

/-- CREATE_QUEUE_PAIR (R82, R87, R105). A tenant that holds MAX_QP pairs has no QID left below MAX_QP, so Queue Limit is tested before
the QID (DEDUCED, assumption 76). -/
def execCreateQueuePair (u : Nat) (s : State) : Host.Outcome State Fault Refusal :=
  commit s (s.run (s.adminCmd u 0x02) fun c =>
    let e := c.entry
    let q := fld e.w4 7 0
    let depth := fld e.w4 43 32 + 1
    let vec := fld e.w4 53 48
    let ok := e.headOk false false && e.noData && fld e.w4 15 10 == 0 && fld e.w4 31 28 == 0 && fld e.w4 47 44 == 0 && fld e.w4 63 54 == 0 &&
      fld e.w7 63 32 == 0 && q != 0 && fld e.w5 11 0 == 0 && fld e.w6 11 0 == 0 &&
      decide (2 ≤ depth) && decide (depth ≤ (s.tenCfg u).maxQdepth) && decide (vec < vectorCount u) && decide (fld e.w4 24 16 ≤ 256)
    if !ok then s.fail c Status.invalidField
    else
      let urgent3 := fld e.w4 9 8 == 3 && decide (2 ≤ s.urgentOthers u q)
      let full := decide ((s.tenCfg u).maxQp ≤ (s.tn u).qps.length) || decide (1024 ≤ s.pairCount)
      if !full && (s.hasQp u q || decide ((s.tenCfg u).maxQp ≤ q)) then s.fail c Status.invalidField
      else if urgent3 then s.fail c Status.urgentLimit
      else if full then s.fail c Status.queueLimit
      else (s.modTn u fun x => { x with qps := Tab.set q (newPair e) x.qps }).succeed c)

/-- DELETE_QUEUE_PAIR (R97): it completes after the pair's last fetched command. A QID without a pair, for which the rule names no status,
is Invalid Field: DESIGN CHOICE (assumption 76). -/
def execDeleteQueuePair (u : Nat) (s : State) : Host.Outcome State Fault Refusal :=
  commit s (s.run (s.adminCmd u 0x03) fun c =>
    let e := c.entry
    let q := fld e.w4 7 0
    if e.headOk false false && e.noData && fld e.w4 63 8 == 0 && zeros [e.w5, e.w6, e.w7] && q != 0 && s.hasQp u q then
      ((s.closePair u q).setStage c.id (.deletingQp q)).settle
    else s.fail c Status.invalidField)

/-- SET_QUEUE_CLASS (R98, R99): in force from the next decision. A QID without a pair, for which the rules name no status, is Invalid
Field: DESIGN CHOICE (assumption 76). -/
def execSetQueueClass (u : Nat) (s : State) : Host.Outcome State Fault Refusal :=
  commit s (s.run (s.adminCmd u 0x04) fun c =>
    let e := c.entry
    let q := fld e.w4 7 0
    let ok := e.headOk false false && e.noData && fld e.w4 15 10 == 0 && fld e.w4 63 28 == 0 && zeros [e.w5, e.w6, e.w7] && q != 0 &&
      s.hasQp u q && decide (fld e.w4 24 16 ≤ 256)
    if !ok then s.fail c Status.invalidField
    else if fld e.w4 9 8 = 3 && 2 ≤ s.urgentOthers u q then s.fail c Status.urgentLimit
    else (s.modQp u q fun p => { p with next := some (schedOf e.w4) }).succeed c)

/-- RESTART_QUEUES (R140): the freeze ends, stopped SQs go on, TQ_FRZ clears. -/
def execRestartQueues (u : Nat) (s : State) : Host.Outcome State Fault Refusal :=
  commit s (s.run (s.adminCmd u 0x08) fun c =>
    let e := c.entry
    if e.headOk false false && e.noData && zeros [e.w4, e.w5, e.w6, e.w7] then
      (s.modTn u fun x => { x with frz := {}, qps := x.qps.map fun p => (p.1, { p.2 with stopped := false }) }).succeed c
    else s.fail c Status.invalidField)

end Sys2Proof.Machine
end

