-- ==== Sys2Proof/Machine/Registers.lean ====
section
/-! DEFINITION. The register map (chapter 18): what every register of BAR0 and BAR2 reads (views: no read has a row or a side effect,
R376), and REGISTER_WRITE. -/

namespace Sys2Proof.Machine

/-! ### BAR0 (Table 18-1) -/

/-- The lowest source from 0 to 383 that a tenant owns and whose status is set (R338). -/
def State.routedNext (s : State) (u : Nat) : Option Nat :=
  (List.range 384).find? fun e => (s.evSrc e).sts && (s.evSrc e).owner == u

/-- One word of a function's MSI-X table (PCI Express): address, then data and vector control. -/
def MsixVec.word (v : MsixVec) (hi : Bool) : Word := if hi then mkw [(0, v.data.toNat), (32, b2n v.masked)] else v.addr

/-- A register of tenant `u`'s BAR0 by its 8-byte offset; what is not listed reads 0 (R379). -/
def State.readBar0 (s : State) (u off : Nat) : Word :=
  let x := s.tn u
  let g := s.tenCfg u
  let img := s.ready rdIMAGE
  if off = 0x0000 then mkw [(0, if img then g.maxQdepth - 1 else 0), (16, if img then g.maxQp else 0), (25, b2n (u == 0)), (32, u), (40, 2), (48, 1)]
  else if off = 0x0008 then mkw [(16, 1)]
  else if off = 0x0010 then mkw [(0, b2n x.cfgEn)]
  else if off = 0x0018 then mkw [(0, b2n x.rdy), (1, b2n (decide (s.dev.fatal ≠ 0))), (2, b2n x.cfgErr)]
  else if off = 0x0020 then x.aqa
  else if off = 0x0028 then x.asq
  else if off = 0x0030 then x.acq
  else if off = 0x0038 then
    mkw [(0, b2n g.freeze), (1, b2n (!x.defLog.entries.isEmpty)), (16, x.defLog.entries.length)]
  else if off = 0x0040 then
    mkw [(0, b2n x.frz.frozen), (1, b2n (x.qps.any fun p => p.2.stopped)), (8, x.frz.sc), (16, x.frz.st), (32, x.frz.sqid), (48, x.frz.cid)]
  else if off = 0x0048 then mkw [(0, s.dev.ready.toNat), (32, b2n x.func)]
  else if off = 0x0050 then
    let n := s.routedNext u
    mkw [(0, ((List.range 8).map fun k => 2 ^ k * b2n (s.evSrc (evTen u k)).sts).sum), (8, b2n n.isSome), (16, n.getD 0), (25, b2n n.isSome)]
  else if off = 0x0058 then mkw [(0, ((List.range 8).map fun k => 2 ^ k * b2n (s.evSrc (evTen u k)).ena).sum)]
  else if 0x8000 ≤ off && off < 0x8000 + 16 * vectorCount u then
    (Tab.get ({} : MsixVec) x.fn.msix ((off - 0x8000) / 16)).word (off % 16 == 8)
  else if off = 0x9000 then
    BitVec.ofNat 64 ((List.range (vectorCount u)).map fun k => 2 ^ k * b2n (Tab.get ({} : MsixVec) x.fn.msix k).pending).sum
  else 0

/-! ### BAR2 device blocks (Table 18-2) -/

def State.readDevice (s : State) (off : Nat) : Word :=
  let d := s.dev
  let b := s.bm
  let x := s.sachet
  if off = 0x00000 then mkw [(0, 0x1F5D), (16, 0x0832), (32, 0x0833)]
  else if off = 0x00008 then mkw [(0, 0xB1), (16, 1)]
  else if off = 0x00030 then s.fuses.serial0
  else if off = 0x00038 then s.fuses.serial1
  else if off = 0x00010 then mkw [(0, d.ready.toNat)]
  else if off = 0x00018 then
    mkw [(0, d.lastReset), (2, b2n s.image.safe), (3, b2n s.image.copyB), (8, d.bufInit), (16, d.ctlPending.toNat)]
  else if off = 0x02900 then mkw [(0, d.xdisc.toNat), (32, d.xid)]
  else if off = 0x00020 then mkw [(0, d.fatal.toNat), (16, d.clkId), (24, d.fatalFirst)]
  else if off = 0x00028 then mkw [(0, s.therm.temp.toNat), (16, s.therm.peak.toNat), (32, b2n s.therm.limit), (33, b2n s.therm.shut)]
  else if off = 0x01000 then mkw [(0, s.pm.state), (2, b2n s.pm.exiting), (8, s.pm.lastWake)]
  else if off = 0x01008 then s.cfg.pwr0
  else if off = 0x01010 then s.cfg.pwr1
  else if off = 0x01020 then mkw [(0, s.pm.tlim.toNat)]
  else if 0x04000 ≤ off && off < 0x04040 then
    BitVec.ofNat 64 ((List.range 64).map fun j => 2 ^ j * b2n (s.evSrc (64 * ((off - 0x04000) / 8) + j)).sts).sum
  else if 0x04040 ≤ off && off < 0x04080 then
    BitVec.ofNat 64 ((List.range 64).map fun j => 2 ^ j * b2n (s.evSrc (64 * ((off - 0x04040) / 8) + j)).ena).sum
  else if 0x05000 ≤ off && off < 0x06000 then
    let e := s.evSrc ((off - 0x05000) / 8)
    if s.ready rdIMAGE then mkw [(0, e.owner), (8, e.vector), (16, e.count)] else mkw [(16, e.count)]
  else if off = 0x08000 then BitVec.ofNat 64 s.stats.epoch
  else if off = 0x08008 then mkw [(0, s.stats.epochMs), (32, s.stats.nextMs)]
  else if off = 0x08010 then mkw [(0, s.stats.missed.toNat)]
  else if off = 0x08018 then BitVec.ofNat 64 s.stats.boundUs
  else if off = 0x01028 then s.therm.vmon
  else if off = 0x01030 then s.therm.vmon2
  else if off = 0x02000 then
    mkw [(0, s.image.aCode), (8, s.image.bCode), (16, b2n s.image.sigChecked), (17, b2n s.image.nextCopy), (32, if s.image.loaded then s.image.img.seq else 0)]
  else if off = 0x02008 then mkw [(0, s.image.aOff), (32, s.image.bOff)]
  else if off = 0x02010 then mkw [(0, b2n s.fuses.keyHash.isSome)]
  else if off = 0x02800 then mkw [(0, s.pins.straps.toNat)]
  else if off = 0x02808 then
    mkw [(0, s.gpio.rwl.toNat), (4, ((List.range 4).map fun n => 2 ^ (8 * n) * (b2n (s.gpio.out.getLsbD n) + 2 * b2n (s.gpio.wake.getLsbD n))).sum)]
  else if off = 0x02810 then mkw [(0, s.gpio.level.toNat), (8, s.gpio.tamper.toNat)]
  else if off = 0x02A00 then
    mkw [(0, (s.vols.filter fun p => p.2.key.isSome).length), (8, if s.ready rdIMAGE then (s.cfg.ten.map fun p => p.2.keySlots).sum else 0),
      (16, min 65535 (s.vols.map fun p => p.2.chainWait.length).sum), (32, d.dsnResv % 2 ^ 32)]
  else if off = 0x10000 then mkw [(0, b.segTotal), (32, b.shared)]
  else if off = 0x10008 then mkw [(0, b.sharedFree), (32, b.urgFree)]
  else if off = 0x10010 then mkw [(0, b.corrected.toNat), (32, min 65535 b.uncorr), (48, min 65535 b.retired)]
  else if off = 0x10018 then mkw [(0, b.waitReq), (32, b.waitUrg)]
  else if 0x10100 ≤ off && off < 0x10140 then
    let g := (s.tp ((off - 0x10100) / 8)).gov
    mkw [(0, g.pressure), (16, g.pressPending % 2 ^ 32)]
  else if off = 0x12000 then if s.ready rdSACHET then mkw [(0, 1), (8, x.ringUsed), (32, x.ringHeld)] else 0
  else if off = 0x12008 then if s.ready rdSACHET then mkw [(0, x.wear 0), (16, x.wear 1), (32, x.wear 2), (48, x.wear 3)] else 0
  else if 0x14000 ≤ off && off < 0x14020 then
    let c : Core := Tab.get {} s.cores ((off - 0x14000) / 8)
    mkw [(0, c.load.toNat), (16, c.resp0.toNat), (32, c.replays.toNat), (48, c.misses.toNat)]
  else 0

/-! ### Lanes, transports, control engine (Tables 18-3 to 18-5) -/

def State.readLane (s : State) (n off : Nat) : Word :=
  let l := s.ln n
  if !s.lanePresent n then 0
  else if off = 0x000 then
    mkw [(0, l.state.code), (3, s.role n), (5, b2n l.rxInv), (6, b2n l.txInv), (7, b2n l.held), (8, l.preset), (32, l.feId.toNat)]
  else if off = 0x008 then mkw [(0, l.corrected.toNat), (32, l.uncorr.toNat), (48, min 255 l.window.length)]
  else if off = 0x010 then mkw [(0, l.bad.toNat), (24, l.dup.toNat), (40, l.framesBad.toNat), (52, l.wdog.toNat)]
  else if off = 0x018 then mkw [(0, l.reqd.toNat), (32, l.lost.toNat)]
  else if off = 0x020 then mkw [(0, l.switchSn.toNat), (48, l.rejoins.toNat), (56, l.quarantines.toNat)]
  else 0

/-- TP_CHQ. -/
def Chan.chq (c : Chan) : Word :=
  mkw [(0, c.fail4), (10, c.rows4), (20, c.snr.toNat), (28, match c.state with
      | .inService => 0 | .out => 1 | .outHeld => 2),
    (30, c.probeRun), (36, c.syncMiss.toNat), (52, c.takeouts.toNat)]

def State.readTp (s : State) (t off : Nat) : Word :=
  let x := s.tp t
  let m := x.mot
  let f := x.fmt
  if !s.tpExists t then 0
  else if off = 0x100 then
    mkw [(0, m.state.code), (4, m.oosCause), (8, b2n m.cartPresent), (9, b2n m.threaded), (10, b2n m.pendingTarget.isSome), (16, toField 16 m.vel), (32, toField 32 m.x)]
  else if off = 0x108 then
    let g := m.target.getD m.lastTarget
    mkw [(0, toField 32 g.x), (32, b2n g.dir), (40, g.speed), (48, g.kind)]
  else if off = 0x110 then
    let z := x.sol
    mkw [(0, b2n (decide (z.energ ≠ 0))), (1, z.energ.toNat), (4, match z.pullin with
        | some k => 2 ^ k
        | none => 0),
      (7, (z.wait.map fun k => 2 ^ k).sum), (10, z.solSt.toNat), (16, s.solCurrent t), (32, z.hsOc.toNat), (48, z.brakeFaults.toNat)]
  else if off = 0x118 then mkw [(0, b2n m.autoload)]
  else if off = 0x120 then mkw [(0, m.replans.toNat), (16, m.reversals.toNat), (32, m.emergencies.toNat), (48, m.loads.toNat)]
  else if off = 0x200 then mkw [(0, f.wrap), (8, f.wrap / 8), (32, f.interval)]
  else if off = 0x208 then mkw [(0, f.nextDsn % 2 ^ 48)]
  else if off = 0x210 then mkw [(0, f.tmask.toNat), (32, f.nact), (40, f.p), (48, f.q)]
  else if off = 0x218 then mkw [(0, f.rwRows.toNat), (32, f.rwOnly.toNat), (48, f.overflow.toNat)]
  else if off = 0x300 then
    let g := x.gov
    mkw [(0, g.speed), (4, g.goal), (8, g.level), (10, b2n g.burst), (11, b2n g.drain), (12, b2n s.therm.limit), (16, min (2 ^ 32 - 1) (g.inflow / 1000)),
      (48, g.changes.toNat)]
  else if off = 0x308 then
    let v := x.vfy
    mkw [(0, v.rowsFailed.toNat), (32, min 65535 v.retries), (48, min 255 v.abandoned), (56, b2n v.unwritable)]
  else if off = 0x310 then mkw [(0, Tab.get 0 s.sachet.ss t % 2 ^ 32), (32, if s.ready rdIMAGE then (s.trnCfg t).ratedSs else 0)]
  else if off = 0x318 then mkw [(0, x.vfy.pruneRecords.toNat), (32, x.vfy.pruneGaps.toNat)]
  else if off = 0x400 then x.rc.cfg
  else if off = 0x408 then x.rc.target
  else if off = 0x410 then mkw [(0, s.outMask t), (32, s.heldMask t)]
  else if off = 0x418 then mkw [(0, x.rc.c3.toNat), (16, x.rc.reread.toNat), (32, x.rc.unrec.toNat)]
  else if 0x500 ≤ off && off < 0x600 then (s.chan t ((off - 0x500) / 8)).chq
  else if off = 0x600 then
    mkw [(0, x.fe.temp.toNat), (16, x.fe.vmot.toNat), (32, x.fe.vlog.toNat), (48, x.fe.clip.toNat), (56, x.fe.late.toNat)]
  else 0

/-- A data value of a slot as its register shows it: X32 whole, F16 in the upper half. -/
def Slot.shown (z : Slot) (v : Int) : Nat := toField 32 (if loopX32 z.w0 then v else v * 65536)

def State.readSlot (s : State) (t k off : Nat) : Word :=
  let z := s.slot t k
  if off = 0x000 then z.w0
  else if off = 0x008 then z.w1
  else if off = 0x010 then
    mkw [(0, b2n z.stale), (1, b2n z.frozen), (2, b2n z.miss), (3, b2n z.fault), (4, b2n (s.slotHeld t 8 k)), (5, b2n z.sensorless), (6, b2n z.bemf),
      (7, b2n z.sat), (8, b2n (s.outConflict t k)), (16, z.retries)]
  else if off = 0x018 then mkw [(0, z.stales.toNat), (16, z.freezes.toNat), (32, z.misses.toNat), (48, z.faults.toNat)]
  else if off = 0x020 then mkw [(0, z.shown z.x), (32, z.shown z.out)]
  else if off = 0x028 then BitVec.ofNat 64 (toField 64 z.integ)
  else if off = 0x030 then mkw [(8, b2n z.pending), (16, b2n z.err), (24, z.errIdx)]
  else if 0x040 ≤ off && off < 0x040 + 8 * 51 then z.active.getD ((off - 0x040) / 8) 0
  else if 0x200 ≤ off && off < 0x200 + 8 * 51 then z.shadow.getD ((off - 0x200) / 8) 0
  else 0

def State.readCe (s : State) (t off : Nat) : Word :=
  let g := (s.tp t).gu
  if !s.tpExists t then 0
  else if off < 0x2000 then s.readSlot t (off / 0x400) (off % 0x400)
  else if off = 0x2000 then g.cfg
  else if off = 0x2008 then mkw [(0, b2n g.permit), (1, b2n g.gate), (2, g.lastCause)]
  else if off = 0x2010 then mkw [(0, g.cntStale.toNat), (16, g.cntInvalid.toNat), (32, g.cntOff.toNat), (48, g.cntSpeed.toNat)]
  else if off = 0x2018 then mkw [(0, g.bemfA.toNat)]
  else if off = 0x2020 then mkw [(0, g.bemfB.toNat)]
  else if off = 0x2028 then mkw [(0, g.ratioA.toNat), (32, g.ratioB.toNat)]
  else 0

/-- A register of BAR2 by its 8-byte offset. -/
def State.readBar2 (s : State) (off : Nat) : Word :=
  if off < 0x20000 then s.readDevice off
  else if off < 0x28000 then s.readLane (off / 0x1000 - 0x20) (off % 0x1000)
  else if off < 0x30000 then 0
  else if off < 0x38000 then s.readTp (off / 0x1000 - 0x30) (off % 0x1000)
  else if 0x40000 ≤ off && off < 0x60000 then s.readCe ((off - 0x40000) / 0x4000) (off % 0x4000)
  else 0

/-- What a memory read of 4 or 8 bytes returns (R374): `none` where the space does not answer. BAR2 is the steward's (R74). -/
def State.readReg (s : State) (fn bar off len : Nat) : Option Word :=
  if !s.reach fn || !(bar == 0 || (bar == 2 && fn == 0)) then none
  else
    let w := if bar = 0 then s.readBar0 fn (off / 8 * 8) else s.readBar2 (off / 8 * 8)
    some (if len = 8 then w else BitVec.ofNat 64 (if off % 8 = 4 then fld w 63 32 else fld w 31 0))

/-- What a read TLP of 8 to 64 bytes returns (R375): each register it covers as its own 8-byte read, in ascending order. -/
def State.readTlp (s : State) (fn bar off len : Nat) : List (Option Word) := (List.range (len / 8)).map fun k => s.readReg fn bar (off + 8 * k) 8

/-! ### Writes -/

/-- The bits of a register that a write changes: those of the mask that stand in the RW field [hi:lo]. -/
def merge (old value mask : Word) (hi lo : Nat) : Word :=
  let m := mask &&& (BitVec.ofNat 64 ((2 ^ (hi + 1 - lo) - 1) * 2 ^ lo))
  (old &&& ~~~m) ||| (value &&& m)

/-- A BAR0 register (R374, R80, R337, R338, R78). `value` holds 0 outside `mask`, which covers whole halves. -/
def State.writeBar0 (s : State) (u off : Nat) (value mask : Word) : State :=
  let x := s.tn u
  if off = 0x0010 then
    if !bit mask 0 then s else if bit value 0 then s.tqEnable u else s.tqDisable u
  else if off = 0x0020 then
    if x.cfgEn then s else s.modTn u fun x => { x with aqa := merge (merge x.aqa value mask 7 0) value mask 23 16 }
  else if off = 0x0028 then if x.cfgEn then s else s.modTn u fun x => { x with asq := merge x.asq value mask 63 12 }
  else if off = 0x0030 then if x.cfgEn then s else s.modTn u fun x => { x with acq := merge x.acq value mask 63 12 }
  else if off = 0x0050 then s.tqEvtWrite u value
  else if off = 0x0058 then
    if bit mask 0 then s.each (List.range 8) fun s k => s.setEna (evTen u k) (bit value k) else s
  else if 0x1000 ≤ off && off < 0x2000 && bit mask 0 then
    if off % 16 = 0 then s.sqTail u ((off - 0x1000) / 16) value [] else s.cqHead u ((off - 0x1000) / 16) value
  else if 0x8000 ≤ off && off < 0x8000 + 16 * vectorCount u then
    let k := (off - 0x8000) / 16
    let put : MsixVec → MsixVec := fun v =>
      if off % 16 = 0 then { v with addr := merge v.addr value mask 63 2 }
      else { v with data := BitVec.ofNat 32 (fld (merge (BitVec.ofNat 64 v.data.toNat) value mask 31 0) 31 0),
                    masked := if bit mask 32 then bit value 32 else v.masked }
    (s.modTn u fun x => { x with fn := { x.fn with msix := Tab.set k (put (Tab.get {} x.fn.msix k)) x.fn.msix } }).flushMsix u
  else s

/-- CF_GPIO: OUT and WAKE always, FUNC and POL until the image load completes or safe mode is entered (R4, R378); the values in force
wait for the load (R17, R19). -/
def State.writeGpio (s : State) (value mask : Word) : State :=
  let at_ : BitVec 4 → Nat → BitVec 4 := fun old k =>
    (List.range 4).foldl (fun r n => if bit mask (8 * n + k) then setBit r n (bit value (8 * n + k)) else r) old
  s.modGpio fun g =>
    { g with out := at_ g.out 4, wake := at_ g.wake 5
             rwl := if s.loading && bit mask 0 then value.setWidth 32 &&& 0x0F0F0F0F else g.rwl }

/-- A register of the device blocks. -/
def State.writeDevice (s : State) (off : Nat) (value mask : Word) : State :=
  if off = 0x01018 then if bit value 0 then s.pmWake else s
  else if off = 0x01020 then if bit mask 0 then s.modPm fun p => { p with tlim := value.setWidth 8 } else s
  else if 0x04000 ≤ off && off < 0x04040 then s.evStsWrite ((off - 0x04000) / 8) value
  else if 0x04040 ≤ off && off < 0x04080 then
    s.each ((List.range 64).filter fun j => bit mask j && !evReserved (64 * ((off - 0x04040) / 8) + j)) fun s j =>
      s.setEna (64 * ((off - 0x04040) / 8) + j) (bit value j)
  else if off = 0x02808 then s.writeGpio value mask
  else if off = 0x02810 then s.modGpio fun g => { g with tamper := g.tamper &&& ~~~BitVec.ofNat 4 (fld value 11 8) }
  else if off = 0x12010 then if mask = BitVec.allOnes 64 then s.ringRel value else s
  else s

/-- A register of a transport's block: discarded in a transport reset (R382). -/
def State.writeTp (s : State) (t off : Nat) (value mask : Word) : State :=
  if !s.tpExists t || (s.tp t).ld.resetting then s
  else if off = 0x118 then if bit mask 0 then s.modMot t fun m => { m with autoload := bit value 0 } else s
  else if off = 0x400 then s.modRc t fun r => { r with cfg := merge r.cfg value mask 11 0 }
  else if off = 0x408 then s.modRc t fun r => { r with target := merge r.target value mask 15 0 }
  else s

/-- A register of a control-engine block. -/
def State.writeCe (s : State) (t off : Nat) (value mask : Word) : State :=
  if !s.tpExists t || (s.tp t).ld.resetting then s
  else if off < 0x2000 then
    let k := off / 0x400
    let o := off % 0x400
    if o = 0x010 then
      s.modSlot t k fun z => { z with stale := z.stale && !bit value 0, frozen := z.frozen && !bit value 1, miss := z.miss && !bit value 2,
                                      fault := z.fault && !bit value 3, sat := z.sat && !bit value 7 }
    else if o = 0x030 then if bit value 0 then s.coefCommit t k (bit value 1) else s
    else if 0x200 ≤ o && o < 0x200 + 8 * 51 then
      s.modSlot t k fun z =>
        let j := (o - 0x200) / 8
        { z with shadow := (z.shadow ++ List.replicate (51 - z.shadow.length) 0).modify j fun w => merge w value mask 63 0 }
    else s
  else if off = 0x2000 then s.modGu t fun g => { g with cfg := merge g.cfg value mask 31 0 }
  else if off = 0x2018 then s.modGu t fun g => { g with bemfA := BitVec.ofNat 32 (fld (merge (BitVec.ofNat 64 g.bemfA.toNat) value mask 31 0) 31 0) }
  else if off = 0x2020 then s.modGu t fun g => { g with bemfB := BitVec.ofNat 32 (fld (merge (BitVec.ofNat 64 g.bemfB.toNat) value mask 31 0) 31 0) }
  else s

/-- One register write, whole or a half (R374). -/
def State.writeReg (s : State) (fn bar off : Nat) (value mask : Word) : State :=
  if mask = 0 then s
  else if bar = 0 then s.writeBar0 fn off value mask
  else if off < 0x20000 then s.writeDevice off value mask
  else if 0x30000 ≤ off && off < 0x38000 then s.writeTp (off / 0x1000 - 0x30) (off % 0x1000) value mask
  else if 0x40000 ≤ off && off < 0x60000 then s.writeCe ((off - 0x40000) / 0x4000) (off % 0x4000) value mask
  else s

/-- The halves of a TLP from its offset on, as (offset, value) of each enabled 4-byte unit; `none` where the byte enables do not cover
whole units (R375). The fuel is a unit each. -/
def tlpUnits : Nat → Nat → List (Byte × Bool) → Option (List (Nat × Nat))
  | 0, _, bs => if bs.isEmpty then some [] else none
  | n + 1, off, bs =>
    if bs.isEmpty then some []
    else
      let h := bs.take 4
      if h.length ≠ 4 then none
      else if h.all (·.2) then (tlpUnits n (off + 4) (bs.drop 4)).map fun r => (off, leNat (h.map (·.1))) :: r
      else if h.any (·.2) then none
      else tlpUnits n (off + 4) (bs.drop 4)

/-- The register writes of a list of units in ascending order: two halves of one register are one write. -/
def unitWrites : List (Nat × Nat) → List (Nat × Word × Word)
  | [] => []
  | [(o, v)] => if o % 8 = 4 then [(o - 4, mkw [(32, v)], mkw [(32, 0xFFFFFFFF)])] else [(o, mkw [(0, v)], mkw [(0, 0xFFFFFFFF)])]
  | (o, v) :: (o2, v2) :: r =>
    if o % 8 = 4 then (o - 4, mkw [(32, v)], mkw [(32, 0xFFFFFFFF)]) :: unitWrites ((o2, v2) :: r)
    else if o2 = o + 4 then (o, mkw [(0, v), (32, v2)], BitVec.allOnes 64) :: unitWrites r
    else (o, mkw [(0, v)], mkw [(0, 0xFFFFFFFF)]) :: unitWrites ((o2, v2) :: r)

/-- REGISTER_WRITE (R374 to R379, R382): the registers of the TLP are written in ascending order. A TLP to a register with a row of its
own has that row's effect, an SQ tail doorbell with entries that read 0. -/
def execRegisterWrite (w : RegWrite) (s : State) : Host.Outcome State Fault Refusal :=
  if !s.reach w.fn || !(w.bar == 0 || (w.bar == 2 && w.fn == 0)) || w.offset % 4 ≠ 0 then commit s s
  else match tlpUnits (w.bytes.length / 4 + 1) w.offset w.bytes with
    | none => commit s s
    | some us => commit s (s.tlp.each (unitWrites us) fun s x => s.writeReg w.fn w.bar x.1 x.2.1 x.2.2)

end Sys2Proof.Machine
end

