-- ==== Sys2Proof/Machine/Admin.lean ====
section
/-! DEFINITION. IDENTIFY, GET_LOG, SET_FEATURES, GET_FEATURES (R106, R126, R138, R247, R342). -/

namespace Sys2Proof.Machine

/-- What a command that writes data to host memory needs of its data fields; LEN 0 may come with DTYPE 0. -/
def Cmd.outOk (c : Cmd) : Bool := c.entry.noData || c.entry.dataOk c.data

/-! ### Identify (R126) -/

/-- Bytes padded with zeros to 4,096. -/
def page (b : Bytes) : Bytes := slice b 0 4096

/-- CNS 0x00. -/
def State.identDevice (s : State) : Bytes :=
  let b := wordBytes (s.readDevice 0) ++ wordBytes (s.readDevice 8) ++ wordBytes s.fuses.serial0 ++ wordBytes s.fuses.serial1 ++
    leBytes 4 0x00010000 ++ leBytes 4 s.image.img.seq ++
    leBytes 1 s.tenantList.length ++ leBytes 1 ((s.tpList.map fun t => 2 ^ t).sum) ++ leBytes 1 s.cfg.lanes.toNat ++ leBytes 1 s.cfg.paired.toNat ++
    leBytes 2 1024 ++ leBytes 2 1023 ++ leBytes 8 (bufBytes s.cfg) ++
    leBytes 4 33554432 ++ leBytes 4 ringSize ++ leBytes 4 67108864 ++ leBytes 2 4096 ++ leBytes 2 64 ++ leBytes 4 1048576
  page (slice b 0 0x50 ++ leBytes 4 20 ++ leBytes 4 2500 ++ leBytes 4 30000 ++ leBytes 4 0 ++ leBytes 4 600 ++ leBytes 4 1800)

/-- CNS 0x01: the submitting tenant. -/
def State.identTenant (s : State) (u : Nat) : Bytes :=
  let g := s.tenCfg u
  let mine := s.volsOfTenant u
  page (leBytes 1 u ++ leBytes 2 g.weight ++ leBytes 1 (b2n g.pruneEn) ++ leBytes 1 (b2n g.freeze) ++ leBytes 2 g.maxQp ++ leBytes 2 g.maxQdepth ++
    leBytes 2 g.maxVol ++ leBytes 2 g.keySlots ++ leBytes 2 g.floor ++ leBytes 2 (s.tn u).qps.length ++
    leBytes 2 (s.urgentOthers u 0) ++ leBytes 2 mine.length ++ leBytes 2 (mine.filter fun p => p.2.key.isSome).length)

/-- Wrap groups without live data, that of the append point left out (R112). -/
def State.groupsFree (s : State) (t : Nat) : List Nat :=
  (List.range 26).filter fun g => g != (s.fmt t).wrap / 8 && !liveGroup (s.dir t) g

/-- CNS 0x02; with no cartridge the serial is spaces and the counts 0. Volumes on the cartridge are the used entries of its directory, those of
deleted volumes too (DESIGN CHOICE, assumption 83). -/
def State.identTransport (s : State) (t : Nat) : Bytes :=
  let cart := (s.tp t).ld.cart
  let has := cart.isSome
  page (leBytes 1 (s.mot t).state.code ++ leBytes 1 (s.tp t).gov.speed ++ leBytes 4 (s.outMask t) ++
    (((cart.map (·.serial)).getD []).take 32 ++ List.replicate (32 - ((cart.map (·.serial)).getD []).length) 0x20) ++
    leBytes 2 (if has then (s.groupsFree t).length else 0) ++ leBytes 2 (if has then ((s.dir t).vols.filter fun v => v.2.used).length else 0) ++
    leBytes 4 (Tab.get 0 s.sachet.ss t) ++ leBytes 4 (s.trnCfg t).ratedSs)

/-- CNS 0x03: the tenant's online volumes from the first handle up; Count is the number of those listed (DESIGN CHOICE, assumption 83). -/
def State.identVolumes (s : State) (u first : Nat) : Bytes :=
  let l := ((s.volsOfTenant u).filter fun p => decide (first ≤ p.1)).take 170
  page (leBytes 2 l.length ++ leBytes 6 0 ++ l.flatMap fun p =>
    leBytes 2 p.1 ++ leBytes 1 p.2.transport ++ leBytes 1 (b2n p.2.encrypt + 2 * b2n p.2.strict + 4 * b2n p.2.hold + 8 * b2n p.2.key.isSome) ++
      leBytes 2 p.2.retention ++ leBytes 2 0 ++ uuidBytes p.2.uuid)

/-- The lowest LOCATE limit in 0.1 m/s among the transports that exist. -/
def State.minLocate (s : State) : Nat := (s.tpList.map fun t => (s.trnCfg t).locate).foldl min 100

/-- Image Write's maximum duration in ms, from the times of the NVM's SFDP tables (R69). -/
def imageWriteMs : Nat := ceilDiv (16 * (Config.nvmSectorEraseUs + 256 * Config.nvmPageProgramUs)) 1000 + 2

/-- Maximum duration in ms and OPEN of an opcode (Table 06-13); a quotient by the LOCATE speed is rounded up (DESIGN CHOICE, assumption 83). -/
def duration (loc op : Nat) : Nat × Bool :=
  let per := fun (k : Nat) => ceilDiv (k * 10) loc
  match op with
  | 0x01 | 0x02 | 0x04 | 0x06 | 0x07 | 0x08 | 0x30 | 0x86 => (2, false)
  | 0x18 => (5, false)
  | 0x05 | 0x84 => (10, false)
  | 0x10 | 0x11 | 0x12 => (25, false)
  | 0x19 | 0x22 => (50, false)
  | 0x81 => (250, false)
  | 0x21 => (2000, false)
  | 0x29 => (35, false)
  | 0x28 => (imageWriteMs, false)
  | 0x85 => (120000, true)
  | 0x83 => (30000 + per 1000000, false)
  | 0x82 => (40000 + per 2000000, true)
  | 0x20 | 0x87 => (100000 + per 2000000, true)
  | 0x03 => (40000 + per 2000000 + 2, true)
  | _ => (0, false)

/-- CNS 0x04. -/
def State.identDurations (s : State) : Bytes :=
  page ((List.range 256).flatMap fun op =>
    let d := duration s.minLocate op
    leBytes 4 (d.1 % 2 ^ 31 + 2 ^ 31 * b2n d.2))

/-- IDENTIFY. -/
def execIdentify (u : Nat) (h : HostData) (s : State) : Host.Outcome State Fault Refusal :=
  commit s (s.run (s.adminCmd u 0x01) fun c0 =>
    let c := { c0 with data := h }
    let e := c.entry
    let cns := fld e.w4 7 0
    let t := fld e.w4 15 8
    let first := fld e.w4 31 16
    let ok := e.headOk false false && e.dataOk h && decide (4096 ≤ e.len) && fld e.w4 63 32 == 0 && zeros [e.w5, e.w6, e.w7] &&
      decide (cns ≤ 4) && (if cns = 2 then s.tpExists t else t == 0) && (cns == 3 || first == 0)
    if !ok then s.fail c Status.invalidField
    else
      let b := match cns with
        | 0 => s.identDevice
        | 1 => s.identTenant u
        | 2 => s.identTransport t
        | 3 => s.identVolumes u first
        | _ => s.identDurations
      (s.hostWrite c b).succeed c)

/-! ### Logs -/

/-- A Transport Health entry (Table 12-2). -/
def Chan.health (x : Chan) (c : Nat) : Bytes :=
  wordsBytes [mkw [(0, c), (8, fld x.chq 55 0)], mkw [(0, x.rows.toNat), (32, x.failed.toNat)], mkw [(0, x.corrected.toNat), (32, x.viol.toNat)],
    mkw [(0, x.probes % 2 ^ 32), (32, x.probesFailed % 2 ^ 32)], mkw [(0, x.outMs % 2 ^ 32), (32, x.clipped.toNat)], 0, 0, 0]

/-- The Transport Health log (R247); its NEXT_COUNT is not stated (a free value). -/
def State.healthLog (s : State) (t : Nat) : Bytes :=
  wordsBytes [32, 0, s.free, 0, 0, 0, 0, 0] ++ (List.range 32).flatMap fun c => (s.chan t c).health c

/-- The descriptor of a snapshot (Table 16-5). -/
def Snapshot.descriptor (x : Snapshot) : Bytes :=
  wordsBytes [BitVec.ofNat 64 x.epoch, BitVec.ofNat 64 x.startUs, BitVec.ofNat 64 x.lengthUs,
    mkw [(0, x.epochMs), (32, b2n (x.epoch == 0)), (33, x.psSeen % 16)], 0, 0, 0, 0]

/-- The Statistics Snapshot log as tenant `u` reads it (R342, R343): all 608 counters for the steward, else the tenant's 16. -/
def State.statLog (s : State) (u : Nat) : Bytes :=
  let x := s.tn u
  let hdr : Nat → Bytes := fun n => wordsBytes [BitVec.ofNat 64 n, BitVec.ofNat 64 x.snapLost, BitVec.ofNat 64 s.stats.epoch, 0, 0, 0, 0, 0]
  match s.stats.snap with
  | none => hdr 0
  | some p =>
    if x.snapRead then hdr 0
    else
      let ks := if u = 0 then List.range 608 else (List.range 16).map (stTen u ·)
      hdr (1 + ks.length / 8) ++ p.descriptor ++ ks.flatMap fun k => leBytes 8 (Tab.get 0 p.counters k)

/-- The log of an LID for tenant `u` (Table 07-3): its bytes; `none` where the LID or its transport is not one the tenant may read. -/
def State.logBytes (s : State) (u lid t : Nat) : Option Bytes :=
  let x := s.tn u
  if lid ≠ 7 && t ≠ 0 then none
  else match lid with
    | 1 => some x.errLog.bytes
    | 2 => some x.defLog.bytes
    | 3 => some (Tab.get {} s.sachet.lostRec u).bytes
    | 4 => some x.pruneLog.bytes
    | 5 => some (s.statLog u)
    | 6 => some (Tab.get {} s.sachet.anchors u).bytes
    | 7 => if s.tpExists t && (u == 0 || (s.volsOfTenant u).any fun p => p.2.transport == t) then some (s.healthLog t) else none
    | 8 => some (Tab.get {} s.sachet.orphan u).bytes
    | _ => none

/-- A whole read consumes the logs marked consumed (R138, R189, R238, R343). -/
def State.consumeLog (s : State) (u lid : Nat) : State :=
  let clear : Log → Log := fun l => { l with entries := [] }
  match lid with
  | 2 => s.modTn u fun x => { x with defLog := clear x.defLog }
  | 3 => s.modSachet fun x => { x with lostRec := Tab.set u (clear (Tab.get {} x.lostRec u)) x.lostRec }
  | 4 => s.modTn u fun x => { x with pruneLog := clear x.pruneLog }
  | 5 => if s.stats.snap.isSome then s.modTn u fun x => { x with snapRead := true } else s
  | 6 => s.modSachet fun x => { x with anchors := Tab.set u (clear (Tab.get {} x.anchors u)) x.anchors }
  | 8 => s.modSachet fun x => { x with orphan := Tab.set u (clear (Tab.get {} x.orphan u)) x.orphan }
  | _ => s

/-- GET_LOG (R138, R147, R342): a snapshot read during the copy of R341 waits for SNAPSHOT_READY, the state unchanged. -/
def execGetLog (u : Nat) (h : HostData) (s : State) : Host.Outcome State Fault Refusal :=
  commit s (s.run (s.adminCmd u 0x05) fun c0 =>
    let c := { c0 with data := h }
    let e := c.entry
    let lid := fld e.w4 7 0
    let off := fld e.w4 63 32
    let ok := e.headOk false false && c.outOk && fld e.w4 31 16 == 0 && zeros [e.w5, e.w6, e.w7] && off % 8 == 0 && e.len % 8 == 0
    if !ok then s.fail c Status.invalidField
    else if lid = 5 && s.stats.holding.isSome then s
    else match s.logBytes u lid (fld e.w4 15 8) with
      | none => s.fail c Status.invalidField
      | some b =>
        let data := (b.drop off).take e.len
        let s1 := if data.isEmpty then s else s.hostWrite c data
        let s2 := if off = 0 && b.length ≤ e.len then s1.consumeLog u lid else s1
        (if lid = 7 then s2.take else s2).succeed c (BitVec.ofNat 64 b.length))

/-! ### Features (R68, R106, R339) -/

def tenantFid (fid : Nat) : Bool := fid == 0x10 || fid == 0x11 || fid == 0x12
def transportFid (fid : Nat) : Bool := fid == 0x30 || fid == 0x31 || fid == 0x32
def knownFid (fid : Nat) : Bool := tenantFid fid || transportFid fid || fid == 0x20 || fid == 0x21 || fid == 0x40 || fid == 0x50

/-- FID known, and W4's tenant or transport one that exists; a field that the FID does not use is `res`. -/
def State.featureOk (s : State) (e : SubEntry) : Bool :=
  let fid := fld e.w4 7 0
  e.headOk false false && e.noData && knownFid fid && fld e.w4 15 12 == 0 && fld e.w4 63 24 == 0 && zeros [e.w6, e.w7] &&
    (if tenantFid fid then s.fnExists (fld e.w4 11 8) else fld e.w4 11 8 == 0) &&
    (if transportFid fid then s.tpExists (fld e.w4 23 16) else fld e.w4 23 16 == 0)

/-- The value in force. -/
def State.feature (s : State) (fid u t ev : Nat) : Word :=
  let p := s.cfg.prn
  let c := s.trnCfg t
  match fid with
  | 0x10 => mkw [(0, (s.tenCfg u).weight)]
  | 0x11 => mkw [(0, b2n (s.tenCfg u).pruneEn)]
  | 0x12 => mkw [(0, b2n (s.tenCfg u).freeze)]
  | 0x20 => mkw [(0, p.l1), (8, p.l2), (16, p.l3), (24, p.hyst), (32, p.gapAggMs)]
  | 0x21 => mkw [(0, p.spdIntMs), (16, p.avgMs), (32, p.margin), (48, p.burst)]
  | 0x30 => mkw [(0, c.verifyV)]
  | 0x31 => mkw [(0, c.bstart), (32, c.bstop)]
  | 0x32 => mkw [(0, c.maxSpeed)]
  | 0x40 => mkw [(0, s.stats.nextMs)]
  | _ =>
    let e := s.evSrc ev
    mkw [(0, ev), (16, e.owner), (24, e.vector), (32, b2n e.ena)]

def State.modCfg (s : State) (f : Settings → Settings) : State := s.modImage fun i => { i with cfg := f i.cfg }
def State.modTen (s : State) (u : Nat) (f : TenCfg → TenCfg) : State := s.modCfg fun g => { g with ten := Tab.set u (f (Tab.get {} g.ten u)) g.ten }
def State.modTrn (s : State) (t : Nat) (f : TrnCfg → TrnCfg) : State := s.modCfg fun g => { g with trn := Tab.set t (f (Tab.get {} g.trn t)) g.trn }

/-- The override of a feature, where the value passes the image's ranges and cross-checks (R68); PRN W1 and MAX_SPEED act from the
next dataset boundary. -/
def State.setFeature (s : State) (fid u t : Nat) (v : Word) : Option State :=
  let n := v.toNat
  let checked : State → Option State := fun s1 => if crossOk s1.cfg then some s1 else none
  match fid with
  | 0x10 => if inRange 1 256 n then some (s.modTen u fun x => { x with weight := n }) else none
  | 0x11 => if n ≤ 1 then some (s.modTen u fun x => { x with pruneEn := n == 1 }) else none
  | 0x12 => if n ≤ 1 then some (s.modTen u fun x => { x with freeze := n == 1 }) else none
  | 0x20 => if prnW0Ok v then checked (s.modCfg fun g => { g with prn := prnSet0 g.prn v }) else none
  | 0x21 =>
    if prnW1Ok v then
      some ((s.each s.tpList fun s k => s.modGov k fun g => { g with prnUse := some (g.prnUse.getD s.cfg.prn) }).modCfg fun g => { g with prn := prnSet1 g.prn v })
    else none
  | 0x30 => if n ≤ 6 then some (s.modTrn t fun c => { c with verifyV := n }) else none
  | 0x31 => checked (s.modTrn t fun c => { c with bstart := fld v 31 0, bstop := fld v 63 32 })
  | 0x32 =>
    if n ≤ (Tab.get ({} : TrnCfg) s.image.img.trn t).maxSpeed then
      some ((s.modGov t fun g => { g with maxUse := some (g.maxUse.getD (s.trnCfg t).maxSpeed) }).modTrn t fun c => { c with maxSpeed := n })
    else none
  | 0x40 => if inRange 1 60000 n then some ((s.modStats fun x => { x with nextMs := n }).modCfg fun g => { g with epochMs := n }) else none
  | 0x50 =>
    if evtOk s.image.early.totalVfs v then
      let e := evtOf v
      some (s.modEvSrc e.event fun x => { x with owner := e.owner, vector := e.vector, ena := e.enable })
    else none
  | _ => none

/-- SET_FEATURES: the result is the previous value. -/
def execSetFeatures (u : Nat) (s : State) : Host.Outcome State Fault Refusal :=
  commit s (s.run (s.adminCmd u 0x06) fun c =>
    let e := c.entry
    let fid := fld e.w4 7 0
    let t := fld e.w4 23 16
    if !s.featureOk e then s.fail c Status.invalidField
    else match s.setFeature fid (fld e.w4 11 8) t e.w5 with
      | none => s.fail c Status.invalidField
      | some s1 => s1.succeed c (s.feature fid (fld e.w4 11 8) t (fld e.w5 15 0)))

/-- GET_FEATURES. -/
def execGetFeatures (u : Nat) (s : State) : Host.Outcome State Fault Refusal :=
  commit s (s.run (s.adminCmd u 0x07) fun c =>
    let e := c.entry
    let fid := fld e.w4 7 0
    if s.featureOk e && (if fid = 0x50 then decide (e.w5.toNat < 512) else e.w5 == 0) then
      s.succeed c (s.feature fid (fld e.w4 11 8) (fld e.w4 23 16) (fld e.w5 15 0))
    else s.fail c Status.invalidField)

end Sys2Proof.Machine
end

