-- ==== Sys2Proof/Machine/Bringup.lean ====
section
/-! DEFINITION. Bring-up and the image commands: EARLY_BLOCK_LOADED, IMAGE_LOAD_COMPLETE, SACHET_MOUNTED, BUFFER_INIT_DONE,
UNIT_SELF_TEST_DONE, IMAGE_WRITE, IMAGE_ACTIVATE. -/

namespace Sys2Proof.Machine

/-- EARLY_BLOCK_LOADED (R64, R66, R15): copy A's header and early block, else copy B's; with neither, or with FORCE_SAFE, safe
mode. Configuration space answers, and HOST sets with PERST_N high. -/
def execEarlyBlockLoaded (fails : List NvmFail) (s : State) : Host.Outcome State Fault Refusal :=
  if !s.on || s.earlyDone then commit s s
  else
    let use : Bool → Bytes × EarlyCfg → State := fun b x =>
      s.modImage fun i => { i with earlyFrom := some b, earlyBytes := x.1, early := x.2 }
    let s1 := if s.pins.straps.getLsbD 0 then s.enterSafe
      else match s.earlyOf fails false with
        | .ok x => use false x
        | .error a => match s.earlyOf fails true with
          | .ok x => (use true x).modImage fun i => { i with aCode := a.1, aOff := a.2 }
          | .error b => (s.modImage fun i => { i with aCode := a.1, aOff := a.2, bCode := b.1, bOff := b.2 }).enterSafe
    let s2 := if s1.pins.perstN then s1.hostUp else s1
    commit s (if s2.image.safe then s2.runAfterLoad fails else s2)

/-- IMAGE_LOAD_COMPLETE (R65 to R67, R71, R4): the copies are checked, one is delivered, RWL fields lock; Tamper assertions held
since PERST_N are issued (R19), and waiting image commands run (R72). -/
def execImageLoadComplete (fails : List NvmFail) (s : State) : Host.Outcome State Fault Refusal :=
  if !s.on || s.image.earlyFrom.isNone || !s.loading then commit s s
  else
    let s1 := s.loadImage fails
    let s2 := if s1.image.loaded then (s1.modGpio fun g => { g with held := [] }).each s1.gpio.held (fun s n => s.tamperEffects n) else s1
    commit s (s2.runAfterLoad fails)

/-- The Lost Record REASON of a snapshot's REASON: power loss, PERST_N, device fatal. -/
def lossReason (r : Nat) : Nat := if r = 4 then 1 else if r = 5 then 2 else 0

/-- The losses of a crash record are kept until their cartridges load; the ring entries they may replay are held (R166), those of a replay
that the loss interrupted under its LOSS_ID too (assumption 79). -/
def State.recordLosses (s : State) (lossId reason : Nat) (vols : List CrashVol) : State :=
  let known := s.sachet.pendingLoss.map fun p => (p.vol.uuid, p.lossId)
  let new := (vols.filter fun v => !known.contains (v.uuid, lossId)).map fun v => ({ vol := v, lossId := lossId, reason := lossReason reason, applied := false } : PendingLoss)
  s.modSachet fun x => { x with
    pendingLoss := (x.pendingLoss.filter fun p => !p.applied || p.lossId == lossId) ++ new,
    ring := x.ring.map fun e => if vols.any (fun v => decide (v.uuid = e.uuid) && decide (v.v < e.seq) && decide (e.seq ≤ v.a)) && !e.done
      then { e with held := some lossId } else e }

/-- What the mount reads (R161, R166, R387): CRC failures of ring entries, slot headers and journal entries, and the life counters of the last
valid checkpoint. -/
def Sachet.mount (x : Sachet) (m : MountFinding) : Sachet :=
  { x.restore m.checkpoints with
    ring := x.ring.map fun e => if m.ring.contains e.off then { e with crcOk := false } else e
    slotA := if m.slots.contains false then { x.slotA with ok := false } else x.slotA
    slotB := if m.slots.contains true then { x.slotB with ok := false } else x.slotB
    journal := x.journal.map fun j => if m.journal.contains j.off then { j with ok := false } else j }

/-- SACHET_MOUNTED (R157, R161, R165, R387): a partition that fails its check is a device fatal error; else SACHET sets. A run that ended
without a quiesce gets a new LOSS_ID and a snapshot of REASON 3 from the V and A recovered. -/
def execSachetMounted (m : MountFinding) (s : State) : Host.Outcome State Fault Refusal :=
  if !s.on || s.ready rdSACHET || s.dev.fatal.getLsbD 2 then commit s s
  else if !m.bad.isEmpty then commit s ((s.deviceFatal 2 [rdSACHET]).settle)
  else
    let s1 := (s.modSachet fun x => x.mount m).setReady rdSACHET true
    let s2 := if s1.image.loaded then s1.shadowImage s1.image.img else s1
    let cur := s2.sachet.current
    if cur.snapSeq = 0 then commit s s2
    else
      let vols := s2.sachet.recovered
      if cur.reason = 3 || cur.reason = 4 || cur.reason = 5 then commit s (s2.recordLosses cur.lossId cur.reason vols)
      else
        let s3 := s2.newLoss.putSlot 3 vols
        commit s (s3.recordLosses s3.sachet.lossId 3 vols)

/-- Pools of the buffer (Table 08-2): floors, urgent reserve, packer reserves and staging, the rest shared, less the segments retired since POR_N
(R149). The error counts stand. -/
def poolsOf (g : Settings) (b : Buffer) : Buffer :=
  let total := bufBytes g / 65536
  let sh := total - 1024 - 768 * g.tpList.length - (g.ten.map fun x => x.2.floor).sum - b.retired
  { b with
    segTotal := total, shared := sh, sharedFree := sh, urgFree := 1024
    floorFree := g.ten.map fun x => (x.1, x.2.floor) }

/-- BUFFER_INIT_DONE (R44, R148, R150, R365): with the channels trained and ECC initialised the pools exist and BUFFER sets; a
channel that fails training leaves BUFFER 0. -/
def execBufferInitDone (trained : Bool) (s : State) : Host.Outcome State Fault Refusal :=
  if !s.image.loaded || s.ready rdBUFFER || !trained || s.dev.quiesced ≠ 0 || s.dev.fatal.getLsbD 1 then commit s s
  else commit s (((s.modBm fun b => poolsOf s.cfg b).modDev fun d => { d with bufInit := 100 }).setReady rdBUFFER true)

/-- DV_FATAL's bit of a unit, its readiness bit, and whether the part has it in service. -/
def State.unitOf (s : State) : SelfTest → Nat × Nat × Bool
  | .codec => (3, rdCODEC, true)
  | .seal => (4, rdSEAL, true)
  | .core c => (8 + c, rdCE c, c < 4 && !s.dev.ctlPending.getLsbD c && s.servedCores.getLsbD c)

/-- UNIT_SELF_TEST_DONE (Table 03-4): a unit that passes sets its bit; a core, once out of R39's hold, where it serves a transport. A unit that
fails is a device fatal error of its kind (R145; DEDUCED, assumption 85), and its bit stays 0. -/
def execUnitSelfTestDone (unit : SelfTest) (pass : Bool) (s : State) : Host.Outcome State Fault Refusal :=
  let x := s.unitOf unit
  if !s.image.loaded || !x.2.2 || s.dev.fatal.getLsbD x.1 then commit s s
  else if pass then commit s (s.setReady x.2.1 true)
  else commit s ((s.deviceFatal x.1 [x.2.1]).settle)

/-- IMAGE_WRITE (R69, R72, R73): with the part quiesced by PFAIL_N or PERST_N nothing more is programmed. -/
def execImageWrite (x : ImageInput) (s : State) : Host.Outcome State Fault Refusal :=
  if s.dev.quiesced = 3 || s.dev.quiesced = 4 then commit s s
  else commit s (s.run (s.imageCmd 0x28) fun c => if s.loading then s.waitLoad c x.data else (s.doImageWrite { c with data := x.data } x.cut).settle)

/-- IMAGE_ACTIVATE (R70, R72). -/
def execImageActivate (fails : List NvmFail) (s : State) : Host.Outcome State Fault Refusal :=
  commit s (s.run (s.imageCmd 0x29) fun c => if s.loading then s.waitLoad c ⟨[], []⟩ else (s.doImageActivate c fails).settle)

end Sys2Proof.Machine
end

