-- ==== Sys2Proof/Machine/RowDecode.lean ====
section
/-! DEFINITION. Stages 6 to 8 of a read channel (Table 12-1): the framer's sync window (R241), demodulation and descrambling (R203, R204), the C1
decoder (R195, R202), the status of a row unit (R245), and the SNR figure (R246). -/

namespace Sys2Proof.Machine

/-! ### Demodulation (R204) -/

/-- Removes every 17th channel bit and counts those that are not the complement of the bit before. `k` counts the bits since the last one
removed, `p` is the bit before. -/
def demodulate : Nat → Bool → List Bool → List Bool × Nat
  | _, _, [] => ([], 0)
  | k, p, b :: r =>
    if k = 16 then
      let d := demodulate 0 b r
      (d.1, d.2 + b2n (b == p))
    else
      let d := demodulate (k + 1) b r
      (b :: d.1, d.2)

/-- Bytes from bits, each most significant bit first. -/
def bytesOfBits : List Bool → Bytes
  | a :: b :: c :: d :: e :: f :: g :: h :: r =>
    BitVec.ofNat 8 ([a, b, c, d, e, f, g, h].foldl (fun n x => 2 * n + b2n x) 0) :: bytesOfBits r
  | _ => []

/-! ### The C1 decoder (R195): 244 symbols, 12 of parity, 6 errors -/

/-- A product in the code's field. -/
def rsMul (a b : Byte) : Byte := gfMul 0x1D a b

/-- A polynomial, lowest coefficient first, at a point. -/
def rsEval (p : List Byte) (x : Byte) : Byte := p.foldr (fun c a => c ^^^ rsMul x a) 0

/-- The syndromes of a codeword, highest power first, at the first `n` powers of the primitive element. -/
def rsSyndromes (n : Nat) (cw : Bytes) : List Byte := (List.range n).map fun j => cw.foldl (fun a c => c ^^^ rsMul (gfPow j) a) 0

/-- The Berlekamp-Massey decoder: the error locator in force, the one before the last change of length, the length, the steps since, and the
discrepancy then. -/
structure Locator where
  c : List Byte
  b : List Byte
  len : Nat
  m : Nat
  d : Byte

/-- One syndrome more: the `n`th of `s`. -/
def Locator.next (s : List Byte) (l : Locator) (n : Nat) : Locator :=
  let d := (List.range (l.len + 1)).foldl (fun a i => a ^^^ rsMul (l.c.getD i 0) (s.getD (n - i) 0)) 0
  if d = 0 then { l with m := l.m + 1 }
  else
    let k := rsMul d (gfInv 0x1D l.d)
    let sh := List.replicate l.m 0 ++ l.b.map (rsMul k)
    let c := (List.range (max l.c.length sh.length)).map fun i => l.c.getD i 0 ^^^ sh.getD i 0
    if 2 * l.len ≤ n then { c := c, b := l.c, len := n + 1 - l.len, m := 1, d := d } else { l with c := c, m := l.m + 1 }

/-- The error locator of a list of syndromes. -/
def rsLocator (s : List Byte) : Locator := (List.range s.length).foldl (Locator.next s) { c := [1], b := [1], len := 0, m := 1, d := 1 }

/-- The number of symbols that the C1 decoder corrects in a codeword; none where it does not decode: at most 6 errors (Table 12-4), each at a
place of the codeword. -/
def c1Decode (cw : Bytes) : Option Nat :=
  let s := rsSyndromes 12 cw
  if s.all (· == 0) then some 0
  else
    let l := rsLocator s
    let roots := ((List.range 244).filter fun k => rsEval l.c (gfPow (255 - k)) == 0).length
    if l.len ≤ 6 && roots == l.len then some l.len else none

/-! ### A row unit (R241, R245) -/

/-- A sync counts within 8 bits of its place, and anywhere in the row position after a miss (R241). -/
def syncFound (search : Bool) (u : RowUnit) : Bool :=
  match u.sync with
  | none => false
  | some k => decide (-8 ≤ k) && (decide (k ≤ 8) || (search && decide (k < 2224)))

/-- The status of a row unit on a track whose written header is `hdr`, with its count of corrected symbols, and its complement violations. -/
def readUnit (track : Nat) (search : Bool) (hdr : Bytes) (u : RowUnit) : RowResult × Nat :=
  if syncFound search u then
    let d := demodulate 0 false (u.bits.take 2176)
    let b := slice (bytesOfBits (scramble (seedOf track) d.1)) 0 256
    let h := slice b 0 12
    let c := c1Decode (slice b 12 244)
    let n := c.getD 0
    let r : RowResult :=
      if leNat (slice h 10 2) ≠ (slice h 0 10).foldl (crcMsb 16 0x1021) 0xFFFF then .headerCrc n
      else if h ≠ hdr then .headerOther n
      else match c with
        | some n => .decoded n
        | none => .c1Failed 0
    (r, d.2)
  else (.syncMiss 0, 0)

/-- The sum of squares of the ideal output of the target 1 + g1 D + g2 D², over the channel bits of a row unit (1 as +1, 0 as -1), in units of
1/4096: g1 and g2 are the two low bytes of TP_RC_TARGET in units of 1/64 (R243, R246). The two bits before the first count as it does not
reach them. -/
def idealEnergy (target : Word) (bits : List Bool) : Nat :=
  let a : List Int := bits.map fun b => if b then 1 else -1
  let g1 := signed 8 (fld target 7 0)
  let g2 := signed 8 (fld target 15 8)
  ((a.zip ((0 :: a).zip (0 :: 0 :: a))).map fun x => ((64 * x.1 + g1 * x.2.1 + g2 * x.2.2) ^ 2).toNat).sum

/-- SNR in units of 0.125 dB from the sums of squares of the ideal output and of the error (R246): the largest number that does not exceed
80 times the decimal logarithm of their quotient, from 0 to 255. -/
def snrOf (ideal noise : Nat) : Nat := ((List.range 256).filter fun u => decide (10 ^ u * noise ^ 80 ≤ ideal ^ 80)).foldl max 0

end Sys2Proof.Machine
end

