-- ==== Sys2Proof/Machine/OpsTape.lean ====
section
/-! DEFINITION. Dataset intervals as they are written and read back: what a separator decides (R206 to R210, R219, R229, R244, R249 to R251), the
rewrite area (R209), wrap ends (R199, R210, R316), and the judgement of rows (R219, R245, R246, R248). -/

namespace Sys2Proof.Machine

/-- The track that carries a data row of an interval. -/
def IntervalRec.trackOf (i : IntervalRec) (sub row : Nat) : Nat :=
  let act := activeTracks i.tmask
  act.getD (rowPlace act.length sub row).2 0

/-- Rows of an interval's P positions that a track carries. -/
def IntervalRec.rowsOn (i : IntervalRec) (track : Nat) : Nat :=
  match (activeTracks i.tmask).findIdx? (· == track) with
  | none => 0
  | some a => ((List.range i.p).filter fun k => (rowAt (activeTracks i.tmask).length k a).isSome).length

def State.modInterval (s : State) (t ord : Nat) (f : IntervalRec → IntervalRec) : State :=
  s.modFmt t fun x => { x with intervals := x.intervals.map fun i => if i.ord == ord then f i else i }

/-! ### Windows and decisions (R246, R248 to R250, R258) -/

/-- Beyond a quarter of at least 416 rows an In channel is to leave (R249). -/
def Chan.crosses (x : Chan) : Bool := decide (x.rows4 < 4 * x.fail4) && decide (416 ≤ x.rows4) && x.leaving.isNone

/-- A data interval's read-back is complete on a channel: the figures of an In channel take it (R246, R248). -/
def State.windowUpdate (s : State) (t ch rows failed : Nat) (energy : Nat × Nat) : State :=
  if (s.chan t ch).state != .inService then s
  else s.modChan t ch fun x =>
    let l := x.window ++ [(rows, failed)]
    let w := l.drop (l.length - 4)
    let r4 := (w.map (·.1)).sum
    let f4 := (w.map (·.2)).sum
    let y := { x with window := w, fail4 := f4, rows4 := r4, snr := BitVec.ofNat 8 (snrOf energy.1 energy.2),
                      syncMiss := BitVec.ofNat 16 (x.syncMiss.toNat + x.missNew), missNew := 0 }
    { y with crossing := y.crosses }

/-- A channel takes the last place before another: the higher FAIL4 / ROWS4, then the lower number (R258). -/
def State.crossBefore (s : State) (t a b : Nat) : Bool :=
  let x := s.chan t a
  let y := s.chan t b
  decide (y.fail4 * x.rows4 < x.fail4 * y.rows4) || (x.fail4 * y.rows4 == y.fail4 * x.rows4 && decide (a ≤ b))

/-- One decision: with four others out it is refused, the window restarts and the wrap is abandoned (R250). -/
def State.decideOut (s : State) (t ch : Nat) : State :=
  if s.outCount t < 4 then s.modChan t ch fun x => { x with leaving := some false, crossing := false }
  else ((s.modChan t ch fun x => { x with window := [], fail4 := 0, rows4 := 0, crossing := false }).raise (evTp t 15)).abandonWrap t

/-- The decisions that the channels' windows ask for are taken together, in the order of R258. -/
def State.decideOuts (s : State) (t : Nat) : State :=
  let cs := ((List.range 32).filter fun c => (s.chan t c).crossing).mergeSort fun a b => s.crossBefore t a b
  s.each cs fun s c => s.decideOut t c

/-! ### Rows without a status (R219) -/

/-- The rows of an interval that have no status count as failed, a channel out of service having missed a probe row with them. -/
def State.expireOne (s : State) (t : Nat) (i : IntervalRec) : State :=
  let s1 := s.each i.rewrites fun s r => s.rowFailed t i.stop r.dsn r.sub r.row r.rwc r.track
  let s2 := match i.dsn with
    | none => s1
    | some d => s1.each ((List.range 3328).filter fun g => !i.reported.getLsbD g) fun s g =>
      s.rowFailed t i.stop d (g % 32) (g / 32) 0 (i.trackOf (g % 32) (g / 32))
  s2.each (List.range 32) fun s c =>
    let z := Tab.get (0, 0, 0, 0) i.seen c
    if i.tmask.getLsbD c then
      let n := i.rowsOn c
      if z.1 < n && i.dsn.isSome then s.windowUpdate t c n (z.2.1 + (n - z.1)) (Tab.get (0, 0) i.energy c) else s
    else
      let k := i.p + i.q - z.2.2.1
      if k = 0 then s
      else ((s.modChan t c fun x => { x with probes := x.probes + k, probesFailed := x.probesFailed + k, probeRun := 0 }).stat
        (stTp t 18) k).stat (stTp t 19) k

/-- At a separator 6.0 mm past an interval every row of it has its status. -/
def State.expire (s : State) (t : Nat) : State :=
  let f := s.fmt t
  let old := f.intervals.filter fun i => decide (i.stop + 150000 ≤ f.wrapBits)
  let s1 := s.modFmt t fun f => { f with intervals := f.intervals.filter fun i => !decide (i.stop + 150000 ≤ f.wrapBits) }
  (s1.each old fun s i => s.expireOne t i).decideOuts t

/-- A wrap that was abandoned is left: the gate closes, and nothing more is written on it. -/
def State.leaveWrap (s : State) (t : Nat) : State := (s.gateClose t 5).modFmt t fun f => { f with writing := false }

/-! ### Channels at a separator (R249 to R253) -/

/-- A channel leaves service, held by the steward's order or not; Channel Out is raised. -/
def State.channelOut (s : State) (t ch : Nat) (held : Bool) : State :=
  (s.modChan t ch fun x => { x with state := if held then .outHeld else .out, leaving := none, returning := false, crossing := false, takeouts := x.takeouts + 1, probeRun := 0 }).raise
    (evTp t 13)

/-- A channel returns: its figures restart, Channel Returned is raised. -/
def State.channelIn (s : State) (t ch : Nat) : State :=
  (s.modChan t ch fun x => { x with state := .inService, returning := false, window := [], fail4 := 0, rows4 := 0, snr := 0, crossing := false }).raise (evTp t 14)

/-- The initial taps. -/
def Chan.freshTaps (x : Chan) : Chan := { x with tapsEq := 0, tapsFtc := 0, tapsNp := [], resetTaps := false }

/-- Decisions and orders that act at this separator. -/
def State.channelStep (s : State) (t : Nat) : State :=
  s.each (List.range 32) fun s ch =>
    let x := s.chan t ch
    let s1 := if x.resetTaps then s.modChan t ch Chan.freshTaps else s
    if x.returning && x.state == .out then s1.channelIn t ch
    else match x.leaving with
      | some held => s1.channelOut t ch held
      | none => s1

/-- The track mask that the next separator will carry (R249, R251). -/
def State.nextMask (s : State) (t : Nat) : BitVec 32 :=
  BitVec.ofNat 32 ((List.range 32).map fun c =>
    let x := s.chan t c
    if (x.state == .inService && x.leaving.isNone) || (x.state == .out && x.returning) then 2 ^ c else 0).sum

/-- Settings that act from this separator: TP_RC_CFG and TP_RC_TARGET (R244), PRN and MAX_SPEED overrides (Table 04-18), the speed (R229). -/
def State.settingStep (s : State) (t : Nat) : State :=
  let s1 := (s.modRc t fun r => { r with cfgUsed := r.cfg, targetUsed := r.target }).modGov t fun g => { g with prnUse := none, maxUse := none }
  let n := s1.nextSpeed t
  let s2 := s1.modGov t fun g => { g with entryRaise := false }
  if n = (s1.tp t).gov.speed then s2
  else (((s2.modGov t fun g => { g with speed := n, changes := wrapAdd g.changes 1, sinceChange := 0, lowFor := 0, lowMax := 0 }).modMot t fun m =>
    { m with vel := wrapSign (s.fmt t).wrap * velOf n }).stat (stTp t 7) 1)

/-! ### The rewrite area (R209) -/

/-- Rows in ascending order of DSN, SUB and ROW. -/
def RewriteRow.key (r : RewriteRow) : Nat := (r.dsn * 32 + r.sub) * 128 + r.row

/-- The active index a row is rewritten on. -/
def rewriteTarget (act : List Nat) (r : RewriteRow) : Nat := ((act.filter fun p => decide (p < r.track)).length + 7) % act.length

/-- The rows for each active index in order. -/
def rewriteLists (act : List Nat) (rows : List RewriteRow) : List (List RewriteRow) :=
  (List.range act.length).map fun a => (rows.filter fun r => rewriteTarget act r == a).mergeSort fun x y => x.key ≤ y.key

/-- Rows due at the append point. -/
def Format.dueRows (f : Format) : List RewriteRow := f.rewrites.filter fun r => decide (r.due ≤ f.wrapBits)

/-- While Q would exceed 16 the dataset of the highest DSN is retried in place of its rewrites. The fuel is a dataset each. -/
def State.fitRewrites : Nat → Nat → State → State
  | 0, _, s => s
  | n + 1, t, s =>
    let rows := (s.fmt t).dueRows
    let q := ((rewriteLists (activeTracks (s.nextMask t)) rows).map (·.length)).foldl max 0
    if 16 < q && (s.fmt t).abandon == 0 then
      let d := (rows.map (·.dsn)).foldl max 0
      State.fitRewrites n t ((s.modFmt t fun f => { f with overflow := satAdd f.overflow 1, rewrites := f.rewrites.filter fun r => r.dsn != d }).retry t d true)
    else s

/-! ### One interval -/

/-- What the next interval carries: a retry, which goes ahead of any new dataset, or the next dataset of the wrap. -/
def Format.nextSet (f : Format) : Option (Dataset × Bool) :=
  let due := (f.sets.filter fun d => d.retryDue && d.set.wrap == f.wrap).map (·.set)
  match due with
  | d :: r => some (r.foldl (fun m x => if x.dsn < m.dsn then x else m) d, true)
  | [] => match f.queue with
    | d :: _ => if d.wrap = f.wrap then some (d, false) else none
    | [] => none

/-- A dataset stands on the cartridge: a later copy of the same DSN replaces the earlier, whose separator stays, and what stood in its place
is overwritten. -/
def putOn (x : Dataset) (c : Cartridge) : Cartridge :=
  let here : Dataset → Bool := fun y => y.wrap == x.wrap && y.interval == x.interval
  let old := (c.sets.filter fun y => y.dsn == x.dsn && !here y).map fun y => (y.wrap, y.interval)
  { c with sets := c.sets.filter (fun y => y.dsn != x.dsn && !here y) ++ [x], rwOnly := c.rwOnly.filter (fun p => p != (x.wrap, x.interval)) ++ old }

/-- A separator without a dataset stands there (R210). -/
def putBare (wrap interval : Nat) (c : Cartridge) : Cartridge :=
  { c with sets := c.sets.filter (fun y => !(y.wrap == wrap && y.interval == interval)), rwOnly := c.rwOnly.filter (fun p => p != (wrap, interval)) ++ [(wrap, interval)] }

/-- The interval is written at the append point: separator, the dataset's rows, the rewrite area. -/
def State.writeInterval (s : State) (t : Nat) : State :=
  let f := s.fmt t
  let mask := s.trackMask t
  let act := activeTracks mask
  let pick := f.nextSet
  let p := if pick.isSome then positions act.length else 0
  let rows := f.dueRows
  let lists := rewriteLists act rows
  let q := (lists.map (·.length)).foldl max 0
  let bits := intervalBits p q
  let now := (lists.zipIdx.flatMap fun l => l.1.map fun (r : RewriteRow) => { r with track := act.getD l.2 0 })
  let set := pick.map fun d => { d.1 with interval := f.interval, tmask := mask }
  let dir := s.dir t
  let rec_ : IntervalRec :=
    { ord := f.nextOrd, dsn := set.map (·.dsn), tmask := mask, p := p, q := q, v := (s.trnCfg t).verifyV, start := f.wrapBits, stop := f.wrapBits + bits,
      reported := 0, rewrites := now, was := rows, seen := []
      copy := match set, (s.tp t).ld.cart with
        | some x, some c => c.sets.find? fun y => y.dsn == x.dsn
        | _, _ => none
      eodWas := dir.eodDsn, extWas := dir.extents, grpWas := dir.groups }
  let sets : List DsState := match set, pick with
    | some x, some (_, true) => f.sets.map fun d => if d.set.dsn == x.dsn then { d with set := x, retryDue := false } else d
    | some x, _ => f.sets ++ [{ set := x, accepted := 0, retries := 0, retryDue := false }]
    | none, _ => f.sets
  let queue : List Dataset := match pick with
    | some (_, false) => f.queue.drop 1
    | _ => f.queue
  let s1 := s.modFmt t fun f => { f with
    interval := f.interval + 1, wrapBits := f.wrapBits + bits, nextOrd := f.nextOrd + 1, tmask := mask, nact := act.length, p := p, q := q
    rwRows := wrapAdd f.rwRows rows.length, rwOnly := if p = 0 then satAdd f.rwOnly 1 else f.rwOnly, sets := sets
    queue := queue
    rewrites := f.rewrites.filter fun r => !decide (r.due ≤ f.wrapBits), intervals := f.intervals ++ [rec_] }
  let s2 := s1.modDir t fun d =>
    { (match set with
      | some x => dirDataset x d
      | none => d) with eodWrap := f.wrap, eodInt := f.interval + 1 }
  let s3 := s2.modLd t fun (l : Loading) => { l with cart := l.cart.map fun c => match set with
    | some x => putOn x c
    | none => putBare f.wrap f.interval c }
  let s4 := ((s3.modLink t fun l => { l with wbi := l.wbi + bits }).modMot t fun m => { m with x := xOf f.wrap f.wrapBits }).emit
    (.interval t f.wrap f.interval mask p q set (lists.map fun (l : List RewriteRow) => l.map fun (r : RewriteRow) => (r.dsn, r.sub, r.row, r.rwc)))
  (s4.stat (stTp t 0) (b2n set.isSome)).stat (stTp t 3) rows.length

/-! ### The end of a wrap (R199, R210, R316) -/

/-- Nothing more is written on the wrap in use, and every row on it has its status. -/
def Format.wrapDone (f : Format) : Bool :=
  f.nextSet.isNone && f.rewrites.isEmpty && !f.intervals.any IntervalRec.awaits && (f.packWrap != f.wrap || match f.queue with
    | d :: _ => d.wrap != f.wrap
    | [] => false)

/-- The append point leaves the wrap for the next: datasets not verified are written again there; the tape turns in the guard. A C3 parity
dataset with a row that still awaits rewrite is not written again (DESIGN CHOICE, assumption 84). -/
def State.endWrap (s : State) (t : Nat) : State :=
  let wrap := (s.fmt t).wrap
  let s0 := s.leaveWrap t
  let s1 := if (s0.fmt t).packWrap = wrap then
      let c := s0.closeDataset t
      if (c.fmt t).packWrap = wrap then (c.modFmt t fun f => { f with group := [] }).packOn t else c
    else s0.retarget t
  if (s1.fmt t).halted then s1
  else
    let ds := (s1.fmt t).unverified wrap
    let s2 := if ds.isEmpty then s1 else s1.moveWrap t ds wrap
    let s3 := s2.modFmt t fun f => { f with intervals := [], rewrites := [], sets := f.sets.filter fun d => d.set.wrap != wrap }
    let w := (s3.fmt t).packWrap
    s3.aim t { x := s.appendX t, dir := w % 2 == 0, speed := decOf (s.tp t).gov.speed, kind := 4 }

/-- One separator of a transport that writes with its gate open. -/
def State.separatorStep (s : State) (t : Nat) : State :=
  let s1 := s.expire t
  let s2 := if (s1.fmt t).abandon = 0 then State.fitRewrites (s1.fmt t).sets.length t s1 else s1
  if (s2.fmt t).abandon = 1 then (s2.leaveRest t).leaveWrap t
  else if (s2.fmt t).abandon = 2 then s2.leaveWrap t
  else
    let f := s2.fmt t
    let act := activeTracks (s2.nextMask t)
    let q := ((rewriteLists act f.dueRows).map (·.length)).foldl max 0
    let bits := intervalBits (if f.nextSet.isSome then positions act.length else 0) q
    if f.wrapDone || wrapLen < f.wrapBits + bits then s2.endWrap t else ((s2.channelStep t).settingStep t).writeInterval t

/-! ### Judgement of rows (R219, R245 to R251) -/

/-- A dataset as it stands on tape. -/
def State.written? (s : State) (t dsn : Nat) : Option Dataset :=
  match (s.ds? t dsn).map (·.set) with
  | some d => some d
  | none => match (s.tp t).ld.cart with
    | some c => c.sets.find? fun d => d.dsn == dsn
    | none => none

/-- The header written to a data or parity row (R202). -/
def State.dataHeader (s : State) (t rwc dsn sub row : Nat) : Bytes :=
  let d := (s.written? t dsn).getD default
  rowHeader 0 d.dkind rwc sub row dsn d.gpos

/-- The channel bits of an original row of a dataset as it was written on a track: during read-back the channel knows them (R244). -/
def State.writtenRow (s : State) (t dsn sub row p : Nat) : List Bool :=
  rowUnit p (s.dataHeader t 0 dsn sub row) (dsRow ((s.written? t dsn).getD default) sub row)

/-- The header written to an interval's probe rows (R202, R208). -/
def State.probeHeader (s : State) (t : Nat) (i : IntervalRec) : Bytes :=
  match i.dsn with
  | some n => let d := (s.written? t n).getD default; rowHeader 2 d.dkind 0 0 0 n d.gpos
  | none => rowHeader 2 0 0 0 0 0 0

/-- The framer searches over the next row position after a sync miss (R241). -/
def State.searchAfter (s : State) (t ch : Nat) (x : RowResult) : State := s.modChan t ch fun c => { c with search := x == .syncMiss 0 }

/-- The figures of a channel that every row but a probe moves (Table 12-2). -/
def State.rowFigures (s : State) (t ch : Nat) (u : RowResult × Nat) (ok : Bool) : State :=
  let miss := u.1 == .syncMiss 0
  (((s.searchAfter t ch u.1).modChan t ch fun x =>
    { x with rows := wrapAdd x.rows 1, failed := if ok then x.failed else wrapAdd x.failed 1, corrected := wrapAdd x.corrected (correctedOf u.1),
             viol := wrapAdd x.viol u.2, missNew := x.missNew + b2n miss }).stat (stTp t 16) (correctedOf u.1)).stat (stTp t 17) (b2n miss)

/-- The interval's read-back is complete on every track that carries rows of it. -/
def IntervalRec.readBack (i : IntervalRec) : Bool := (activeTracks i.tmask).all fun c => (Tab.get (0, 0, 0, 0) i.seen c).1 == i.rowsOn c

/-- A row in the channel's P positions counts toward its window; with the last one the interval's read-back is complete on the channel, and
with the last channel's the decisions are taken (R249, R258). -/
def State.windowRow (s : State) (t ord : Nat) (r : RowReport) (known : List Bool) (ok : Bool) : State :=
  match (s.fmt t).intervals.find? fun i => i.ord == ord with
  | none => s
  | some i =>
    let z := Tab.get (0, 0, 0, 0) i.seen r.track
    let e := Tab.get (0, 0) i.energy r.track
    let e1 := (e.1 + idealEnergy (s.tp t).rc.targetUsed known, e.2 + r.noise)
    let i1 := { i with seen := Tab.set r.track (z.1 + 1, z.2.1 + b2n (!ok), z.2.2.1, z.2.2.2) i.seen, energy := Tab.set r.track e1 i.energy }
    let s1 := s.modInterval t ord fun _ => i1
    let s2 := if z.1 + 1 = i.rowsOn r.track then s1.windowUpdate t r.track (z.1 + 1) (z.2.1 + b2n (!ok)) e1 else s1
    if i1.readBack then s2.decideOuts t else s2

/-- A probe row (R251): a failure ends PROBE_RUN; a data interval whose probes all passed adds to it, and 16 bring an Out channel back. -/
def State.probeRow (s : State) (t : Nat) (i : IntervalRec) (r : RowReport) : State :=
  let z := Tab.get (0, 0, 0, 0) i.seen r.track
  let n := z.2.2.1 + 1
  if i.p + i.q < n then s
  else
    let u := readUnit r.track (s.chan t r.track).search (s.probeHeader t i) r.unit
    let ok := acceptedOf i.v u.1
    let bad := z.2.2.2 + b2n (!ok)
    let s1 := (((s.searchAfter t r.track u.1).modInterval t i.ord fun i => { i with seen := Tab.set r.track (z.1, z.2.1, n, bad) i.seen }).stat (stTp t 18) 1).stat
      (stTp t 19) (b2n (!ok))
    let full := i.p != 0 && n == i.p + i.q && bad == 0
    s1.modChan t r.track fun x =>
      let run := if !ok then 0 else if full then min 16 (x.probeRun + 1) else x.probeRun
      { x with probes := x.probes + 1, probesFailed := x.probesFailed + b2n (!ok), probeRun := run,
               returning := x.returning || (x.state == .out && run == 16) }

/-- A data or parity row of an interval, as an original or a rewritten copy; a second report of one copy changes nothing. -/
def State.dataRow (s : State) (t : Nat) (i : IntervalRec) (r : RowReport) (dsn sub row : Nat) : State :=
  let judge : Nat → State → State := fun rwc s =>
    let u := readUnit r.track (s.chan t r.track).search (s.dataHeader t rwc dsn sub row) r.unit
    let ok := acceptedOf i.v u.1
    let s1 := s.rowFigures t r.track u ok
    let s2 := if ok then s1.rowAccepted t dsn sub row else s1.rowFailed t i.stop dsn sub row rwc r.track
    if rwc = 0 then s2.windowRow t i.ord r (s.writtenRow t dsn sub row r.track) ok else s2
  match i.rewrites.find? fun x => x.dsn == dsn && x.sub == sub && x.row == row && x.track == r.track with
  | some x => judge x.rwc (s.modInterval t i.ord fun i => { i with rewrites := i.rewrites.filter fun y => y.key != x.key })
  | none =>
    if i.dsn = some dsn && r.track = i.trackOf sub row && !i.reported.getLsbD (32 * row + sub) then
      judge 0 (s.modInterval t i.ord fun i => { i with reported := setBit i.reported (32 * row + sub) true })
    else s

/-- A directory row (R212, R219): the channel's figures only; which replicas pass, the operand of the row that writes them says. -/
def State.directoryRow (s : State) (t : Nat) (r : RowReport) (gpos sub row : Nat) : State :=
  let u := readUnit r.track (s.chan t r.track).search (rowHeader 0 2 0 sub row 0 gpos) r.unit
  s.rowFigures t r.track u (acceptedOf (s.tp t).ld.dirV u.1)

end Sys2Proof.Machine
end

