-- ==== Sys2Proof/Machine/Channels.lean ====
section
/-! DEFINITION. Channel Service: CS_QUERY, CS_TAKE_OUT, CS_RETURN, CS_RESET_ADAPTATION (R252, Table 12-3). -/

namespace Sys2Proof.Machine

/-- Channel and action of W4. -/
def Cmd.chan (c : Cmd) : Nat := fld c.entry.w4 15 8
def Cmd.chanAction (c : Cmd) : Nat := fld c.entry.w4 23 16

/-- Fields of a Channel Service: a channel above 31 fails. -/
def State.csOk (s : State) (c : Cmd) : Bool :=
  c.entry.headOk false false && c.entry.noData && fld c.entry.w4 63 24 == 0 && decide (c.chan < 32) && zeros [c.entry.w5, c.entry.w6, c.entry.w7] &&
    s.tpExists c.unit

/-- One action: Invalid Field where its fields are out of range, else its effect on (transport, channel). -/
def State.csRun (s : State) (action : Nat) (f : State → Cmd → Nat → Nat → State) : State :=
  s.run (s.fetched fun c => c.u == 0 && c.q == 0 && c.entry.op == 0x22 && c.chanAction == action) fun c =>
    if s.csOk c then f s c c.unit c.chan else s.fail c Status.invalidField

/-- An action that completes at once: with the OUT mask after it. -/
def State.csEnd (s : State) (c : Cmd) (t ch : Nat) : State := s.succeed c (s.csResult t ch)

/-- The transport writes, so that a separator follows. -/
def State.writesNow (s : State) (t : Nat) : Bool := (s.fmt t).writing && ((s.mot t).state == .streaming || (s.mot t).state == .unloading)

/-- CS_QUERY. -/
def execCsQuery (s : State) : Host.Outcome State Fault Refusal := commit s ((s.csRun 0 fun s c t ch => s.csEnd c t ch).settle)

/-- CS_TAKE_OUT: an In channel leaves at the next separator, or at once when nothing is written; an Out one is held at once; with four
channels out, an In channel's order is refused. -/
def execCsTakeOut (s : State) : Host.Outcome State Fault Refusal :=
  commit s ((s.csRun 1 fun s c t ch =>
    match (s.chan t ch).state with
    | .outHeld => s.csEnd c t ch
    | .out => (s.modChan t ch fun x => { x with state := .outHeld, returning := false }).csEnd c t ch
    | .inService =>
      if (s.chan t ch).leaving.isNone && 4 ≤ s.outCount t then s.fail c Status.invalidField
      else if s.writesNow t then (s.modChan t ch fun x => { x with leaving := some true }).setStage c.id .service
      else (s.channelOut t ch true).csEnd c t ch).settle)

/-- CS_RETURN: Out Held becomes Out; with its 16 intervals already counted it returns at the next separator (R251). -/
def execCsReturn (s : State) : Host.Outcome State Fault Refusal :=
  commit s ((s.csRun 2 fun s c t ch =>
    (if (s.chan t ch).state == .outHeld then
        s.modChan t ch fun x => { x with state := .out, returning := decide (16 ≤ x.probeRun) }
      else s).csEnd c t ch).settle)

/-- CS_RESET_ADAPTATION: at the next separator, or at once when nothing is written. -/
def execCsResetAdaptation (s : State) : Host.Outcome State Fault Refusal :=
  commit s ((s.csRun 3 fun s c t ch =>
    if s.writesNow t then (s.modChan t ch fun x => { x with resetTaps := true }).setStage c.id .service
    else (s.modChan t ch Chan.freshTaps).csEnd c t ch).settle)

end Sys2Proof.Machine
end

