-- ==== Sys2Proof/Machine/EccRows.lean ====
section
/-! DEFINITION. Buffer ECC: where a data byte of the buffer stands in DRAM with its check bits (R148), and BUFFER_UNCORRECTABLE, BUFFER_SCRUB
(R149, R376, Table 08-1). -/

namespace Sys2Proof.Machine

/-! ### The buffer in DRAM (R148) -/

/-- The memory channel of a data address and the address on it: interleaved at 256 bytes, or channel A alone with MEM_CH 1. -/
def bufChannel (memCh a : Nat) : Nat × Nat := if memCh = 1 then (0, a) else (a / 256 % 2, a / 512 * 256 + a % 256)

/-- The DRAM byte of a data byte on its channel: pages of 2 KiB hold 60 blocks of 32 bytes of data. -/
def dramByte (a : Nat) : Nat := a / 1920 * 2048 + a % 1920

/-- The first of the two DRAM bytes that hold the check bits of a data byte's block, after the data of its page in the order of the blocks
(DEDUCED); the last 8 bytes of a page are unused. -/
def dramCheck (a : Nat) : Nat := a / 1920 * 2048 + 1920 + 2 * (a % 1920 / 32)

/-- The check bytes of a block of 32 data bytes: SECDED over the block and its address, a code the spec does not give. -/
def blockCheck (block : Bytes) (a : Nat) : Bytes := leBytes 2 (Config.bufferCheck block (a / 32 * 32)).toNat

/-- A segment is retired until the next POR_N: counted, and taken from the shared pool's size; Buffer Wear as retired segments exceed 1 % of
all. `pool` says that the pool it stood in is made good from the shared pool. -/
def State.retireSegment (s : State) (pool : Bool) : State :=
  let was := s.bm.retired
  let s1 := (((s.modBm fun b => { b with
    uncorr := min 65535 (b.uncorr + 1), retired := b.retired + 1, shared := b.shared - 1
    sharedFree := if pool then b.sharedFree - 1 else b.sharedFree }).stat (stDev 1) 1).raise evBufferUncorrectable)
  if decide (100 * was ≤ s.bm.segTotal) && decide (s.bm.segTotal < 100 * (was + 1)) then s1.raise evBufferWear else s1

/-- A volume's storage without segment `k`: the open segment takes nothing more, and what was verified there is no longer held. -/
def Volume.loseSeg (w : Volume) (k : Nat) : Volume :=
  let pad := if w.bufPos < 65536 * (k + 1) then 65536 * (k + 1) - w.bufPos else 0
  { (w.store pad) with segs := w.segs.filter (· != k), done := w.done.filter fun r => !r.inSeg k }

/-- Records pinned for a read that have a byte in the segment are pinned no more: they come from tape, or are lost. -/
def State.unpin (s : State) (v k : Nat) : State :=
  let drop : Cmd → Cmd := fun c => if fld c.entry.w0 47 32 == v then { c with pins := c.pins.filter fun r => !r.inSeg k } else c
  s.modArb fun a => { a with cmds := a.cmds.map drop }

/-- Admitted records in a segment (Table 08-1): every record with a byte in it is lost; the claims of granted commands are made good. -/
def State.recordsSegment (s : State) (v k : Nat) (w : Volume) : State :=
  let s1 := ((s.retireSegment false).setVol v (w.loseSeg k)).unpin v k
  let s2 := if (w.loseSeg k).spare < w.claimed then
      ((s1.takeSeg w.tenant).map fun s => s.modVol v fun w => w.addSegs 1).getD s1
    else s1
  s2.loseRecords v 1 false fun r => r.inSeg k

/-- BUFFER_UNCORRECTABLE (R149, Table 08-1): by what the failing segment holds. A packer's dataset is encoded again, staging is read from
tape again, and read output is decompressed again: nothing is lost. -/
def execBufferUncorrectable (target : EccTarget) (s : State) : Host.Outcome State Fault Refusal :=
  if s.bm.segTotal = 0 then commit s s
  else match target with
    | .records v k =>
      match s.vol? v with
      | none => commit s s
      | some w => if w.segs.contains k && decide (65536 * k < w.bufPos) then commit s ((s.recordsSegment v k w).settle) else commit s s
    | .packer t | .staging t => if s.tpExists t then commit s (s.retireSegment true) else commit s s
    | .output => commit s (s.retireSegment true)
    | .state => commit s (((s.retireSegment true).deviceFatal 1 [rdBUFFER]).settle)

/-- BUFFER_SCRUB: single-bit errors corrected in place. -/
def execBufferScrub (corrected : Nat) (s : State) : Host.Outcome State Fault Refusal :=
  if s.bm.segTotal = 0 then commit s s
  else commit s ((s.modBm fun b => { b with corrected := b.corrected + BitVec.ofNat 32 corrected }).stat (stDev 0) corrected)

end Sys2Proof.Machine
end

