-- ==== Sys2Proof/Machine/OpsRead.lean ====
section
/-! DEFINITION. Reading a volume from tape: stored blocks and records in them (R173, R177, R115),
read recovery (R255), and excursions (R121 to R123, R329). -/

namespace Sys2Proof.Machine

/-! ### Stored blocks in the volume's bytes -/

/-- HCRC of a stored block's header. -/
def headerOk (b : Bytes) : Bool := fld (wordAt b 40) 63 32 == crc32c (slice b 0 44)

/-- Whole stored blocks at the front of contiguous bytes, and the unfinished rest. Where a header fails, its end is not known: the rest of
the bytes stands for it. The fuel is a block each. -/
def splitBlocks : Nat → Bytes → List Bytes × Bytes
  | 0, bs => ([], bs)
  | n + 1, bs =>
    if bs.isEmpty then ([], [])
    else if 48 ≤ bs.length && !headerOk bs then ([bs], [])
    else if bs.length < storedLen (wordAt bs 0) then ([], bs)
    else
      let r := splitBlocks n (bs.drop (storedLen (wordAt bs 0)))
      (bs.take (storedLen (wordAt bs 0)) :: r.1, r.2)

/-- A stored block as the reader finds it, with the DSNs that hold it. -/
structure TapeBlock where
  bytes : Bytes
  dsns : List Nat
  deriving Repr

def TapeBlock.bseq (b : TapeBlock) : Nat := (wordAt b.bytes 16).toNat
def TapeBlock.foff (b : TapeBlock) : Option Nat :=
  let n := fld (wordAt b.bytes 24) 31 0
  if n = 0xFFFFFFFF then none else some n

/-- One region joins the stream: it completes the block carried over only where that ends exactly at its first header; a block that
continues into a dataset left out is discarded. -/
def addRegion (a : List TapeBlock × Option TapeBlock) (dsn : Nat) (bs : Bytes) (first : Option Nat) : List TapeBlock × Option TapeBlock :=
  let start := first.getD bs.length
  let done : List TapeBlock × Option TapeBlock := match a.2 with
    | none => (a.1, none)
    | some p =>
      let whole : TapeBlock := { bytes := p.bytes ++ bs.take start, dsns := p.dsns ++ [dsn] }
      let len := storedLen (wordAt whole.bytes 0)
      if whole.bytes.length = len || (48 ≤ whole.bytes.length && !headerOk whole.bytes) then (a.1 ++ [whole], none)
      else if first.isNone && whole.bytes.length < len then (a.1, some whole)
      else (a.1, none)
  let rest := bs.drop start
  let r := splitBlocks (rest.length / 8 + 1) rest
  let more := done.1 ++ r.1.map fun b => { bytes := b, dsns := [dsn] }
  if start < bs.length then (more, if r.2.isEmpty then none else some { bytes := r.2, dsns := [dsn] }) else (more, done.2)

/-! ### Read recovery (R255, R256, Table 12-4) -/

/-- The sub-datasets of a dataset that steps 1 and 2 do not decode after pass `j`: a pass that is not listed is as the one before. -/
def failing (o : ReadOutcome) (j dsn : Nat) : List Nat := Tab.get [] (o.passes.getD j (o.passes.getLastD [])) dsn

/-- The datasets of a dataset's C3 group on a cartridge; whether its parity was written (R200). -/
def groupOf (c : Cartridge) (x : Dataset) : List Dataset := c.sets.filter fun y => y.gdsn0 == x.gdsn0
def hasParity (c : Cartridge) (x : Dataset) : Bool :=
  let g := groupOf c x
  let k := ((g.filter fun y => y.dkind == 0).map fun y => y.gpos + 1).foldl max 0
  [k, k + 1].all fun n => g.any fun y => y.dkind == 1 && y.dsn == x.gdsn0 + n

/-- Step 3 reconstructs a sub-dataset: the group has parity, and at most two of its datasets fail there, whichever is being read. -/
def rebuildable (c : Cartridge) (o : ReadOutcome) (j : Nat) (x : Dataset) (sub : Nat) : Bool :=
  hasParity c x && decide (((groupOf c x).filter fun y => (failing o j y.dsn).contains sub).length ≤ 2)

/-- The first of the three passes after which the dataset is whole, with whether step 3 was needed in it. -/
def recovered (c : Cartridge) (o : ReadOutcome) (x : Dataset) : Option (Nat × Bool) :=
  (([0, 1, 2].find? fun j => (failing o j x.dsn).all (rebuildable c o j x)).map fun j => (j, !(failing o j x.dsn).isEmpty))

/-- A dataset's payload as the tape returns it: changes that no code caught are in it. -/
def readPayload (flips : List (Nat × Nat × Byte)) (x : Dataset) : Bytes :=
  (flips.filter fun f => f.1 == x.dsn).foldl (fun b f => b.set f.2.1 (b.getD f.2.1 0 ^^^ f.2.2)) (dsPayload x)

/-- A sub-dataset rebuilt from the same sub-dataset of the group's other datasets: those that fail there are erasures, positions that the
group does not use are 0 (R199, R256). -/
def rebuildSub (c : Cartridge) (o : ReadOutcome) (j : Nat) (x : Dataset) (sub : Nat) : Bytes :=
  let g := groupOf c x
  let cols : List (Option Bytes) := (List.range 16).map fun k => match g.find? fun y => y.gpos == k with
    | some y => if (failing o j y.dsn).contains sub then none else some (slice (readPayload o.flips y) (20416 * sub) 20416)
    | none => some (List.replicate 20416 0)
  (List.range 20416).map fun i => (c3Rebuild (cols.map fun b => b.map fun b => b.getD i 0)).getD x.gpos 0

/-- A region's bytes as a read delivers them: changes that no code caught are in them, and sub-datasets of step 3 come from the group. -/
def readRegion (c : Cartridge) (o : ReadOutcome) (x : Dataset) (r : Region) : Bytes :=
  let b := (o.flips.filter fun f => f.1 == x.dsn && decide (r.off ≤ f.2.1) && decide (f.2.1 < r.off + r.bytes.length)).foldl
    (fun b f => b.set (f.2.1 - r.off) (b.getD (f.2.1 - r.off) 0 ^^^ f.2.2)) r.bytes
  match recovered c o x with
  | some (j, true) => (failing o j x.dsn).foldl (fun b k =>
      let part := rebuildSub c o j x k
      b.mapIdx fun i v => if (r.off + i) / 20416 = k then part.getD ((r.off + i) % 20416) 0 else v) b
  | _ => b

/-- The stored blocks of a volume in stream order. -/
def tapeBlocks (c : Cartridge) (o : ReadOutcome) (sets : List Dataset) (k : Nat) : List TapeBlock :=
  let add : List TapeBlock × Option TapeBlock → Dataset → List TapeBlock × Option TapeBlock := fun a x =>
    match x.regions.find? fun r => r.vidx == k with
    | some r => addRegion a x.dsn (readRegion c o x r) (r.fblk.map fun f => f - r.off)
    | none => a
  (sets.foldl add ([], none)).1

/-- The blocks that hold a byte of records numbered `lo` to `hi`: a block reaches from its BSEQ to that of the next one, short of it
where the next begins with a record. -/
def blocksFor (lo hi : Nat) : Nat → List TapeBlock → List TapeBlock
  | _, [] => []
  | prev, b :: r =>
    let first := if headerOk b.bytes then b.bseq else prev
    let last : Option Nat := match r.find? fun x => headerOk x.bytes with
      | some x => if x.bseq < first then none else if x.foff = some 0 then some (x.bseq - 1) else some x.bseq
      | none => none
    let use := decide (first ≤ hi) && (match last with
      | some z => decide (lo ≤ z)
      | none => true)
    if use then b :: blocksFor lo hi first r else blocksFor lo hi first r

/-! ### Records in blocks -/

/-- A record's bytes with its pad (R115). -/
def recordLen (w0 : Word) : Nat := 32 + roundUp (fld w0 31 0) 8
/-- A record as delivered: its pad bytes 0. -/
def delivered (rec : Bytes) : Bytes :=
  let n := 32 + fld (wordAt rec 0) 31 0
  rec.take n ++ List.replicate (rec.length - n) 0

/-- Whole records at the front of contiguous bytes, and the unfinished rest. -/
def splitRecords : Nat → Bytes → List Bytes × Bytes
  | 0, bs => ([], bs)
  | n + 1, bs =>
    if bs.length < 32 || bs.length < recordLen (wordAt bs 0) then ([], bs)
    else
      let r := splitRecords n (bs.drop (recordLen (wordAt bs 0)))
      (bs.take (recordLen (wordAt bs 0)) :: r.1, r.2)

/-- One opened block joins the record stream, by FOFF. -/
def addBlock (a : List Bytes × Option Bytes) (raw : Bytes) (foff : Option Nat) : List Bytes × Option Bytes :=
  let start := foff.getD raw.length
  let done : List Bytes × Option Bytes := match a.2 with
    | none => (a.1, none)
    | some p =>
      let whole := p ++ raw.take start
      if whole.length = recordLen (wordAt whole 0) then (a.1 ++ [whole], none)
      else if foff.isNone && whole.length < recordLen (wordAt whole 0) then (a.1, some whole)
      else (a.1, none)
  if start < raw.length then
    let rest := raw.drop start
    let r := splitRecords (rest.length / 32 + 1) rest
    (done.1 ++ r.1, if r.2.isEmpty then none else some r.2)
  else done

/-! ### What a read finds -/

/-- The records that a read has pinned in the buffer (R120). -/
def Cmd.pinned (c : Cmd) : List Bytes := c.pins.map (·.bytes)
/-- A read with what the buffer holds at its row beside what it pinned at dispatch: records admitted since. -/
def Cmd.pinNow (c : Cmd) (w : Volume) : Cmd :=
  { c with pins := (w.asked c.entry).filterMap fun k => (c.pins.find? fun r => r.seq == some k).or (w.held? k) }
/-- Every number is pinned. -/
def Cmd.holds (c : Cmd) (ks : List Nat) : Bool := ks.all fun k => c.pins.any fun r => r.seq == some k
def seqOf (rec : Bytes) : Nat := (wordAt rec 24).toNat
/-- The numbers asked for that are to come from tape. -/
def Volume.wanted (w : Volume) (c : Cmd) : List Nat := (w.asked c.entry).filter fun k => !c.pins.any fun r => r.seq == some k

/-- The cartridge in a transport. -/
def State.cart? (s : State) (t : Nat) : Option Cartridge := (s.tp t).ld.cart

/-- The datasets that a read takes from tape, in DSN order. -/
def State.needSets (s : State) (w : Volume) (ks : List Nat) : List Dataset :=
  match s.cart? w.transport, ks with
  | some c, k :: r =>
    let sets := keptSets (s.dir w.transport) c w.vidx
    let ds := (blocksFor k (r.foldl max k) 0 (tapeBlocks c ⟨[], []⟩ sets w.vidx)).flatMap (·.dsns)
    sets.filter fun x => ds.contains x.dsn
  | _, _ => []

/-- A failure of a read: its status, the number it names, and the offset in Strict mode. -/
structure ReadFail where
  status : Status
  seq : Nat
  off : Nat
  deriving Repr

/-- The failures of a read of numbers from tape in the order the formatter finds them: lost numbers, datasets not recovered, blocks. -/
structure TapeRead where
  lost : List ReadFail
  media : List ReadFail
  bad : List ReadFail
  recs : List Bytes
  opened : Nat
  deriving Repr

/-- Stored blocks with what opening them gives. -/
abbrev Opened := List (TapeBlock × Except (Status × Nat) Bytes)
def Volume.openAll (w : Volume) (bs : List TapeBlock) : Opened := bs.map fun b => (b, openBlock w.encrypt w.strict (w.key.getD []) b.bytes)

/-- The records, gap entries among them, of opened blocks. -/
def recordsOf (l : Opened) : List Bytes :=
  let add : List Bytes × Option Bytes → TapeBlock × Except (Status × Nat) Bytes → List Bytes × Option Bytes := fun a p => match p.2 with
    | .ok raw => addBlock a raw p.1.foff
    | .error _ => (a.1, none)
  (l.foldl add ([], none)).1

/-- The kept datasets of a volume, and the cartridge they stand on. -/
def State.volSets (s : State) (w : Volume) : Option (Cartridge × List Dataset) :=
  (s.cart? w.transport).map fun c => (c, keptSets (s.dir w.transport) c w.vidx)

/-- Reads numbers of a volume from tape (R177, R216, R255): `ks` are those to be read there, among `all` that were asked for. A number that was
recorded lost fails wherever its bytes still stand (R135). -/
def State.readTape (s : State) (w : Volume) (all ks : List Nat) (o : ReadOutcome) : TapeRead :=
  let d := s.dir w.transport
  let lo := ks.headD 0
  let hi := ks.foldl max lo
  let need := s.needSets w ks
  let media : List ReadFail := match s.cart? w.transport with
    | some c => (need.filter fun x => (recovered c o x).isNone).map fun x =>
      { status := Status.unrecoveredRead, seq := ((x.regions.find? fun r => r.vidx == w.vidx).map fun r => r.firstSeq).getD 0, off := 0 }
    | none => []
  let opens := match s.volSets w, ks with
    | some (c, sets), _ :: _ => w.openAll (blocksFor lo hi 0 (tapeBlocks c o sets w.vidx))
    | _, _ => []
  let bad : List ReadFail := opens.filterMap fun p => match p.2 with
    | .error e => some { status := e.1, seq := p.1.bseq, off := if w.strict then e.2 else 0 }
    | .ok _ => none
  let recs := recordsOf opens
  let have_ : Nat → Bool := fun k => recs.any fun r => !bit (wordAt r 0) 52 && seqOf r == k
  let inBad : Nat → Bool := fun k => bad.any fun b => decide (b.seq ≤ k)
  let lost := (all.filter fun k => isLost d w.vidx k || (ks.contains k && media.isEmpty && !have_ k && !inBad k)).map fun k =>
    { status := Status.recordsLost, seq := k, off := 0 }
  { lost := lost, media := media, bad := bad, recs := recs, opened := opens.length - bad.length }

/-- The recovery steps that a read used are counted (Table 12-10): datasets recovered at step 3, rereads made, datasets not recovered. -/
def State.countRecovery (s : State) (t : Nat) (need : List Dataset) (o : ReadOutcome) : State :=
  match s.cart? t with
  | none => s
  | some c => s.each need fun s x =>
    match recovered c o x with
    | some (j, three) => s.modRc t fun r => { r with c3 := wrapAdd r.c3 (b2n three), reread := wrapAdd r.reread j }
    | none => (s.modRc t fun r => { r with reread := wrapAdd r.reread 2, unrec := wrapAdd r.unrec 1 }).raise (evTp t 30)

/-! ### Delivery (R119, R120, R179) -/

/-- A failure completes the command: the number in [47:0], the offset in [63:48]. -/
def State.failRead (s : State) (c : Cmd) (t : Nat) (f : ReadFail) : State :=
  s.complete c f.status { result := mkw [(0, f.seq % 2 ^ 48), (48, f.off % 65536)], detail := BitVec.ofNat 64 t, first := f.seq, last := f.seq }

/-- Gap entries that stand in the range first to last (R119), by their AFTER_SEQ. -/
def spansGap (after : List Nat) (first last : Nat) : Bool := after.any fun a => decide (first ≤ a) && decide (a < last)

/-- Delivers a record list: Host Buffer Too Small by the length bounded by COUNT and end of data (R179), else the records, to the
first MARK with TO_MARK. -/
def State.deliverRead (s : State) (c : Cmd) (w : Volume) (recs : List Bytes) (after : List Nat) (fromBuf : Nat) (tape : Bool) : State :=
  let need := (recs.map (·.length)).sum
  if c.entry.len < need then s.complete c Status.hostBufferTooSmall { result := mkw [(0, need % 2 ^ 48)] }
  else
    let isMark : Bytes → Bool := fun r => bit (wordAt r 0) 51
    let stop := bit c.entry.w5 16 && recs.any isMark
    let out := if stop then recs.take (((recs.findIdx? isMark).getD 0) + 1) else recs
    let last := seqOf (out.getLast?.getD [])
    let first := c.entry.w4.toNat
    let bytes := out.flatMap delivered
    let s1 := ((s.stat (stTen c.u 7) out.length).stat (stTen c.u 8) bytes.length).stat (stTen c.u 9) (min fromBuf out.length)
    ((s1.modVol c.entry.vol fun x => { x with hint := none }).hostWrite c bytes).succeed c
      (mkw [(0, out.length), (16, b2n (last + 1 == w.nextSeq)), (17, b2n (spansGap after first last)), (18, b2n stop), (19, b2n tape)])

/-- Records of a range in order: each number's own copy where one is pinned, else the last one read from tape. -/
def pickRecords (ks : List Nat) (pinned tape : List Bytes) : List Bytes :=
  ks.filterMap fun k => match pinned.find? fun r => seqOf r == k with
    | some r => some r
    | none => tape.reverse.find? fun r => !bit (wordAt r 0) 52 && seqOf r == k

/-- A Read Records or Verify Range that its excursion has reached ends. A Read Records reports a lost number before a dataset, and a
dataset before a block; a Verify Range the failure of the lowest number. -/
def State.finishRead (s : State) (c : Cmd) (o : ReadOutcome) : State :=
  match s.vol? c.entry.vol with
  | none => s.fail c Status.cartridgeUnloaded
  | some w =>
    let t := w.transport
    let ks := w.wanted c
    let need := s.needSets w ks
    let r := s.readTape w (w.asked c.entry) ks o
    let s1 := (s.countRecovery t need o).stat (stDev 10) (if w.encrypt then r.opened else 0)
    if c.entry.op = 0x87 then
      let first := c.entry.w4.toNat
      let fails := (r.lost ++ r.media ++ r.bad).map fun f => { f with seq := max first f.seq }
      match fails.foldl (fun (m : Option ReadFail) f => match m with
          | some g => if f.seq < g.seq then some f else some g
          | none => some f) none with
      | some f => s1.failRead c t f
      | none => s1.succeed c (mkw [(0, (w.asked c.entry).length), (16, b2n (match s.cart? t with
        | some k => need.any fun x => (match recovered k o x with
          | some (_, three) => three
          | none => false)
        | none => false))])
    else
      match (r.lost ++ r.media ++ r.bad).head? with
      | some f => s1.failRead c t f
      | none =>
        let after := w.gapAfter ++ (r.recs.filter fun x => bit (wordAt x 0) 52).map seqOf
        s1.deliverRead c w (pickRecords (w.asked c.entry) c.pinned r.recs) after c.pinned.length true

/-! ### Targets and the estimate (R121, R122, R314) -/

/-- x of a dataset's interval, at its nominal place (assumption log). -/
def dsX (x : Dataset) : Int := xOf x.wrap (233472 * x.interval)

/-- The number that a Locate seeks (R124). -/
def Volume.locateSeq (w : Volume) (e : SubEntry) : Nat :=
  match fld e.w4 1 0 with
  | 0 => e.w5.toNat
  | 1 => w.markSeqs.getD (e.w5.toNat - 1) 0
  | _ => w.nextSeq - 1

/-- The first dataset that a waiting command needs. -/
def State.firstSet (s : State) (c : Cmd) : Option Dataset :=
  match s.vol? c.entry.vol with
  | none => none
  | some w => (s.needSets w (if c.entry.op = 0x83 then [w.locateSeq c.entry] else w.wanted c)).head?

/-- Where the tape is to be for a command, and in which direction: at its first dataset, or at the append point where it has none. -/
def State.placeOf (s : State) (t : Nat) (c : Cmd) : Int × Bool :=
  match s.firstSet c with
  | some x => (dsX x, x.wrap % 2 == 0)
  | none => (s.appendX t, (s.fmt t).wrap % 2 == 0)

/-- The target of a waiting command: a read's, or the read standby point of a Locate, 1.0 m short. -/
def State.targetOf (s : State) (t : Nat) (c : Cmd) : Target :=
  let p := s.placeOf t c
  let v := if (s.mot t).state == .streaming then decOf (s.tp t).gov.speed else 20
  if c.entry.op = 0x83 then { x := p.1 - (if p.2 then 10000 else -10000), dir := p.2, speed := 0, kind := 3 }
  else { x := p.1, dir := p.2, speed := v, kind := 1 }

/-- Datasets that read-back staging holds: 256 segments (Table 08-2), 13 for each. -/
def stagingSets : Nat := 256 / setSegs

/-- Dataset reads of a command: a Read Records checks its whole range before it delivers, and datasets that staging no longer holds are read
again and count twice (R179). -/
def State.readSize (s : State) (c : Cmd) : Nat :=
  match s.vol? c.entry.vol with
  | some w =>
    let n := (s.needSets w (w.wanted c)).length
    if c.entry.op = 0x83 then 0 else if c.entry.op = 0x82 then n + (n - stagingSets) else n
  | none => 0

/-- E of the reads that one excursion carries, in seconds: the farthest target, and the size of all. -/
def State.estimate (s : State) (t : Nat) (cs : List Cmd) : ℚ :=
  let d : Int := (cs.map fun c => (((s.placeOf t c).1 - s.appendX t).natAbs : Int)).foldl max 0
  let v : ℚ := ((s.trnCfg t).locate : ℚ) / 10
  let l : ℚ := (d : ℚ) / 10000 / v + v / 6 + 6 / 40
  let i := if (s.mot t).state == .streaming then (s.tp t).gov.speed else 0
  2 * l + ((cs.map fun c => s.readSize c).sum * 652800 : Nat) / s.rate t i + 6 / 5

/-- R122: the headroom covers twice the estimate times the inflow. -/
def State.headroomOk (s : State) (t : Nat) (cs : List Cmd) : Bool :=
  decide (2 * s.estimate t cs * s.inflow t ≤ (s.cfg.prn.l1 : ℚ) / 100 * s.capacity - (s.pendingOf t : ℚ))

/-! ### Excursions (R123, R329) -/

/-- Commands that wait for an excursion of a transport. -/
def State.waitingReads (s : State) (t : Nat) : List Cmd := s.cmdsWhere fun c => c.stage == .reading false && s.cmdTp c == some t

/-- The order of R123: Urgent, then High, Medium and Low, then fetch order. -/
def Cmd.readRank (c : Cmd) : Nat :=
  if c.urgent then 0
  else match c.cls with
    | .high => 1
    | .medium => 2
    | _ => 3

/-- The read that goes first. -/
def firstRead (cs : List Cmd) : Option Cmd :=
  cs.foldl (fun (m : Option Cmd) c => match m with
    | some b => if c.readRank < b.readRank then some c else some b
    | none => some c) none

/-- The reads an excursion carries: the first, and every other within 50 m of its target that the combined estimate allows; a Locate
goes alone. -/
def State.excursionReads (s : State) (t : Nat) : List Cmd :=
  let cs := s.waitingReads t
  match firstRead cs with
  | none => []
  | some c =>
    if !s.headroomOk t [c] then []
    else if c.entry.op = 0x83 then [c]
    else
      let x := (s.placeOf t c).1
      (cs.filter fun y => y.id != c.id && y.entry.op != 0x83 && decide (((s.placeOf t y).1 - x).natAbs ≤ 500000)).foldl
        (fun l y => if s.headroomOk t (l ++ [y]) then l ++ [y] else l) [c]

/-- Locate speed in 0.5 mm/s. -/
def State.locateVel (s : State) (t : Nat) : Int := ((s.trnCfg t).locate * 200 : Nat)

/-- The tape leaves for the first target (R121, R314). -/
def State.depart (s : State) (t : Nat) (cmds : List Nat) : State :=
  match (s.arb.cmds.filter fun c => cmds.contains c.id && c.stage == .reading false && s.cmdTp c == some t).head? with
  | none =>
    let s1 := s.modMot t fun m => { m with exc := none, starting := none }
    if (s.mot t).state == .relaxed then s1.relax t else s1
  | some c =>
    let s1 := cmds.foldl (fun s k => match s.arb.cmds.find? fun x => x.id == k with
      | some x => if x.stage == .reading false then s.setStage k (.reading true) else s
      | none => s) s
    let g := s.targetOf t c
    let s2 := if (s.mot t).vel = 0 then s1.startMotion t else s1
    let v : Int := if g.x < (s.mot t).x then -s.locateVel t else s.locateVel t
    (((s2.aim t g).modMot t fun m => { m with exc := some { cmds := cmds, atTarget := false, resume := (s.mot t).state == .streaming }, starting := none, vel := v }).setTState t .locating).stat
      (stTp t 13) 1

/-- An excursion begins (R122, R123): from Parked at once, from Relaxed once both brakes are released; a transport that writes closes its
group and finishes its rewrites first (R199). -/
def State.startExcursion (s : State) (t : Nat) (cmds : List Nat) : State :=
  match (s.mot t).state with
  | .parked => s.depart t cmds
  | .relaxed => (s.brakesOff t).modMot t fun m => { m with starting := some (.excursion cmds) }
  | .streaming =>
    let s1 := if (s.fmt t).writing then s.closeWriter t else s
    if (s1.fmt t).writing && (s1.tp t).gu.gate && !(s1.fmt t).done then
      (s1.modFmt t fun f => { f with closing := true }).modMot t fun m => { m with exc := some { cmds := cmds, atTarget := false, resume := true } }
    else ((s1.gateClose t 5).cutWrites t).depart t cmds
  | _ => s

end Sys2Proof.Machine
end

