-- ==== Sys2Proof/Machine/OpsAdmit.lean ====
section
/-! DEFINITION. What every I/O command passes after dispatch (R104 steps 4 and 5, R134, R114), the record list (R115, R116), capacity (R112),
Pruning (R117, R236) and admission (R118, R151, R152, R159, R161, R169). -/

namespace Sys2Proof.Machine

/-! ### The common checks -/

/-- Runs the oldest I/O command of a queue with an opcode: its fields, its volume, a deferred report, which it carries in place of being
executed, and the key of an encrypted volume that has never had one. -/
def State.ioRun (s : State) (u q op : Nat) (h : HostData) (ok : Cmd → Bool) (f : State → Cmd → Volume → State) : State :=
  s.run (s.ioCmd u q op) fun c0 =>
    let c := { c0 with data := h }
    if !ok c then s.fail c Status.invalidField
    else match s.ownVol c with
      | none => s.fail c Status.invalidVolume
      | some w =>
        match w.report with
        | some (a, b) =>
          (s.setVol c.entry.vol { w with report := none }).complete c Status.deferredWriteError
            { result := mkw [(0, a % 2 ^ 48)], detail := BitVec.ofNat 64 w.transport, first := a, last := b }
        | none => if w.encrypt && w.kcv == 0 then s.fail c Status.keyNotLoaded else f s c w

/-- The volume cannot seal or open for a command: no key, or Clear Key was dispatched before it (R114). -/
def Volume.noKey (w : Volume) (c : Cmd) : Bool :=
  w.encrypt && (w.key.isNone || match w.clearing with
    | some d => decide (d < c.id)
    | none => false)

/-! ### The record list (R115, R116) -/

/-- A record's LENGTH in range (R116); reserved bits are ignored (R5). -/
def recordHeadOk (w0 : Word) : Bool := decide (8 ≤ fld w0 31 0) && decide (fld w0 31 0 ≤ 16777216)

/-- Exactly `n` records that fill the list. -/
def parseRecords : Nat → Bytes → Option (List Bytes)
  | 0, bs => if bs.isEmpty then some [] else none
  | n + 1, bs =>
    let w0 := wordAt bs 0
    if bs.length < 32 || !recordHeadOk w0 || bs.length < recordLen w0 then none
    else (parseRecords n (bs.drop (recordLen w0))).map fun r => bs.take (recordLen w0) :: r

def recTag (r : Bytes) : Nat := fld (wordAt r 0) 47 32
def recClass (r : Bytes) : Nat := fld (wordAt r 0) 49 48
def recDurable (r : Bytes) : Bool := bit (wordAt r 0) 50
def recMark (r : Bytes) : Bool := bit (wordAt r 0) 51
def recTime (r : Bytes) : Nat := (wordAt r 8).toNat
/-- Ring bytes of a command's Durable records (R159). -/
def ringNeed (rs : List Bytes) : Nat := ((rs.filter recDurable).map fun r => 32 + r.length).sum

/-! ### Capacity (R112) -/

/-- Data datasets that a wrap carries. -/
def wrapSets (w : Nat) : Nat := if w = 0 then 93687 else 93693

/-- Free user capacity in user areas: the rest of the wrap in use, the later wraps of its group, and every other group without live
data. -/
def State.freeSets (s : State) (t : Nat) : Nat :=
  let f := s.fmt t
  let here := (wrapLen - f.wrapBits) / 233472 * 14 / 16
  let later := ((List.range 8).filter fun k => decide (f.wrap % 8 < k)).map fun k => wrapSets (f.wrap / 8 * 8 + k)
  let others := ((List.range 26).filter fun g => g != f.wrap / 8 && !liveGroup (s.dir t) g).map fun g =>
    ((List.range 8).map fun k => wrapSets (8 * g + k)).sum
  here + later.sum + others.sum

/-- A command of this LEN leaves less than one wrap group free; with less than one free, the limit itself lies below 0. -/
def State.noRoom (s : State) (t len : Nat) : Bool := decide (((s.freeSets t : Int) - 749544) * 652800 < ((len + s.pendingOf t : Nat) : Int))

/-- Cartridge Full (R112, R214, R224, R386): the event at the first refusal for want of capacity. -/
def State.cartFull (s : State) (t len : Nat) : Bool := !s.writable t || s.noRoom t len
def State.failFull (s : State) (c : Cmd) (t : Nat) : State :=
  let s1 := if s.writable t && !(s.fmt t).fullSaid then (s.modFmt t fun f => { f with fullSaid := true }).raise (evTp t 8) else s
  s1.complete c Status.cartridgeFull { detail := BitVec.ofNat 64 t }

/-! ### Segments (R152, R156) -/

/-- A command whose segments stand in its volume's storage, and whose LEN is claimed there. -/
def State.bindCmd (s : State) (c : Cmd) (len more : Nat) : State :=
  let s1 := s.modVol c.entry.vol fun w => { w.addSegs more with claimed := w.claimed + len }
  s1.modArb fun a => { a with cmds := a.cmds.map fun x => if x.id == c.id then { x with bound := true } else x }

/-- Room for a Write Records: its grant; an Urgent one's segments from the reserve; none where the pools lack them. -/
def State.roomForWrite (s : State) (c : Cmd) (w : Volume) : Option State :=
  let len := c.entry.len
  if c.bound then some s
  else if c.urgent then
    let n := ceilDiv (len - w.free) 65536
    if n ≤ s.bm.urgFree then
      some (((s.modBm fun b => { b with urgFree := b.urgFree - n }).stat (stDev 2) n).bindCmd c len n)
    else none
  else
    let have_ := c.segs.1 + c.segs.2
    let n := ceilDiv (len - (w.free + 65536 * have_)) 65536
    (s.grow c.entry.vol n).map fun s1 => s1.bindCmd c len have_

/-! ### Pruned records (R117, R235, R236) -/

/-- The Pruning level that applies to a command. -/
def State.pruneLevel (s : State) (c : Cmd) : Nat := if (s.tenCfg c.u).pruneEn && !c.urgent then c.level else 0
/-- A record of a class is pruned at a level. -/
def prunes (level cls : Nat) : Bool := level != 0 && decide (4 - level ≤ cls)

/-- A pruned record opens its tag's gap entry, or adds to it. -/
def GapOpen.add (g : GapOpen) (level : Nat) (r : Bytes) : GapOpen :=
  { time := if g.records = 0 then recTime r else g.time, lastTime := recTime r, records := g.records + 1, level := max g.level level,
    classes := g.classes ||| 2 ^ (recClass r - 1), bytes := g.bytes + fld (wordAt r 0) 31 0 }

def State.pruneRecord (s : State) (c : Cmd) (t level : Nat) (r : Bytes) : State :=
  let s1 := s.modVol c.entry.vol fun w =>
    { w with pruned := w.pruned + 1, gaps := Tab.set (recTag r) ((Tab.get default w.gaps (recTag r)).add level r) w.gaps }
  ((((s1.modVfy t fun v => { v with pruneRecords := wrapAdd v.pruneRecords 1 }).stat (stTp t 14) 1).stat (stTen c.u 5) 1).stat (stTen c.u 6) r.length)

/-! ### Admission -/

/-- W3 of a record takes its number; every other byte is stored as the host wrote it (R169), but bit [52] of W0, which only the formatter sets
(R237; assumption 77). -/
def withSeq (r : Bytes) (seq : Nat) : Bytes :=
  r.take 6 ++ (slice r 6 1).map (fun b => b &&& 0xEF) ++ slice r 7 17 ++ leBytes 8 seq ++ r.drop 32

/-- One record is admitted under the volume's next number: its tag's gap entry closes before it; a Durable one enters the ring (R159,
R160). -/
def State.takeRecord (s : State) (c : Cmd) (t : Nat) (r : Bytes) : State :=
  let h := c.entry.vol
  let s0 := s.closeGap h (recTag r)
  match s0.vol? h with
  | none => s0
  | some w =>
    let seq := w.nextSeq
    let rec_ := withSeq r seq
    let s1 := s0.setVol h { w with nextSeq := seq + 1, marks := w.marks + b2n (recMark r), markSeqs := if recMark r then w.markSeqs ++ [seq] else w.markSeqs }
    let s2 := s1.storeRecord h seq rec_ c.urgent
    let s3 := if recDurable r then (s2.ringAppend w.uuid seq rec_).stat (stTen c.u 10) (32 + rec_.length) else s2
    ((s3.modDir t fun d => { d with time := max d.time (recTime r) }).stat (stTen c.u 3) 1).stat (stTen c.u 4) r.length

/-- After a command's last record: the block is cut where CUT asks for it, the new A is journalled (R161), the directory entry follows. -/
def State.admitted (s : State) (c : Cmd) : State :=
  let h := c.entry.vol
  let s1 := if c.entry.cut then s.cut h 2 else s
  match s1.vol? h with
  | none => s1
  | some w =>
    let a := w.nextSeq - 1
    if w.acked < a then ((s1.setVol h { w with acked := a }).journal h false a).syncDir h else s1.syncDir h

/-- No closed gap entry waits: what was admitted stands behind it in order (R236). -/
def State.gapsPlaced (s : State) (h : Nat) : Bool :=
  match s.vol? h with
  | some w => w.gapWait.isEmpty
  | none => true

/-- The records of a list that a command admits (R117). -/
def State.kept (s : State) (c : Cmd) (rs : List Bytes) : List Bytes := rs.filter fun r => !prunes (s.pruneLevel c) (recClass r)

/-- Ring bytes that other fetched commands claim (R155). -/
def State.ringClaims (s : State) (c : Cmd) : Nat := ((s.arb.cmds.filter fun x => x.id != c.id).map fun x => x.ring).sum

/-- The list enters the buffer, once there is room for it. -/
def State.putList (s : State) (c : Cmd) (w : Volume) (rs : List Bytes) : Option State :=
  let t := w.transport
  let level := s.pruneLevel c
  (s.roomForWrite c w).map fun s1 =>
    ((s1.offer t (rs.map (·.length)).sum).each rs fun s r =>
      if prunes level (recClass r) then s.pruneRecord c t level r else s.takeRecord c t r).admitted c

/-- The effect of a Write Records that passed its checks; `none` while it must wait for room. -/
def State.writeList (s : State) (c : Cmd) (w : Volume) (rs : List Bytes) : Option State :=
  if !w.replay.isEmpty || !w.gapWait.isEmpty || ringSize < s.sachet.ringUsed + s.ringClaims c + ringNeed (s.kept c rs) then none
  else
    (s.putList c w rs).bind fun s4 =>
      if s4.gapsPlaced c.entry.vol then
        some (s4.succeed c (mkw [(0, w.nextSeq % 2 ^ 48), (48, rs.length - (s.kept c rs).length), (61, s.pruneLevel c)]))
      else none

end Sys2Proof.Machine
end

