-- ==== Sys2Proof/Machine/Write.lean ====
section
/-! DEFINITION. WRITE_RECORDS, WRITE_MARK, FLUSH, the block and gap timers, and the codec and sealer: BLOCK_CUT_TIMER, COMPRESS_DONE, SEAL_DONE,
GAP_ENTRY_TIMER, GAP_ENTRY_PLACE (R112, R116 to R118, R125, R170, R174, R180, R236). -/

namespace Sys2Proof.Machine

/-- Fields of Write Records: 1 to 4,096 records, at most 1 MiB from an Urgent queue. -/
def Cmd.writeOk (c : Cmd) : Bool :=
  let n := fld c.entry.w4 12 0
  c.entry.headOk true true && c.entry.dataOk c.data && fld c.entry.w4 63 13 == 0 && decide (1 ≤ n) && decide (n ≤ 4096) &&
    zeros [c.entry.w5, c.entry.w6, c.entry.w7] && (!c.urgent || decide (c.entry.len ≤ 1048576))

/-- A Write Records in a quiesced part: it takes no number and is not completed (R162), but for one with Durable records that had found Sachet
ready before Sachet failed, which ends with Device Fatal (R145). -/
def State.writeQuiesced (s : State) (u q : Nat) (h : HostData) : State :=
  s.run (s.ioCmd u q 0x81) fun c =>
    match parseRecords (fld c.entry.w4 12 0) (hostBytes c.entry h) with
    | some rs => if s.dev.fatal.getLsbD 2 && c.sachet && rs.any recDurable then s.fail c Status.deviceFatal else s
    | none => s

/-- WRITE_RECORDS: the whole list is checked before any record is admitted; one with Durable records needs SACHET as it stood at the dispatch
(Table 03-5), and one whose Durable records could never fit the ring fails (R155); while room, ring space or replay holds it back nothing
changes. -/
def execWriteRecords (u q : Nat) (h : HostData) (s : State) : Host.Outcome State Fault Refusal :=
  if s.dev.quiesced ≠ 0 then commit s ((s.writeQuiesced u q h).settle)
  else commit s ((s.ioRun u q 0x81 h Cmd.writeOk fun s c w =>
    if w.noKey c then s.fail c Status.keyNotLoaded
    else match parseRecords (fld c.entry.w4 12 0) (hostBytes c.entry h) with
      | none => s.fail c Status.invalidField
      | some rs =>
        if rs.any recDurable && !c.sachet then s.failNotReady c rdSACHET
        else if ringSize < ringNeed rs then s.fail c Status.invalidField
        else if s.cartFull w.transport c.entry.len then s.failFull c w.transport
        else (s.writeList c w rs).getD s).settle)

/-- The 32 bytes of a mark (R118). -/
def markBytes (e : SubEntry) : Bytes := wordsBytes [mkw [(32, fld e.w4 15 0), (51, 1)], e.w6, e.w5, 0]

def Cmd.markOk (c : Cmd) : Bool := c.entry.headOk true true && c.entry.noData && fld c.entry.w4 63 16 == 0 && c.entry.w7 == 0

/-- WRITE_MARK: one number, never pruned; its 32 bytes come from the volume's unclaimed space or from one segment more. A quiesced part
admits and completes none (R162). -/
def execWriteMark (u q : Nat) (s : State) : Host.Outcome State Fault Refusal :=
  if s.dev.quiesced ≠ 0 then commit s s
  else commit s ((s.ioRun u q 0x84 ⟨[], []⟩ Cmd.markOk fun s c w =>
    let t := w.transport
    let r := markBytes c.entry
    if s.cartFull t 0 then s.failFull c t
    else if !w.replay.isEmpty || !w.gapWait.isEmpty then s
    else
      let s1 := s.closeGap c.entry.vol (recTag r)
      match s1.roomFor c.entry.vol 32 with
      | none => s
      | some s2 =>
        let s3 := ((s2.offer t 32).takeRecord c t r).admitted c
        if s1.gapsPlaced c.entry.vol && s3.gapsPlaced c.entry.vol then s3.succeed c (mkw [(0, w.nextSeq % 2 ^ 48)]) else s).settle)

def Cmd.flushOk (c : Cmd) : Bool := c.entry.headOk false true && c.entry.noData && fld c.entry.w4 63 1 == 0 && zeros [c.entry.w5, c.entry.w6, c.entry.w7]

/-- FLUSH: the open block is cut; with CUT_ONLY that is all, else it waits until every record admitted before is verified. Where all of the
volume's stream stands in datasets, the chain entries that wait go with a dataset of their own (R186). -/
def execFlush (u q : Nat) (s : State) : Host.Outcome State Fault Refusal :=
  commit s ((s.ioRun u q 0x85 ⟨[], []⟩ Cmd.flushOk fun s c w =>
    let s0 := s.cut c.entry.vol 2
    let s1 := if ((s0.vol? c.entry.vol).map Volume.allPlaced).getD false && !bit c.entry.w4 0 then s0.flushChain c.entry.vol else s0
    if bit c.entry.w4 0 then s1.succeed c (mkw [(0, w.verified % 2 ^ 48)])
    else if (s1.mot w.transport).state == .outOfService && w.verified < c.seqAt then
      s1.complete c Status.transportOutOfService { result := mkw [(0, w.verified % 2 ^ 48)], detail := BitVec.ofNat 64 w.transport }
    else s1.setStage c.id (.flushing c.seqAt)).settle)

/-! ### Timers and engines -/

/-- BLOCK_CUT_TIMER: 2 ms after the open block's first byte. -/
def execBlockCutTimer (v : Nat) (s : State) : Host.Outcome State Fault Refusal := commit s ((s.modVol v fun w => w.cutBlock 1).settle)

/-- COMPRESS_DONE: the volume's first cut block is compressed or stays raw; a fault of the codec is fatal (R145). The body is the
formatter's own choice among legal encodings (R176). -/
def execCompressDone (v : Nat) (body : Option Bytes) (fault : Bool) (s : State) : Host.Outcome State Fault Refusal :=
  if s.dev.fatal.getLsbD 3 then commit s s
  else if fault then commit s ((s.deviceFatal 3 [rdCODEC]).settle)
  else commit s ((s.compressNext v body false).settle)

/-- SEAL_DONE: the volume's first compressed block is sealed, and its bytes are placed; a fault of the engine is fatal. -/
def execSealDone (v : Nat) (fault : Bool) (s : State) : Host.Outcome State Fault Refusal :=
  if s.dev.fatal.getLsbD 4 then commit s s
  else if fault then commit s ((s.deviceFatal 4 [rdSEAL]).settle)
  else commit s ((s.sealNext v false).settle)

/-- GAP_ENTRY_TIMER: GAP_AGG_MS after it opened. -/
def execGapEntryTimer (v : Nat) (tag : BitVec 16) (s : State) : Host.Outcome State Fault Refusal := commit s ((s.closeGap v tag.toNat).settle)

/-- The first waiting gap entry of a volume enters the stream where a segment can be had. -/
def State.placeWaiting (s : State) (h : Nat) : State :=
  match s.vol? h with
  | none => s
  | some w =>
    match w.gapWait with
    | [] => s
    | g :: r =>
      match s.roomFor h 64 with
      | some s1 => (s1.modVol h fun w => { w with gapWait := r }).placeGap h g.2
      | none => s

/-- GAP_ENTRY_PLACE. -/
def execGapEntryPlace (v : Nat) (s : State) : Host.Outcome State Fault Refusal := commit s ((s.placeWaiting v).settle)

end Sys2Proof.Machine
end

