-- ==== Sys2Proof/Machine/Flr.lean ====
section
/-! DEFINITION. Function Level Resets: VF_FLR, PF_FLR (R141 to R144, R336, Table 07-6). -/

namespace Sys2Proof.Machine

/-- A fetched Write Records whose data stands in the buffer is admitted where its checks pass; its result is discarded (R141). It waits for no
ring space and behind no gap entry any more; data behind a replay has not been read (DESIGN CHOICE, assumption 70). -/
def State.flrWrite (s : State) (c0 : Cmd) (h : HostData) : State :=
  let c := { c0 with data := h }
  match s.ownVol c with
  | none => s
  | some w =>
    if s.dev.quiesced = 0 && c.writeOk && w.report.isNone && !(w.encrypt && w.kcv == 0) && !w.noKey c && w.replay.isEmpty &&
        !s.cartFull w.transport c.entry.len then
      match parseRecords (fld c.entry.w4 12 0) (hostBytes c.entry h) with
      | none => s
      | some rs => if ringSize < ringNeed rs || (rs.any recDurable && !c.sachet) then s else (s.putList c w rs).getD s
    else s

/-- The first data held for a tenant's queue, and what remains. -/
def takeHeld (u q : Nat) : List (Nat × Nat × HostData) → Option HostData × List (Nat × Nat × HostData)
  | [] => (none, [])
  | x :: r => if x.1 = u && x.2.1 = q then (some x.2.2, r) else let p := takeHeld u q r; (p.1, x :: p.2)

/-- One fetched command of a tenant in a reset ends (R141): a Write Records with its data is admitted, one that waited only for the
commands before it has its effect, every other ends where it stands. -/
def State.flrCmd (p : State × List (Nat × Nat × HostData)) (c : Cmd) : State × List (Nat × Nat × HostData) :=
  let s := p.1
  match c.stage with
  | .waitingFor _ => ((if c.entry.op = 0x11 then s.finishDelete c else s.finishClear c).dropCmd c.id, p.2)
  | .fetched =>
    if c.entry.op = 0x81 && c.q ≠ 0 then
      match takeHeld c.u c.q p.2 with
      | (some h, rest) => ((s.flrWrite c h).dropCmd c.id, rest)
      | (none, rest) => (s.dropCmd c.id, rest)
    else (s.dropCmd c.id, p.2)
  | _ => (s.dropCmd c.id, p.2)

/-- Unconsumed Deferred Error entries of a tenant are copied to its Orphan Log (Table 07-6). -/
def State.orphanDeferred (s : State) (u : Nat) : State :=
  s.each (s.tn u).defLog.entries fun s e =>
    (s.modSachet fun x => { x with orphan := Tab.set u ((Tab.get {} x.orphan u).addEntry e) x.orphan }).raise (evTen u 5)

/-- The enables of every source that a tenant owns (R336). -/
def State.clearEnables (s : State) (u : Nat) : State :=
  s.each (List.range 512) fun s e => if (s.evSrc e).owner = u && (s.evSrc e).ena then s.modEvSrc e fun x => { x with ena := false } else s

/-- Step 5 for a tenant: what a Function Level Reset clears and keeps (Table 03-3); its GEN advances (R142), its Pruning log stays (R238). -/
def State.flrClear (s : State) (u : Nat) : State :=
  let s1 := ((s.orphanDeferred u).clearEnables u).each (s.volsOfTenant u) fun s p => s.modVol p.1 fun w => { w with report := none }
  s1.modTn u fun x =>
    { ({} : Tenant) with gen := x.gen + 1, pruneLog := x.pruneLog, snapRead := x.snapRead, snapLost := x.snapLost }

/-- Steps 1 and 2 of Table 07-6 for the tenants of a list. -/
def State.flrStop (s : State) (us : List Nat) (held : List (Nat × Nat × HostData)) : State :=
  let s1 := s.each us fun s u => s.modTn u fun x => { x with func := false, inFlr := true, cfgEn := false, rdy := false }
  let s2 := s1.each us fun s u => s.each (s.tn u).qps fun s p => s.closePair u p.1
  ((s2.cmdsWhere fun c => us.contains c.u).foldl State.flrCmd (s2, held)).1

/-- The volumes of the tenants of a list. -/
def State.flrVols (s : State) (us : List Nat) : List (Nat × Volume) := s.vols.filter fun p => us.contains p.2.tenant

/-- Step 3 for a list of volumes; it is skipped while the codec or the sealer is in a fatal state (R144). -/
def State.flrSeal (s : State) (l : List (Nat × Volume)) : State :=
  if s.dev.fatal.getLsbD 3 || s.dev.fatal.getLsbD 4 then s else s.each l fun s p => s.sealAll p.1

/-- Steps 4 and 5, and the end: FUNC is 1 again where the function exists and HOST is 1 (R141, R44). -/
def State.flrEnd (s : State) (us : List Nat) (pf : Bool) : State :=
  let s1 := s.each (s.flrVols us) fun s p => s.zeroise p.1
  let s2 := s1.each us fun s u => s.flrClear u
  let s3 := if pf then s2.modDev fun d => { d with vfEnable := false, numVfs := 0 } else s2
  s3.each us fun s u => if s.fnExists u && s.ready rdHOST then s.modTn u fun x => { x with func := true } else s

/-- A Function Level Reset of the tenants of a list, as far as `cut` lets it come: where PERST_N ends it while it seals, it stands with that
many volumes sealed, and never completes (R50). -/
def State.flr (s : State) (us : List Nat) (held : List (Nat × Nat × HostData)) (cut : Option Nat) (pf : Bool) : State :=
  let s1 := s.flrStop us held
  match cut with
  | some n => s1.flrSeal ((s1.flrVols us).take n)
  | none => ((s1.flrSeal (s1.flrVols us)).flrEnd us pf).settle

/-- VF_FLR: the reset of one virtual function; `held` are the data wholly read for its queues' Write Records, each queue's in fetch
order. -/
def execVfFlr (u : Nat) (x : VfReset) (s : State) : Host.Outcome State Fault Refusal :=
  if u = 0 || 16 ≤ u || !s.reach u then commit s s
  else commit s (s.tlp.flr [u] (x.held.map fun p => (u, p.1, p.2)) x.cut false)

/-- PF_FLR (R143): every tenant is reset together; VF Enable and NumVFs are cleared. -/
def execPfFlr (x : PfReset) (s : State) : Host.Outcome State Fault Refusal :=
  if !s.reach 0 then commit s s else commit s (s.tlp.flr (List.range 16) x.held x.cut true)

end Sys2Proof.Machine
end

