-- ==== Sys2Proof/Machine/Frames.lean ====
section
/-! DEFINITION. Frames and upstream express words of the front-end: SAMPLE_FRAME, RESEND_REQUEST, SAMPLE_FRAME_LOST, CONTROL_FRAME,
MANAGEMENT_RESPONSE, MANAGEMENT_TIMEOUT, AUTONOMOUS_STOP, POWER_STAGE_FAULT, SERVO_WORD, TACH_WORD, SENSE_WORD, STATUS_WORD. -/

namespace Sys2Proof.Machine

/-! ### Frames (R263) -/

/-- HCRC passes, and FTYPE and LEN are those of an upstream frame (Table 13-2). -/
def frameOk (f : Frame) : Bool :=
  let ty := fld f.w0 7 0
  let len := fld f.w0 15 8
  crc32c (slice (wordsBytes [f.w0, f.w1, f.w2, f.w3]) 0 28) == fld f.w3 63 32 &&
    ((ty == 1 && len == 17) || (ty == 3 && len == 1) || (ty == 4 && decide (1 ≤ len) && decide (len ≤ 9)))

/-- A frame of a type, on a lane that carries its transport; a bad one is counted, and a Quarantined lane's not acted on. -/
def State.takeFrame (s : State) (n ty : Nat) (f : Frame) : State × Bool :=
  if !frameOk f then (s.modLn n fun l => { l with framesBad := wrapAdd l.framesBad 1 }, false)
  else (s, fld f.w0 7 0 == ty && ((s.ln n).state == .up || (s.ln n).state == .rejoining))

/-- Takes `n` free values. -/
def State.takeN (s : State) (n : Nat) : State := { s with freeCtr := s.freeCtr + n }

/-! ### The feedthrough canceller (R242) -/

/-- The channel bits of a track over an interval, as they were sent to the head (R205 to R209). -/
def State.sentBits (s : State) (t : Nat) (i : IntervalRec) (p : Nat) : List Bool :=
  let act := activeTracks i.tmask
  let mine := match act.findIdx? (· == p) with
    | some a => (rewriteLists act i.was).getD a []
    | none => []
  let d := i.dsn.bind fun n => s.written? t n
  let x := d.getD default
  trackBits i.tmask x.dkind d x.dsn x.gpos i.p i.q p (mine.map fun r => ((s.written? t r.dsn).getD default, r.sub, r.row, r.rwc))

/-- The write waveform of a track at a write bit index: 1 for a bit 1, -1 for a bit 0, 0 where no interval stands. -/
def State.waveAt (s : State) (t p w : Nat) : Int :=
  let f := s.fmt t
  let end_ := (s.tp t).link.wbi
  if end_ ≤ w || f.wrapBits < end_ - w then 0
  else
    let pos := f.wrapBits - (end_ - w)
    match f.intervals.find? fun i => decide (i.start ≤ pos) && decide (pos < i.stop) with
    | some i => if (s.sentBits t i p).getD (pos - i.start) false then 1 else -1
    | none => 0

/-- The write bit index at each of a frame's 16 sample instants: WBI and WPH at the first, then 4 ns at the rate of the write clock each
(R264, R282). -/
def State.frameBits (s : State) (t : Nat) (f : Frame) : List Nat :=
  (List.range 16).map fun i => (fld f.w2 47 0 * 65536 + fld f.w2 63 48 + i * (s.tp t).link.wclk * 65536 / 4000000000) / 65536

/-- The canceller over one frame: each sample less the waveform filtered by the 24 taps, in units of 1/65536. `past` is the waveform of the
sample instants before, newest first. -/
def cancel (taps : Word) (past : List Int) : List (Int × Int) → List Int × List Int
  | [] => ([], past)
  | (x, w) :: r =>
    let h := (w :: past).take 24
    let y := 65536 * x - ((List.range 24).map fun j => Config.ftcTap taps j * h.getD j 0).sum
    let z := cancel taps (h.take 23) r
    (y :: z.1, z.2)

/-- Sample `i` of channel `c` of a frame (R264). -/
def frameSample (f : Frame) (i c : Nat) : Int := (f.body.getD (32 * i + c) 0).toInt

/-- The canceller runs: the write gate is open, and the frame says that the write clock runs (R242). -/
def State.cancels (s : State) (t : Nat) (f : Frame) : Bool := (s.tp t).gu.gate && bit f.w0 16

/-- A channel takes a frame (R240 to R244): the canceller's output, or the samples past a bypassed one, whose taps are kept; the equaliser's,
canceller's and predictor's taps adapt unless their step is 15, the canceller's only while it runs. The spec gives no number for the taps
(free values). -/
def State.chanFrame (s : State) (t : Nat) (f : Frame) (c : Nat) (x : Chan) : Chan :=
  let mu := (s.tp t).rc.cfgUsed
  let on := s.cancels t f
  let ins := (List.range 16).map fun i => frameSample f i c
  let out := if on then cancel x.tapsFtc x.wave (ins.zip ((s.frameBits t f).map fun w => s.waveAt t c w)) else (ins.map (65536 * ·), [])
  { x with residue := out.1, wave := out.2
           tapsEq := if fld mu 3 0 = 15 then x.tapsEq else Config.freeWord (s.freeCtr + 18 * c)
           tapsFtc := if fld mu 7 4 = 15 || !on then x.tapsFtc else Config.freeWord (s.freeCtr + 18 * c + 1)
           tapsNp := if fld mu 11 8 = 15 then x.tapsNp else (List.range 16).map fun k => Config.freeWord (s.freeCtr + 18 * c + 2 + k) }

/-- Every channel of a transport takes a sample frame. -/
def State.adapt (s : State) (t : Nat) (f : Frame) : State :=
  (s.modRc t fun r => { r with chans := (List.range 32).foldl (fun m c => Tab.set c (s.chanFrame t f c (Tab.get {} m c)) m) r.chans }).takeN 576

/-- SAMPLE_FRAME (R240 to R244, R263, R264, R278, R281): the frame is taken by its SN from any lane that carries the transport;
numbers passed over are missing; a frame from the switch frame on makes a rejoining lane Up. Below PS1 frames are discarded
unprocessed (R345), and in PS1 the read channel is gated. -/
def execSampleFrame (n : Nat) (f : Frame) (s : State) : Host.Outcome State Fault Refusal :=
  if !s.lanePresent n then commit s s
  else match s.takeFrame n 1 f with
  | (s1, false) => commit s s1
  | (s1, true) =>
    let t := s1.tpOf n
    let sn := fld f.w1 47 0
    let l := (s1.tp t).link
    let s2 := s1.modLink t fun l =>
      if l.snNext ≤ sn then
        let k := min 256 (sn - l.snNext)
        let miss := l.snMissing ++ (List.range k).map (sn - k + ·)
        { l with snMissing := miss.drop (miss.length - 256), snNext := sn + 1, snHigh := max l.snHigh sn }
      else { l with snMissing := l.snMissing.filter (· != sn) }
    let s3 := if (s2.ln n).state == .rejoining && (s2.ln n).proposing && (s2.ln n).switchSn.toNat ≤ sn then s2.rejoined n else s2
    commit s (if s3.pm.state = 0 && (l.snNext ≤ sn || l.snMissing.contains sn) && (s3.mot t).state.moving then (s3.adapt t f).settle else s3.settle)

/-- RESEND_REQUEST (R277, R280): a frame that has not arrived is asked for again, of the partner in split mode. -/
def execResendRequest (t sn : Nat) (s : State) : Host.Outcome State Fault Refusal :=
  let l := (s.tp t).link
  let up := s.upLanes t
  if !s.tpExists t || up.isEmpty || !(l.snMissing.contains sn || sn == l.snNext) then commit s s
  else
    let own := if s.isPaired t then t + sn % 2 else t
    let use := match up with
      | [a, b] => if own = a then b else a
      | a :: _ => a
      | [] => t
    commit s (((s.sendLink t 4 (s.laneBit use) sn).modLn own fun x => { x with reqd := wrapAdd x.reqd 1 }).stat (stLane own 4) 1)

/-- SAMPLE_FRAME_LOST (R280): not arrived 8 µs after its time: counted, and waited for no more. -/
def execSampleFrameLost (t sn : Nat) (s : State) : Host.Outcome State Fault Refusal :=
  let l := (s.tp t).link
  if !s.tpExists t || !(l.snMissing.contains sn || sn == l.snNext) then commit s s
  else
    let own := if s.isPaired t then t + sn % 2 else t
    commit s ((((s.modLink t fun l => { l with snMissing := l.snMissing.filter (· != sn), snNext := max l.snNext (sn + 1) }).modLn own fun x =>
      { x with lost := wrapAdd x.lost 1 }).stat (stLane own 5) 1))

/-- A supply lies within ±10 % of its value at link-up. -/
def nearUp (up : Option Nat) (v : Nat) : Bool :=
  match up with
  | some u => decide (10 * v ≤ 11 * u) && decide (9 * u ≤ 10 * v)
  | none => true

/-- CONTROL_FRAME (R266, R345): TP_FE, the clip counts, and the temperature and supply events; one late by more than 3 ms is
counted. -/
def execControlFrame (n : Nat) (f : Frame) (sinceMs : Nat) (s : State) : Host.Outcome State Fault Refusal :=
  if !s.lanePresent n then commit s s
  else match s.takeFrame n 3 f with
  | (s1, false) => commit s s1
  | (s1, true) =>
    let t := s1.tpOf n
    let clips := fld f.w2 31 0
    let vm := fld f.w1 31 16
    let vl := fld f.w1 47 32
    let temp := signed 16 (fld f.w1 15 0)
    let lim : Int := (8 * s.pm.tlim.toNat : Nat)
    let x := (s1.tp t).fe
    let upM := x.upVmot.getD vm
    let upL := x.upVlog.getD vl
    let ok := nearUp (some upM) vm && nearUp (some upL) vl
    let okRun := if ok then x.supplyOk + 1 else 0
    let hot := x.tempArmed && decide (lim ≤ temp)
    let bad := x.supplyArmed && !ok
    let s2 := s1.modFe t fun y =>
      { y with temp := BitVec.ofNat 16 (fld f.w1 15 0), vmot := BitVec.ofNat 16 vm, vlog := BitVec.ofNat 16 vl,
               clip := if clips = 0 then y.clip else wrapAdd y.clip 1, late := if 3 < sinceMs then wrapAdd y.late 1 else y.late,
               upVmot := some upM, upVlog := some upL, supplyOk := okRun,
               tempArmed := if hot then false else y.tempArmed || decide (temp ≤ lim - 40),
               supplyArmed := if bad then false else y.supplyArmed || decide (10 ≤ okRun) }
    let s3 := s2.each ((List.range 32).filter fun c => clips.testBit c) fun s c => s.modChan t c fun y => { y with clipped := wrapAdd y.clipped 1 }
    let s4 := if hot then s3.raise (evTp t 25) else s3
    commit s (if bad then s4.raise (evTp t 26) else s4)

/-! ### Management (R284) -/

/-- MANAGEMENT_RESPONSE: the outstanding request of its TAG ends; a response that names none is ignored. -/
def execManagementResponse (n : Nat) (f : Frame) (s : State) : Host.Outcome State Fault Refusal :=
  if !s.lanePresent n then commit s s
  else match s.takeFrame n 4 f with
  | (s1, false) => commit s s1
  | (s1, true) =>
    let t := s1.tpOf n
    match (if bit f.w0 24 then (s1.tp t).link.outstanding (fld f.w0 47 32) else none) with
    | some r => commit s (s1.mgmtEnd t r.tag)
    | none => commit s s1

/-- MANAGEMENT_TIMEOUT: a request is retried twice, then the front-end is not responding: controlled stop, Out of Service; during the load
sequence its end (R319). -/
def execManagementTimeout (t tag : Nat) (s : State) : Host.Outcome State Fault Refusal :=
  match (s.tp t).link.outstanding tag with
  | none => commit s s
  | some r =>
    if r.retries < 2 then
      commit s ((s.modLink t fun l => { l with mgmt := l.mgmt.map fun x => if x.tag == tag then { x with retries := x.retries + 1 } else x }).emitMgmt t r)
    else
      let s1 := (s.mgmtEnd t tag).raise (evTp t 24)
      commit s ((if (s.mot t).state == .loading then s1.loadFailed t else s1.controlledStop t (.outOfService 9)).settle)

/-- A NOTIFY is answered, and ends PS2 (R284, Table 16-6). Its TAG is no operand of the row. -/
def State.notified (s : State) (t : Nat) : State :=
  let s1 := s.emit (.management t 6 0 true 0 [])
  if s1.pm.state = 2 then s1.wake 5 else s1

/-- The front-end has stopped the tape by itself (R283): drive and brakes are off, the transport stands Relaxed, or Out of Service
where the stop had a cause. -/
def State.selfStopped (s : State) (t : Nat) : State :=
  let m := s.mot t
  let s1 := if (s.tp t).fe.asDone then s else (s.modFe t fun x => { x with asDone := true }).raise (evTp t 28)
  if !m.state.moving then s1
  else
    let s2 := ((s1.cutWrites t).modSol t fun x => { x with energ := 0, pullin := none, wait := [] }).modMot t fun m =>
      { m with vel := 0, target := none, pendingTarget := none, servoAcquired := false, starting := none }
    match m.stopGoal with
    | .outOfService c => s2.enterOos t c
    | .reload => s2.resetTp t
    | .parked => ((s2.modFmt t fun f => { f with closing := false }).dropExc t).setTState t .relaxed

/-- AUTONOMOUS_STOP (R283): NOTIFY 4. -/
def execAutonomousStop (t : Nat) (s : State) : Host.Outcome State Fault Refusal :=
  if s.tpExists t then commit s (((s.notified t).selfStopped t).settle) else commit s s

/-- POWER_STAGE_FAULT (R284, R325): NOTIFY 3: an emergency stop while the tape moves, else Out of Service; cause Front-end. -/
def execPowerStageFault (t : Nat) (s : State) : Host.Outcome State Fault Refusal :=
  if !s.tpExists t then commit s s
  else
    let s1 := (s.notified t).raise (evTp t 27)
    commit s ((if (s.mot t).state.moving then s1.emergencyStop t 9 else s1.enterOos t 9).settle)

/-! ### Express words -/

/-- SERVO_WORD (R270, R302, R303, R311, R317): position and lateral error; slot 0's job is released; acquisition and hold count
valid words; the guard unit judges. -/
def execServoWord (n : Nat) (slot : XSlot) (s : State) : Host.Outcome State Fault Refusal :=
  match s.accept n 1 slot with
  | (s1, none) => commit s s1.settle
  | (s1, some p) =>
    let t := s1.tpOf n
    let f0 := fld p 48 48
    let f1 := fld p 49 49
    let fc := fld p 63 53
    let m := s1.mot t
    let step : Int := match m.fcount with
      | some o => (if bit p 52 then 1 else -1) * (((fc + 2048 - o) % 2048 : Nat) : Int)
      | none => 0
    let s2 := (s1.modFe t fun x =>
      { x with y0 := signed 16 (fld p 15 0), y1 := signed 16 (fld p 31 16), speedRaw := fld p 47 32, dirEot := bit p 52,
               v0 := bit p 50, v1 := bit p 51 }).modMot t fun m => { m with x := m.x + step, fcount := some fc }
    let lim : Int := (4 * ((s2.tp t).gu.cfg.toNat % 65536) : Nat)
    let x := (s2.tp t).fe
    let good := x.v0 && x.v1
    let near := good && decide (((x.y0 - s2.lateral t).natAbs : Int) ≤ lim) && decide (((x.y1 - s2.lateral t).natAbs : Int) ≤ lim)
    let s3 := if !m.servoAcquired && m.state.moving && m.state != .stopping then
        s2.modMot t fun m => { m with acquireRun := if near then m.acquireRun + 1 else 0, servoAcquired := near && decide (8 ≤ m.acquireRun + 1),
                                      attempts := if near && 8 ≤ m.acquireRun + 1 then 0 else m.attempts }
      else if (s2.slot t 0).hold then
        let run := if good then m.holdRun + 1 else 0
        if 8 ≤ run then s2.resumeServo t else s2.modMot t fun m => { m with holdRun := run }
      else s2
    let s4 := if (f0 = 1 || f1 = 1) && s3.slotRuns t 0 then s3.modSlot t 0 fun z => { z with released := true } else s3
    commit s (((s4.rearm t [1, 2, 3, 4]).guardWord t f0 f1).settle)

/-- TACH_WORD (Table 14-2, R306): edge rates from the last two words whose count changed; a change without a difference of time
has no stated rate, nor has the filter of K a stated form (free values). -/
def execTachWord (n : Nat) (slot : XSlot) (s : State) : Host.Outcome State Fault Refusal :=
  match s.accept n 2 slot with
  | (s1, none) => commit s s1.settle
  | (s1, some p) =>
    let t := s1.tpOf n
    let f := (s1.tp t).fe
    let rate : Nat × Nat → Nat × Nat → Nat → Int := fun old new k =>
      let dc := (new.1 + 65536 - old.1) % 65536
      let dt := (new.2 + 65536 - old.2) % 65536
      if dt = 0 then signed 32 (Config.freeWord (s1.freeCtr + k)).toNat else (dc * 100000000 / dt : Nat)
    let a := (fld p 15 0, fld p 31 16)
    let b := (fld p 47 32, fld p 63 48)
    let s2 := s1.modFe t fun x =>
      { x with edgeA := if a.1 = f.tachA.1 then x.edgeA else rate f.tachA a 0, tachA := if a.1 = f.tachA.1 then x.tachA else a,
               edgeB := if b.1 = f.tachB.1 then x.edgeB else rate f.tachB b 1, tachB := if b.1 = f.tachB.1 then x.tachB else b }
    let s3 := if f.v0 || f.v1 then s2.modGu t fun g =>
        { g with ratioA := (Config.freeWord (s1.freeCtr + 2)).setWidth 32, ratioB := (Config.freeWord (s1.freeCtr + 3)).setWidth 32 }
      else s2
    commit s (((s3.takeN 4).rearm t [5, 6]).settle)

/-- Once both brakes count as released, a start from Relaxed goes on (R322, Table 15-2). -/
def State.continueStart (s : State) (t : Nat) : State :=
  let m := s.mot t
  if m.state == .relaxed && (s.tp t).sol.released then
    match m.starting with
    | some .park => s.park t
    | some .burst => s.startWrite t
    | some (.excursion cmds) => s.depart t cmds
    | none => s
  else s

/-- SENSE_WORD (R322, R323): tension, currents, solenoid state and cartridge; an overcurrent drops gate, solenoids and drive, and
the transport goes Out of Service with cause Solenoid. -/
def execSenseWord (n : Nat) (slot : XSlot) (s : State) : Host.Outcome State Fault Refusal :=
  match s.accept n 3 slot with
  | (s1, none) => commit s s1.settle
  | (s1, some p) =>
    let t := s1.tpOf n
    let s2 := ((s1.modFe t fun x => { x with tension := fld p 15 0, iA := signed 16 (fld p 31 16), iB := signed 16 (fld p 47 32) }).modSol t fun x =>
      { x with solSt := BitVec.ofNat 3 (fld p 51 49), hsOc := if bit p 48 then wrapAdd x.hsOc 1 else x.hsOc }).modMot t fun m => { m with cartPresent := bit p 52 }
    if bit p 48 && (s2.mot t).state != .outOfService then
      commit s ((((((s2.gateClose t 5).solRelease t [0, 1, 2]).driveOff t).raise (evTp t 22)).enterOos t 6).settle)
    else commit s (((s2.rearm t [7, 8, 9]).continueStart t).settle)

/-- STATUS_WORD (R272, R275, R282, R283): the write FIFO, the front-end's own uncorrectable codewords (into the window of R275),
watchdog trips and underruns, which leave the gate closed, and the autonomous stop. -/
def execStatusWord (n : Nat) (slot : XSlot) (s : State) : Host.Outcome State Fault Refusal :=
  match s.accept n 4 slot with
  | (s1, none) => commit s s1.settle
  | (s1, some p) =>
    let t := s1.tpOf n
    let d := (fld p 31 16 + 65536 - (s1.ln n).rxUncorr.toNat) % 65536
    let kept := (s1.ln n).window.filter fun k => decide (slot.period < k + 1048576)
    let s2 := s1.modLn n fun l =>
      { l with rxUncorr := BitVec.ofNat 16 (fld p 31 16), wdog := if bit p 9 then wrapAdd l.wdog 1 else l.wdog,
               window := kept ++ List.replicate (min 17 d) slot.period }
    let s3 := s2.modFe t fun x => { x with wfill := fld p 7 0, gate := bit p 8, asAct := bit p 11 }
    let s4 := if bit p 9 || bit p 10 then (s3.modGu t fun g => { g with gate := false, openReq := none }).cutWrites t else s3
    let s5 := if bit p 12 then s4.selfStopped t else s4
    commit s ((if 16 < (s5.ln n).window.length then s5.failLane n else s5).settle)

end Sys2Proof.Machine
end

