-- ==== Sys2Proof/Machine/Io.lean ====
section
/-! DEFINITION. READ_RECORDS, VERIFY_RANGE, LOCATE, READ_POSITION (R119, R120, R124, R125). -/

namespace Sys2Proof.Machine

/-! ### Reads -/

/-- Fields of Read Records; START and the range are judged against the volume. -/
def Cmd.readOk (c : Cmd) : Bool :=
  let n := fld c.entry.w5 12 0
  c.entry.headOk false true && (c.entry.noData || c.entry.dataOk c.data) && decide (1 ≤ n) && decide (n ≤ 4096) && fld c.entry.w5 15 13 == 0 &&
    fld c.entry.w5 63 17 == 0 && zeros [c.entry.w6, c.entry.w7]

/-- The lowest number that a volume still holds: whole on tape, in the buffer, or to be replayed. -/
def State.lowestHeld (s : State) (w : Volume) : Option Nat :=
  let tape := match s.volSets w with
    | some (c, sets) => ((recordsOf (w.openAll (tapeBlocks c ⟨[], []⟩ sets w.vidx))).filter fun r => !bit (wordAt r 0) 52).map seqOf
    | none => []
  (tape ++ (w.recs ++ w.done).filterMap (·.seq) ++ w.replay.map (·.1)).min?

/-- A number whose wrap groups have been reused: below the lowest that the volume holds, and not lost (R119). -/
def State.givenUp (s : State) (w : Volume) (k : Nat) : Option Nat :=
  let d := s.dir w.transport
  if d.groups.any (fun g => g.2.reuses != 0) && !isLost d w.vidx k then (s.lowestHeld w).filter fun m => decide (k < m) else none

/-- The first number of a read that was recorded lost: the read fails wherever its bytes still stand (R135). -/
def State.lostIn (s : State) (w : Volume) (e : SubEntry) : Option Nat := (w.asked e).find? fun k => isLost (s.dir w.transport) w.vidx k

/-- A read whose records are not all pinned waits for its excursion, with those it has pinned (R120, R121). Where no kept dataset holds a
number it asks for, it fails at once; where the transport has left service since the dispatch, it ends with the media status (R49). -/
def State.queueRead (s : State) (c : Cmd) (w : Volume) : State :=
  let ks := w.wanted c
  let t := w.transport
  if (s.needSets w ks).isEmpty then
    s.failRead c t { status := Status.recordsLost, seq := (ks.head?.toList ++ (s.lostIn w c.entry).toList).min?.getD 0, off := 0 }
  else if (s.mot t).state == .outOfService then s.complete c Status.transportOutOfService { detail := BitVec.ofNat 64 t }
  else s.modArb fun a => { a with cmds := a.cmds.map fun x =>
    if x.id == c.id then { x with data := ⟨[], []⟩, pins := c.pins, stage := .reading false } else x }

/-- READ_RECORDS: from the buffer where every record it takes is pinned there, else from tape; a number recorded lost fails it. Records still to
be replayed hold it back. -/
def execReadRecords (u q : Nat) (h : HostData) (s : State) : Host.Outcome State Fault Refusal :=
  commit s ((s.ioRun u q 0x82 h Cmd.readOk fun s c w =>
    let first := c.entry.w4.toNat
    if w.noKey c then s.fail c Status.keyNotLoaded
    else if first = 0 || w.nextSeq ≤ first then s.fail c Status.invalidField
    else match s.givenUp w first with
      | some m => s.complete c Status.invalidField { result := mkw [(0, m % 2 ^ 48)] }
      | none =>
        let c1 := c.pinNow w
        if (w.asked c.entry).any fun k => w.replay.any fun r => r.1 == k then s
        else match s.lostIn w c.entry with
          | some k => s.failRead c w.transport { status := Status.recordsLost, seq := k, off := 0 }
          | none =>
            if c1.holds (w.range first (fld c.entry.w5 12 0) (bit c.entry.w5 16)) then
              s.deliverRead c w c1.pinned w.gapAfter c1.pins.length false
            else s.queueRead c1 w).settle)

/-! ### Verify Range -/

def Cmd.verifyOk (c : Cmd) : Bool := c.entry.headOk false true && c.entry.noData && zeros [c.entry.w6, c.entry.w7]

/-- Bytes of the records in a range: those in the buffer, and those on tape as their datasets hold them. -/
def State.rangeBytes (s : State) (w : Volume) (ks : List Nat) : Nat :=
  let held := (ks.filterMap fun k => (w.held? k).map fun r => r.bytes.length).sum
  let rest := ks.filter fun k => (w.held? k).isNone
  let tape := ((s.readTape w rest rest ⟨[], []⟩).recs.filter fun r => !bit (wordAt r 0) 52 && rest.contains (seqOf r)).map (·.length)
  held + tape.sum

/-- VERIFY_RANGE: FIRST to LAST within the admitted numbers, at most 4,096 records and 1 GiB; records still in the buffer count as checked. The
first record that fails gives the status, so that a lost one waits for what the tape shows of those below it (R125). -/
def execVerifyRange (u q : Nat) (s : State) : Host.Outcome State Fault Refusal :=
  commit s ((s.ioRun u q 0x87 ⟨[], []⟩ Cmd.verifyOk fun s c w =>
    let a := c.entry.w4.toNat
    let b := c.entry.w5.toNat
    let ks := w.asked c.entry
    if w.noKey c then s.fail c Status.keyNotLoaded
    else if a = 0 || b < a || w.nextSeq ≤ b || 4096 < b + 1 - a || 1073741824 < s.rangeBytes w ks then s.fail c Status.invalidField
    else if ks.any fun k => w.replay.any fun r => r.1 == k then s
    else if (c.pinNow w).holds ks && (s.lostIn w c.entry).isNone then s.succeed c (mkw [(0, ks.length)])
    else s.queueRead (c.pinNow w) w).settle)

/-! ### Locate and Read Position -/

def Cmd.locateOk (c : Cmd) : Bool :=
  c.entry.headOk false true && c.entry.noData && fld c.entry.w4 63 2 == 0 && fld c.entry.w4 1 0 != 3 && zeros [c.entry.w6, c.entry.w7]

/-- LOCATE: on a transport with pending data or inflow the target stands as a hint for the volume's next read; else the tape moves. A target
whose record is not on tape needs no move. MODE 0 with TARGET 0 names no record: DESIGN CHOICE, Invalid Field (assumption 83). -/
def execLocate (u q : Nat) (s : State) : Host.Outcome State Fault Refusal :=
  commit s ((s.ioRun u q 0x83 ⟨[], []⟩ Cmd.locateOk fun s c w =>
    let t := w.transport
    let mode := fld c.entry.w4 1 0
    let k := w.locateSeq c.entry
    if mode = 0 && (c.entry.w5 == 0 || decide (w.nextSeq ≤ k)) then s.fail c Status.invalidField
    else if mode = 1 && (c.entry.w5 == 0 || decide (w.markSeqs.length < c.entry.w5.toNat)) then
      s.complete c Status.invalidField { result := mkw [(0, w.marks % 2 ^ 48)] }
    else if s.pendingOf t != 0 || decide (0 < s.inflow t) then
      (s.setVol c.entry.vol { w with hint := some k }).succeed c (mkw [(0, k % 2 ^ 48), (48, 1)])
    else if (s.mot t).state == .outOfService then s.complete c Status.transportOutOfService { detail := BitVec.ofNat 64 t }
    else s.setStage c.id (.reading false)).settle)

/-- Table 06-11. -/
def State.position (s : State) (w : Volume) : Bytes :=
  let f := s.fmt w.transport
  wordsBytes [BitVec.ofNat 64 w.nextSeq, BitVec.ofNat 64 w.acked, BitVec.ofNat 64 w.verified, BitVec.ofNat 64 w.pendingBytes,
    BitVec.ofNat 64 w.pruned, BitVec.ofNat 64 w.marks, mkw [(0, f.wrap), (16, f.wrap / 8)], 0]

/-- READ_POSITION; a LEN that holds the 64 bytes is taken, a smaller one is Invalid Field (DESIGN CHOICE, assumption 83). -/
def Cmd.positionOk (c : Cmd) : Bool :=
  c.entry.headOk false true && c.entry.dataOk c.data && decide (64 ≤ c.entry.len) && zeros [c.entry.w4, c.entry.w5, c.entry.w6, c.entry.w7]

def execReadPosition (u q : Nat) (h : HostData) (s : State) : Host.Outcome State Fault Refusal :=
  commit s ((s.ioRun u q 0x86 h Cmd.positionOk fun s c w => (s.hostWrite c (s.position w)).succeed c).settle)

end Sys2Proof.Machine
end

