-- ==== Sys2Proof/Machine/Links.lean ====
section
/-! DEFINITION. Lanes and their words: TRAINING_TIMEOUT, TRAINING_RETRY, TRAIN_WORD, IDENT, LANE_UP, UNCORRECTABLE_CODEWORD,
SLOT_LOCK_LOSS, LINK_QUARANTINE_RX, REJOIN_START, LINK_ACK, PROPOSE_TIMEOUT, LANE_RESET_TIMEOUT, WCLK_SEND, and the Lane Service
commands. -/

namespace Sys2Proof.Machine

/-- A lane that trains: in Training, or Quarantined and not yet trained. -/
def Lane.inTraining (l : Lane) : Bool := !l.trained && (l.state == .training || l.state == .quarantined)

/-- TRAINING_TIMEOUT (R273): not Up 150 ms after training began: Training Failed; the lane waits 1 s. -/
def execTrainingTimeout (n : Nat) (s : State) : Host.Outcome State Fault Refusal :=
  if s.lanePresent n && (s.ln n).inTraining then
    commit s ((s.modLn n fun l => { l with state := if l.state == .quarantined then .quarantined else .down, feReady := false, locked := false }).raise (evLane n 2))
  else commit s s

/-- TRAINING_RETRY (R273): 1 s later the lane trains again, unless it is held or its front-end was refused (R285). -/
def execTrainingRetry (n : Nat) (s : State) : Host.Outcome State Fault Refusal :=
  let l := s.ln n
  if s.lanePresent n && !l.held && !l.mismatch && (l.state == .down || (l.state == .quarantined && !l.trained)) then commit s (s.trainStart n)
  else commit s s

/-- One tap step: 1 is +0.025, 2 is -0.025. -/
def tapStep (k : Nat) : Int := if k = 1 then 1 else if k = 2 then -1 else 0

/-- TRAIN_WORD (R23, R269, R273): slot lock is gained; words found well-formed only inverted set RX_INV; a new request for a preset
or a tap step is applied once; RX_READY and RX_INV of the front-end are noted. -/
def execTrainWord (n : Nat) (slot : XSlot) (s : State) : Host.Outcome State Fault Refusal :=
  if !(s.lanePresent n && (s.ln n).inTraining) then commit s s
  else
    let s0 := if !(s.ln n).rxInv && (slotWord slot).isNone && (slotWord (invSlot slot)).isSome then s.modLn n fun l => { l with rxInv := true } else s
    match s0.rxSlot n slot with
    | (s1, none) => commit s s1
    | (s1, some w) =>
      if xType w ≠ xtTrain then commit s s1
      else
        let p := xPayload w
        let req := fld p 7 0
        let pre := fld p 3 0
        commit s (s1.modLn n fun l =>
          let l1 := if req = l.trainReq then l
            else
              let base := if pre ≤ 10 && pre ≠ l.trainReq % 16 then (presetTaps pre) else (l.tapPre, l.tapPost)
              { l with preset := if pre ≤ 10 then pre else l.preset, tapPre := base.1 + tapStep (fld p 5 4), tapPost := base.2 + tapStep (fld p 7 6) }
          { l1 with trainReq := req, feReady := l1.feReady || bit p 9, txInv := bit p 10 })

/-- The front-end is accepted (R285). -/
def State.identOk (s : State) (n : Nat) (w0 w1 w2 : Word) : Bool :=
  let m := (s.trnCfg (s.tpOf n)).feMatch
  let id := fld w0 47 16
  let other := match s.partner n with
    | some p => ((s.ln p).feId == 0 || (s.ln p).feId.toNat == id) && fld w1 39 32 == n % 2
    | none => true
  (m == 0 || m == id) && decide (2000 ≤ fld w1 31 16) && decide (fld w1 31 16 ≤ 5000) && decide (256 ≤ fld w1 63 48) &&
    decide (16 ≤ fld w2 7 0) && other

/-- IDENT (R285): at the end of training the front-end is accepted, or the lane goes Down with Front-end Mismatch and stays there. -/
def execIdent (n : Nat) (w0 w1 w2 _w3 : Word) (s : State) : Host.Outcome State Fault Refusal :=
  let l := s.ln n
  if !(s.lanePresent n && l.inTraining && l.feReady) then commit s s
  else
    let s1 := s.modLn n fun l => { l with feId := BitVec.ofNat 32 (fld w0 47 16) }
    if s.identOk n w0 w1 w2 then commit s (s1.modLn n fun l => { l with trained := true })
    else commit s ((s1.modLn n fun l => { l with state := .down, mismatch := true }).raise (evLane n 3))

/-- LANE_UP (R42, R274, R276, R288): a trained lane, past its clean window where it needs one, is Up, and the load that a transport reset
still owes begins; where its partner already carries
the transport after a loss of both, it rejoins from Quarantined. -/
def execLaneUp (n : Nat) (s : State) : Host.Outcome State Fault Refusal :=
  let l := s.ln n
  if !(s.lanePresent n && l.state == .training && l.trained && !l.held) then commit s s
  else
    let carried : Bool := match s.partner n with
      | some p => l.needClean && ((s.ln p).state == .up || (s.ln p).state == .rejoining)
      | none => false
    commit s (if carried then s.modLn n fun l => { l with state := .quarantined } else (((s.laneEnterUp n).reload (s.tpOf n)).settle))

/-- UNCORRECTABLE_CODEWORD (R262, R275): counted, and in the window of 2^20 periods; the 17th in it is a failure, and the lane's FIFOs
resynchronise as it trains again (R36). -/
def execUncorrectableCodeword (n : Nat) (x : BadCodeword) (s : State) : Host.Outcome State Fault Refusal :=
  if !s.lanePresent n then commit s s
  else
    let s1 := (s.modLn n fun l => { l with uncorr := wrapAdd l.uncorr 1, window := (l.window.filter fun p => decide (x.period < p + 1048576)) ++ [x.period] }).stat (stLane n 1) 1
    commit s (if 16 < (s1.ln n).window.length then ((s1.failLane n).discards x.disc).settle else s1)

/-- SLOT_LOCK_LOSS (R269, R275, R36). -/
def execSlotLockLoss (x : LockLoss) (s : State) : Host.Outcome State Fault Refusal :=
  if s.lanePresent x.lane then commit s ((((s.modLn x.lane fun l => { l with locked := false, badRun := 0 }).failLane x.lane).discards x.disc).settle)
  else commit s s

/-- LINK_QUARANTINE_RX (R279, R290): the front-end quarantines a lane of a split pair. Where the other lane already is, the earlier
QUARANTINE stands and is sent again; of two in one period the lower lane is quarantined. -/
def execLinkQuarantineRx (n : Nat) (slot : XSlot) (s : State) : Host.Outcome State Fault Refusal :=
  match s.accept n xtLink slot with
  | (s1, none) => commit s s1.settle
  | (s1, some p) =>
    let m := n / 2 * 2 + fld p 4 4
    match s1.partner m with
    | none => commit s s1.settle
    | some o =>
      let t := s1.tpOf m
      if fld p 3 0 ≠ 1 then commit s s1.settle
      else if (s1.ln m).state == .up && (s1.ln o).state == .up then
        commit s ((((s1.laneFailCount m).quarantineLane m).modLink t fun l => { l with quarFirst := some (m, slot.period) }).settle)
      else if (s1.ln m).state == .up && (s1.ln o).state == .quarantined then
        if m < o && (s1.tp t).link.quarFirst == some (o, slot.period) then
          commit s ((((((s1.laneFailCount m).modLn o fun l => { l with state := .up }).setReady (rdLANE o) true).quarantineLane m).modLink t fun l =>
            { l with quarFirst := some (m, slot.period) }).settle)
        else commit s ((s1.sendLink t 1 (s1.laneBit o) 0).settle)
      else commit s s1.settle

/-- A switch frame of at least SN_now + 64 is proposed on both lanes; how much later it lies is not stated (free). -/
def State.propose (s : State) (n : Nat) : State :=
  let t := s.tpOf n
  let sn := ((s.tp t).link.snHigh + 64 + s.free.toNat) % 2 ^ 48
  ((s.take.modLn n fun l => { l with switchSn := BitVec.ofNat 48 sn, proposing := true, proposals := l.proposals + 1 }).sendLink t 2 (s.laneBit n) sn)

/-- REJOIN_START (R281): a Quarantined lane that has trained and run its clean count, not held, rejoins its Up partner. -/
def execRejoinStart (n : Nat) (s : State) : Host.Outcome State Fault Refusal :=
  let l := s.ln n
  let up : Bool := match s.partner n with
    | some p => (s.ln p).state == .up
    | none => false
  if s.lanePresent n && l.state == .quarantined && l.trained && !l.held && up then
    commit s ((s.modLn n fun l => { l with state := .rejoining, proposals := 0 }).propose n)
  else commit s s

/-- LINK_ACK (R281): the ACK of the switch frame makes the rejoining lane Up. -/
def execLinkAck (n : Nat) (slot : XSlot) (s : State) : Host.Outcome State Fault Refusal :=
  match s.accept n xtLink slot with
  | (s1, none) => commit s s1.settle
  | (s1, some p) =>
    match (s1.lanesOf (s1.tpOf n)).find? fun m => (s1.ln m).state == .rejoining && (s1.ln m).proposing && (s1.ln m).switchSn.toNat == fld p 55 8 with
    | some m => commit s (if fld p 3 0 = 3 then (s1.rejoined m).settle else s1.settle)
    | none => commit s s1.settle

/-- PROPOSE_TIMEOUT (R281): proposed again; after the third the lane returns to Quarantined and its clean count restarts. -/
def execProposeTimeout (n : Nat) (s : State) : Host.Outcome State Fault Refusal :=
  let l := s.ln n
  if !(s.lanePresent n && l.state == .rejoining && l.proposing) then commit s s
  else if l.proposals < 3 then commit s (s.propose n)
  else commit s (s.modLn n fun l => { l with state := .quarantined, proposing := false, proposals := 0 })

/-- LANE_RESET_TIMEOUT (Table 13-9): Reset completes at 2,000 ms with the lane's state. -/
def execLaneResetTimeout (n : Nat) (s : State) : Host.Outcome State Fault Refusal :=
  match (s.cmdsWhere fun c => c.stage == .service && c.entry.op == 0x21 && c.unit == n).head? with
  | some c => commit s (((s.modLn n fun l => { l with resetting := false }).succeed c (s.lsResult n)).settle)
  | none => commit s s

/-! ### Lane Service (R286) -/

/-- Fields in range, and the lane present. -/
def State.lsOk (s : State) (c : Cmd) : Bool :=
  c.entry.headOk false false && c.entry.noData && fld c.entry.w4 63 16 == 0 && zeros [c.entry.w5, c.entry.w6, c.entry.w7] && s.lanePresent c.unit

/-- A lane that may be quarantined: single, or with its partner Up. -/
def State.mayQuarantine (s : State) (n : Nat) : Bool :=
  match s.partner n with
  | some p => (s.ln p).state == .up
  | none => true

/-- The steward's quarantine: R279 in a pair, R276 in single mode; a lane that carries nothing is counted no further. -/
def State.stewardQuarantine (s : State) (n : Nat) : State :=
  match s.partner n, (s.ln n).state with
  | some _, .up => (s.laneFailCount n).quarantine n
  | some _, _ => s.quarantineLane n
  | none, .up => (s.laneFailCount n).laneLoss (s.tpOf n)
  | none, _ => s.laneLoss (s.tpOf n)

/-- LS_QUERY. -/
def execLsQuery (s : State) : Host.Outcome State Fault Refusal :=
  commit s (s.run (s.serviceCmd 0x21 0) fun c => (if s.lsOk c then s.succeed c (s.lsResult c.unit) else s.fail c Status.invalidField).settle)

/-- LS_QUARANTINE. -/
def execLsQuarantine (s : State) : Host.Outcome State Fault Refusal :=
  commit s (s.run (s.serviceCmd 0x21 1) fun c =>
    if s.lsOk c && s.mayQuarantine c.unit then
      let s1 := s.stewardQuarantine c.unit
      (s1.succeed c (s1.lsResult c.unit)).settle
    else (s.fail c Status.invalidField).settle)

/-- LS_QUARANTINE_HELD: the lane stays Quarantined, or Down, until Release; a lane just quarantined is held and not quarantined
twice. -/
def execLsQuarantineHeld (s : State) : Host.Outcome State Fault Refusal :=
  commit s (s.run (s.serviceCmd 0x21 2) fun c =>
    if s.lsOk c && s.mayQuarantine c.unit then
      let s0 := s.modLn c.unit fun l => { l with held := true }
      let s1 := if (s.ln c.unit).state == .quarantined then s0 else s0.stewardQuarantine c.unit
      (s1.succeed c (s1.lsResult c.unit)).settle
    else (s.fail c Status.invalidField).settle)

/-- LS_RELEASE: a held lane proceeds; its clean count starts now. -/
def execLsRelease (s : State) : Host.Outcome State Fault Refusal :=
  commit s (s.run (s.serviceCmd 0x21 3) fun c =>
    if s.lsOk c then
      let s0 := s.modLn c.unit fun l => { l with held := false, window := [] }
      let s1 := if (s.ln c.unit).held && (s.ln c.unit).state == .down then s0.trainStart c.unit else s0
      (s1.succeed c (s1.lsResult c.unit)).settle
    else (s.fail c Status.invalidField).settle)

/-- LS_RESET (R43): the lane is quarantined or lost, and retrains from step 1; the command completes when it is Up. What its three FIFOs discard is
free (R36). -/
def execLsReset (s : State) : Host.Outcome State Fault Refusal :=
  commit s (s.run (s.serviceCmd 0x21 4) fun c =>
    if s.lsOk c then
      let n := c.unit
      let s1 := if s.mayQuarantine n then s.stewardQuarantine n else s.laneLoss (s.tpOf n)
      (((s1.modLn n fun l => { l with resetting := true, mismatch := false }).trainStart n).discardFree [7, 8, 11]).setStage c.id .service
    else (s.fail c Status.invalidField).settle)

/-! ### Write clock -/

/-- The write bit rate in 1/16 bit/s (R230, R282): 25 channel bits a micrometre at the tape speed that the last SERVO word measured; 0 unless
the transport streams or writes. -/
def State.wclkRate (s : State) (t : Nat) : Nat :=
  if (s.mot t).state == .streaming || (s.fmt t).writing then (s.tp t).fe.speedRaw * 200000 else 0

/-- WCLK_SEND (R282): the rate is sent at each change, and restated while it is not 0. -/
def execWclkSend (t : Nat) (s : State) : Host.Outcome State Fault Refusal :=
  let r := s.wclkRate t
  if s.tpExists t && (r ≠ 0 || (s.tp t).link.wclk ≠ r) then
    commit s ((s.sendWord t xtWclk (mkw [(0, r)])).modLink t fun l => { l with wclk := r })
  else commit s s

end Sys2Proof.Machine
end

