-- ==== Sys2Proof/Machine/Loads.lean ====
section
/-! DEFINITION. Transport Control and the cartridge: TC_QUERY to TC_REPLACED_MECHANISM, LOAD_STEP_TIMEOUT, SCAN_COMPLETE, LATCH_RELEASE,
CARTRIDGE_INSERTED, CARTRIDGE_REMOVED, UNLOAD_TIMER (R42, R217, R319 to R321, R333, R347). -/

namespace Sys2Proof.Machine

/-- Fields of a Transport Control that every action shares. -/
def Cmd.tcOk (c : Cmd) : Bool :=
  c.entry.headOk false false && c.entry.noData && fld c.entry.w4 63 16 == 0 && zeros [c.entry.w5, c.entry.w6, c.entry.w7] && decide (c.unit < 8)

/-- One action: Invalid Field where it is not allowed in the present state, else its effect. -/
def State.tcRun (s : State) (action : Nat) (allowed : State → Nat → Bool) (f : State → Cmd → Nat → State) : State :=
  s.run (s.serviceCmd 0x20 action) fun c => (if c.tcOk && allowed s c.unit then f s c c.unit else s.fail c Status.invalidField).settle

/-- An action that completes at once. -/
def State.tcEnd (s : State) (c : Cmd) : State := s.succeed c (s.tcResult c.unit false 0)

/-- An action that waits for its end (Table 15-5). -/
def State.tcWait (s : State) (c : Cmd) : State := s.setStage c.id .service

/-- A request on a transport ends PS1 (Table 16-6). -/
def State.rouse (s : State) : State := if s.pm.state = 1 then s.wake 4 else s

/-- TC_QUERY. -/
def execTcQuery (s : State) : Host.Outcome State Fault Refusal := commit s (s.tcRun 0 (fun _ _ => true) fun s c _ => s.tcEnd c)

/-- TC_LOAD (R319): Unloaded with a cartridge present. -/
def execTcLoad (env : LoadEnv) (s : State) : Host.Outcome State Fault Refusal :=
  commit s (s.tcRun 1 (fun s t => (s.mot t).state == .unloaded && (s.mot t).cartPresent && !(s.tp t).ld.resetting) fun s c t =>
    (s.tcWait c).runLoad t env)

/-- LOAD_STEP_TIMEOUT (R319): the step under way exceeds its bound: the tape is unthreaded, Load Failed, Unloaded. -/
def execLoadStepTimeout (t : Nat) (s : State) : Host.Outcome State Fault Refusal :=
  if (s.mot t).state == .loading && !(s.tp t).ld.scan then
    commit s ((s.loadFailed t).settle)
  else commit s s

/-- SCAN_COMPLETE (R217): the directory is rebuilt and the load ends. -/
def execScanComplete (t : Nat) (s : State) : Host.Outcome State Fault Refusal :=
  match (s.tp t).ld.cart with
  | some c =>
    if (s.tp t).ld.scan then commit s (((s.modLd t fun l => { l with dir := scanDir c l.dir }).mountDir t true).settle)
    else commit s s
  | none => commit s s

/-- The states an unload may begin in (Table 15-5). -/
def TState.unloadable : TState → Bool
  | .relaxed | .parked | .streaming | .locating | .outOfService => true
  | _ => false

/-- TC_UNLOAD (R320): it completes when the latch is released. -/
def execTcUnload (x : UnloadEnv) (s : State) : Host.Outcome State Fault Refusal :=
  commit s (s.tcRun 2 (fun s t => (s.mot t).state.unloadable) fun s c t => (s.tcWait c).rouse.beginUnload t x.dir x.servoOk)

/-- The withdrawn latch is released. -/
def State.latchFree (s : State) (t : Nat) : State :=
  if (s.tp t).ld.latchOut then (s.solRelease t [2]).modLd t fun l => { l with latchOut := false } else s

/-- LATCH_RELEASE (R320): NOTIFY 2, or 5 s. -/
def execLatchRelease (t : Nat) (s : State) : Host.Outcome State Fault Refusal := commit s ((s.latchFree t).settle)

/-- TC_PARK: from Relaxed the brakes are released, then tension is held. -/
def execTcPark (s : State) : Host.Outcome State Fault Refusal :=
  commit s (s.tcRun 3 (fun s t => (s.mot t).state == .relaxed) fun s c t =>
    (((s.tcWait c).rouse.brakesOff t).modMot t fun m => { m with starting := some .park }))

/-- TC_RELAX: from Parked. -/
def execTcRelax (s : State) : Host.Outcome State Fault Refusal :=
  commit s (s.tcRun 4 (fun s t => (s.mot t).state == .parked) fun s c t => (s.rouse.relax t).tcEnd c)

/-- TC_OUT_OF_SERVICE: a controlled stop with cause Steward, after the open group and its rewrites (R199). -/
def execTcOutOfService (s : State) : Host.Outcome State Fault Refusal :=
  commit s (s.tcRun 5 (fun s t => (s.mot t).state.usable) fun s c t => (s.tcWait c).rouse.orderStop t (.outOfService 1))

/-- TC_RETURN_TO_SERVICE: from a cause Steward back to Parked. -/
def execTcReturnToService (s : State) : Host.Outcome State Fault Refusal :=
  commit s (s.tcRun 6 (fun s t => (s.mot t).state == .outOfService && (s.mot t).oosCause == 1) fun s c t =>
    let s1 := ((s.tcWait c).rouse.modMot t fun m => { m with oosCause := 0 }).setTState t .relaxed
    (s1.brakesOff t).modMot t fun m => { m with starting := some .park })

/-- TC_RESET (R42): a moving transport stops first. -/
def execTcReset (x : ResetEnv) (s : State) : Host.Outcome State Fault Refusal :=
  commit s (s.tcRun 7 (fun s t => (s.mot t).state != .absent) fun s c t =>
    let s1 := (s.tcWait c).rouse.modLd t fun l => { l with resetting := true, env := x.load, disc := x.disc }
    match (s.mot t).state with
    | .streaming | .locating | .stopping => s1.orderStop t .reload
    | .loading | .unloading => s1.orderedStop t .reload
    | _ => s1.resetTp t)

/-- TC_EMERGENCY_STOP (R325): cause Emergency; it completes when STOP is sent. -/
def execTcEmergencyStop (s : State) : Host.Outcome State Fault Refusal :=
  commit s (s.tcRun 8 (fun s t => (s.mot t).state != .absent) fun s c t => (s.rouse.emergencyStop t 7).tcEnd c)

/-- Every admitted, unverified record of one volume is lost with CAUSE 3, and its unplaced stream given up. -/
def State.discardVol (s : State) (h : Nat) : State := (s.loseRecords h 3 true fun _ => true).modVol h fun w => w.dropStream

/-- TC_DISCARD_PENDING: the result counts the records. -/
def execTcDiscardPending (s : State) : Host.Outcome State Fault Refusal :=
  commit s (s.tcRun 9 (fun s t => (s.mot t).state == .outOfService) fun s c t =>
    let n := ((s.volsOf t).map fun p => (p.2.recs.filter fun r => r.seq.isSome).length).sum
    let s1 := s.each (s.volsOf t) fun s p => s.discardVol p.1
    s1.succeed c (s1.tcResult t false n))

/-- TC_REPLACED_MECHANISM (R233): the start/stop count is cleared. -/
def execTcReplacedMechanism (s : State) : Host.Outcome State Fault Refusal :=
  commit s (s.tcRun 10 (fun s t => (s.mot t).state == .unloaded) fun s c t =>
    ((s.modSachet fun x => { x with ss := Tab.set t 0 x.ss }).lifeCkpt).tcEnd c)

/-- CARTRIDGE_INSERTED (R284, R319, R333): NOTIFY 1; with AUTOLOAD an Unloaded transport loads, after a reset as well. -/
def execCartridgeInserted (t : Nat) (env : LoadEnv) (s : State) : Host.Outcome State Fault Refusal :=
  if !s.tpExists t then commit s s
  else
    let s1 := ((s.notified t).raise (evTp t 4)).modMot t fun m => { m with cartPresent := true }
    commit s ((if (s.mot t).state == .unloaded && (s.mot t).autoload && !(s.tp t).ld.resetting then s1.runLoad t env else s1).settle)

/-- CARTRIDGE_REMOVED (R284, R320): NOTIFY 2 ends the withdrawal of the latch; a load still owed goes with its cartridge. -/
def execCartridgeRemoved (t : Nat) (s : State) : Host.Outcome State Fault Refusal :=
  if !s.tpExists t then commit s s
  else
    let s1 := ((s.notified t).raise (evTp t 5)).modMot t fun m => { m with cartPresent := false }
    let s2 := if (s.mot t).state == .unloaded && (s.tp t).ld.env.isSome then s1.modLd t fun l => { l with env := none, resetting := false } else s1
    commit s ((s2.latchFree t).settle)

/-- UNLOAD_TIMER (R347): Relaxed for UNLOAD_S without interruption; in PS2 it ends the state (Table 16-6). -/
def execUnloadTimer (t : Nat) (dir : DirRead) (s : State) : Host.Outcome State Fault Refusal :=
  let lim := fld s.cfg.pwr1 31 16
  let m := s.mot t
  if s.tpExists t && m.state == .relaxed && m.starting.isNone && lim ≠ 0 && lim * 1000 ≤ m.idleMs then
    let s1 := if s.pm.state = 2 then s.wake 8 else s.rouse
    commit s ((s1.beginUnload t dir true).settle)
  else commit s s

end Sys2Proof.Machine
end

