-- ==== Sys2Proof/Machine/Motion.lean ====
section
/-! DEFINITION. The motion planner, the solenoid sequencer, bursts and excursions: SOL_RESTATE, PULLIN_END, BRAKE_FAULT,
SERVO_ACQUIRE_FAIL, TARGET_REACHED, STOP_COMPLETE, ENVELOPE_EXIT, TURNAROUND, BURST_START, BURST_STOP, EXCURSION_START, EXCURSION_END
(R121 to R123, R232, R313 to R318, R322, R328 to R330). -/

namespace Sys2Proof.Machine

/-! ### Solenoids (R322) -/

/-- SOL_RESTATE: the state in force is sent again. -/
def execSolRestate (t : Nat) (s : State) : Host.Outcome State Fault Refusal := commit s (if s.tpExists t then s.sendSol t else s)

/-- A pull-in ends: its solenoid is in hold, and the next waiting request starts after the gap. -/
def State.endPullin (s : State) (t : Nat) : State :=
  let s1 := (s.modSol t fun x => { x with pullin := none }).sendSol t
  match (s1.tp t).sol.wait with
  | k :: r => (s1.modSol t fun x => { x with wait := r }).solPullin t k
  | [] => s1

/-- PULLIN_END. -/
def execPullinEnd (t : Nat) (s : State) : Host.Outcome State Fault Refusal :=
  commit s (if (s.tp t).sol.pullin.isSome then s.endPullin t else s)

/-- BRAKE_FAULT: an energised brake in hold that SENSE does not report released: every solenoid drops, Out of Service. -/
def execBrakeFault (t brake : Nat) (s : State) : Host.Outcome State Fault Refusal :=
  let x := (s.tp t).sol
  if brake < 2 && x.energ.getLsbD brake && x.pullin != some brake && !x.solSt.getLsbD brake then
    let s1 := ((s.solRelease t [0, 1, 2]).modSol t fun x => { x with brakeFaults := wrapAdd x.brakeFaults 1 }).raise (evTp t 21)
    commit s ((if (s.mot t).state.moving then (s1.gateClose t 5).enterOos t 6 else s1.enterOos t 6).settle)
  else commit s s

/-! ### Servo acquisition (R317) -/

/-- SERVO_ACQUIRE_FAIL: the next attempt follows from the standby point; the third failure is Out of Service with cause Servo. -/
def execServoAcquireFail (t : Nat) (s : State) : Host.Outcome State Fault Refusal :=
  let m := s.mot t
  if (m.state == .streaming || m.state == .locating || m.state == .unloading) && m.vel != 0 && !m.servoAcquired then
    let n := max 1 m.attempts
    if 3 ≤ n then
      let s1 := (s.modMot t fun m => { m with attempts := 0 }).raise (evTp t 16)
      commit s ((if m.state == .unloading then s1.enterOos t 2 else s1.controlledStop t (.outOfService 2)).settle)
    else
      let s1 := (s.modMot t fun m => { m with attempts := n + 1, acquireRun := 0 }).modSlot t 0 fun z => { z with retries := n + 1 }
      commit s ((if m.state == .unloading then ((s1.gateClose t 5).cutWrites t).modMot t fun m => { m with vel := 0, target := none, x := s.standbyX t }
        else s1.controlledStop t .parked).settle)
  else commit s s

/-! ### Starts and stops of a burst (R232) -/

/-- BURST_START. -/
def execBurstStart (t : Nat) (s : State) : Host.Outcome State Fault Refusal :=
  let st := (s.mot t).state
  if (st == .parked || st == .relaxed) && s.startDue t && s.mayMove t && s.writable t && (s.cart? t).isSome then commit s ((s.beginWrite t).settle)
  else commit s s

/-- BURST_STOP: in burst mode, with P_t at most BSTOP, no Flush waiting and no retry due. -/
def execBurstStop (t : Nat) (s : State) : Host.Outcome State Fault Refusal :=
  let f := s.fmt t
  if (s.tp t).gov.burst && (s.mot t).state == .streaming && (s.mot t).exc.isNone && !f.closing && !s.flushWaits t &&
      decide (s.pendingOf t ≤ (s.trnCfg t).bstop * 1048576) && !f.sets.any (fun d => d.retryDue) then
    commit s ((s.orderStop t .parked).settle)
  else commit s s

/-! ### Excursions (R122, R123, R329) -/

/-- An Urgent read that becomes ready on the outbound leg takes the excursion's target; the target it replaces is pending (R329). -/
def State.replaceTarget (s : State) (t : Nat) (e : Excursion) : State :=
  match (s.waitingReads t).find? fun c => c.urgent && c.entry.op != 0x83 with
  | none => s
  | some c =>
    let carried := s.arb.cmds.filter fun x => e.cmds.contains x.id
    if s.headroomOk t (c :: carried) then
      let old := (s.mot t).target
      let g := { s.targetOf t c with speed := ((s.mot t).target.map fun g => g.speed).getD 20 }
      (((s.setStage c.id (.reading true)).aim t g).modMot t fun m =>
        { m with pendingTarget := old, exc := some { e with cmds := c.id :: e.cmds },
                 vel := if g.x < m.x then -s.locateVel t else s.locateVel t })
    else s

/-- EXCURSION_START: the next excursion, when the headroom covers it; the departure of one whose transport has finished its group; or an
Urgent read's on the outbound leg. -/
def execExcursionStart (t : Nat) (s : State) : Host.Outcome State Fault Refusal :=
  let m := s.mot t
  match m.exc with
  | some e =>
    if m.state == .streaming then
      commit s ((if (s.fmt t).done || !(s.tp t).gu.gate then
        (((s.gateClose t 5).cutWrites t).modFmt t fun f => { f with closing := false }).depart t e.cmds else s).settle)
    else if m.state == .locating && !e.atTarget then commit s ((s.replaceTarget t e).settle)
    else commit s s
  | none =>
    let st := m.state
    if (st == .parked || st == .relaxed || st == .streaming) && m.starting.isNone && s.mayMove t then
      match s.excursionReads t with
      | [] => commit s s
      | c :: r => commit s ((s.startExcursion t ((c :: r).map (·.id))).settle)
    else commit s s

/-- The tape stands at the read standby point: the Locate completes (R124). -/
def State.endLocate (s : State) (t : Nat) (e : Excursion) : State :=
  let s1 := s.each (s.cmdsWhere fun c => e.cmds.contains c.id) fun s c =>
    match s.vol? c.entry.vol with
    | some w => s.succeed c (mkw [(0, w.locateSeq c.entry % 2 ^ 48)])
    | none => s.fail c Status.cartridgeUnloaded
  (s1.modMot t fun m => { m with exc := none, vel := 0, target := none, pendingTarget := none }).setTState t .parked

/-- A read target is reached: its reads end, all that the excursion carries, or with a target pending the one that replaced it. -/
def State.reachRead (s : State) (t : Nat) (e : Excursion) (o : ReadOutcome) : State :=
  let now := match (s.mot t).pendingTarget with
    | some _ => e.cmds.take 1
    | none => e.cmds
  let s1 := now.foldl (fun s k => match s.arb.cmds.find? fun c => c.id == k with
    | some c => s.finishRead c o
    | none => s) s
  match (s.mot t).pendingTarget with
  | some g => (s1.aim t g).modMot t fun m => { m with
      pendingTarget := none, exc := some { e with cmds := e.cmds.drop 1 }
      vel := if g.x < m.x then -s.locateVel t else s.locateVel t }
  | none => s1.modMot t fun m => { m with target := none, exc := some { e with atTarget := true } }

/-- TP_RC_CFG and TP_RC_TARGET act from the separators that a read passes (R244). -/
def State.useSettings (s : State) (t : Nat) : State := s.modRc t fun r => { r with cfgUsed := r.cfg, targetUsed := r.target }

/-- TARGET_REACHED: the tape is at x_T, in its direction, at its speed. `o` is what a read meets there. -/
def execTargetReached (t : Nat) (o : ReadOutcome) (s : State) : Host.Outcome State Fault Refusal :=
  match (s.mot t).target with
  | none => commit s s
  | some g =>
    let here := s.modMot t fun m => { m with x := g.x, vel := if g.speed = 0 then 0 else (if g.dir then 1 else -1) * ((200 * g.speed : Nat) : Int) }
    match g.kind, (s.mot t).exc with
    | 1, some e => commit s (((here.useSettings t).reachRead t e o).settle)
    | 2, _ => commit s (((here.modFmt t fun f => { f with writing := true }).modMot t fun m => { m with target := none }).settle)
    | 3, some e => commit s ((here.endLocate t e).settle)
    | _, _ => commit s s

/-- EXCURSION_END: back at the append point: writing resumes where the transport was writing or a start is due, else it parks. -/
def execExcursionEnd (t : Nat) (s : State) : Host.Outcome State Fault Refusal :=
  match (s.mot t).exc with
  | none => commit s s
  | some e =>
    if e.atTarget && (s.mot t).state == .locating then
      let s1 := s.modMot t fun m => { m with exc := none, pendingTarget := none }
      if (e.resume || s1.startDue t) && s1.mayMove t && s1.writable t then
        let g := (s1.tp t).gov
        let i := if g.burst && !g.drain then 0 else min g.goal (s1.ceiling t)
        let s2 := s1.modGov t fun g => { g with speed := i }
        commit s ((((s2.aim t { x := s2.appendX t, dir := (s2.fmt t).wrap % 2 == 0, speed := decOf i, kind := 2 }).modMot t fun m =>
          { m with vel := wrapSign (s2.fmt t).wrap * velOf i }).setTState t .streaming).settle)
      else commit s ((s1.park t).settle)
    else commit s s

/-! ### Stops, turnarounds, the envelope -/

/-- STOP_COMPLETE: at rest: Parked, and off again for a servo attempt (R317); Out of Service; or on with a transport reset. -/
def execStopComplete (t : Nat) (s : State) : Host.Outcome State Fault Refusal :=
  let m := s.mot t
  if m.state == .stopping then
    match m.stopGoal with
    | .outOfService c => commit s ((s.enterOos t c).settle)
    | .reload => commit s ((s.resetTp t).settle)
    | .parked =>
      let s1 := s.park t
      commit s ((if 0 < m.attempts && s1.mayMove t && s1.writable t then s1.startWrite t else s1).settle)
  else commit s s

/-- ENVELOPE_EXIT (R318): x outside −11.5 m to 1,011.5 m in a state in which the planner moves the tape over data. -/
def execEnvelopeExit (t : Nat) (s : State) : Host.Outcome State Fault Refusal :=
  let m := s.mot t
  if m.state.usable && (m.x < -115000 || 10115000 < m.x) then commit s ((s.emergencyStop t 8).settle) else commit s s

/-- TURNAROUND (R316): at a wrap's end the tape stops in the guard, the coarse positioner steps to the next wrap, and the tape comes up to
speed in its direction; the transport stays Streaming. -/
def execTurnaround (t : Nat) (s : State) : Host.Outcome State Fault Refusal :=
  let m := s.mot t
  if (m.state == .streaming || m.state == .unloading) && (m.target.map fun g => g.kind) == some 4 then
    let s1 := if (s.fmt t).packWrap = (s.fmt t).wrap then s else s.toPackWrap t
    if (s1.fmt t).halted then commit s (((s1.modMot t fun m => { m with target := none }).controlledStop t .parked).settle)
    else
      let i := (s1.tp t).gov.speed
      commit s ((((s1.startMotion t).modMot t fun m =>
        { m with x := s1.appendX t, vel := wrapSign (s1.fmt t).wrap * velOf i, target := none,
                 servoAcquired := false }).modFmt t fun f => { f with writing := true }).settle)
  else commit s s

end Sys2Proof.Machine
end

