-- ==== Sys2Proof/Machine/PowerRows.lean ====
section
/-! DEFINITION. The 1 ms evaluation, epochs, commits and the device power states: PRESSURE_EVALUATION, EPOCH_BOUNDARY, SNAPSHOT_READY,
DIRECTORY_COMMIT, CRASH_SNAPSHOT, LIFE_CHECKPOINT, PS1_ENTRY, PS2_ENTRY, PS3_ENTRY, POWER_STATE_EXIT, POWER_STATE_EXIT_DONE, RELAX_TIMER,
SET_POWER_POLICY. -/

namespace Sys2Proof.Machine

/-! ### Conditions of Table 16-6 -/

/-- Relaxed with nothing under way, Unloaded, Out of Service or Absent. -/
def Motion.low (m : Motion) : Bool :=
  match m.state with
  | .relaxed => m.starting.isNone
  | .unloaded | .outOfService | .absent => true
  | _ => false

/-- PS1: every transport Parked or lower, no tape read, excursion or Verify Range waiting. -/
def State.ps1Cond (s : State) : Bool :=
  (s.tpList.all fun t => (s.mot t).exc.isNone && ((s.mot t).state == .parked || (s.mot t).low)) &&
    !s.arb.cmds.any fun c => match c.stage with
      | .reading _ => true
      | _ => false

/-- A volume with nothing left to cut, compress or seal. -/
def Volume.allSealed (w : Volume) : Bool := w.opn.isEmpty && w.blocks.all fun b => b.stage == .sealed

/-- PS2: every transport Relaxed or lower, no command fetched, no open block, no unsealed record. -/
def State.ps2Cond (s : State) : Bool :=
  (s.tpList.all fun t => (s.mot t).low) && s.arb.cmds.isEmpty && s.vols.all fun p => p.2.allSealed

/-- PS3: every transport Relaxed with UNLOAD_S 0, Unloaded, Out of Service or Absent. -/
def State.ps3Cond (s : State) : Bool :=
  s.tpList.all fun t => (s.mot t).low && ((s.mot t).state != .relaxed || fld s.cfg.pwr1 31 16 == 0)

/-! ### What the device draws (R359, Tables 17-3 and 17-4), in mW -/

/-- A lane that counts: Up, Quarantined or Rejoining. -/
def Lane.powered (l : Lane) : Bool := l.state == .up || l.state == .quarantined || l.state == .rejoining

/-- A transport that counts in full: Streaming, Locating or Stopping. -/
def Motion.powered (m : Motion) : Bool := m.state == .streaming || m.state == .locating || m.state == .stopping

/-- The sum of Table 17-3 for the configuration in force, with the base, lane and transport terms given. -/
def State.ps0Power (s : State) (base lane moving other : Nat) : Nat :=
  let n := (s.tpList.filter fun t => (s.mot t).powered).length
  base + lane * ((List.range 8).filter fun n => (s.ln n).powered).length + moving * n + other * (s.tpList.length - n)

/-- The most the device draws in its power state, of L lanes present (Table 17-4). -/
def State.powerMax (s : State) : Nat :=
  let l := ((List.range 8).filter s.lanePresent).length
  match s.pm.state with
  | 0 => s.ps0Power 7800 1350 1050 250
  | 1 => 2600 + 800 * l
  | 2 => 1100 + 300 * l
  | _ => 900

/-- The typical draw in PS0 (Table 17-3). -/
def State.ps0Typical (s : State) : Nat := s.ps0Power 5000 1000 750 150

/-! ### The clock of 1 ms -/

/-- One ms of a transport: its time in state, its idle time, and the time its channels are Out (Tables 16-4 and 12-6, R347). -/
def State.tickTp (s : State) (t : Nat) : State :=
  let m := s.mot t
  let s1 : State := match m.state with
    | .streaming => s.stat (stTp t 9) 1
    | .locating => s.stat (stTp t 10) 1
    | .parked => s.stat (stTp t 11) 1
    | .relaxed => s.stat (stTp t 12) 1
    | _ => s
  let idle := m.state == .parked || m.state == .relaxed
  let s2 := if idle then s1.modMot t fun m => { m with idleMs := m.idleMs + 1 } else s1
  if (s2.tp t).ld.cart.isSome then
    s2.modRc t fun r => { r with chans := r.chans.map fun p =>
      (p.1, if p.2.state == .inService then p.2 else { p.2 with outMs := p.2.outMs + 1 }) }
  else s2

/-- One ms of a lane whose receiver works: the symbols that its FEC corrected are counted (R262); no row brings how many (free). -/
def State.tickLane (s : State) (n : Nat) : State :=
  let st := (s.ln n).state
  if s.lanePresent n && st != .absent && st != .down then
    let k := s.free.toNat % 2 ^ 32
    (s.take.modLn n fun l => { l with corrected := l.corrected + BitVec.ofNat 32 k }).stat (stLane n 0) k
  else s

/-- The conditions of the entry to a state, from the one before it, but its idle time (R344, Table 16-6). -/
def State.entryOk (s : State) (k : Nat) : Bool :=
  s.pm.state + 1 == k && !s.pm.exiting && bit s.cfg.pwr0 (k - 1) && (match k with
    | 1 => s.on && s.image.loaded && s.ps1Cond
    | 2 => s.ps1Cond && s.ps2Cond
    | 3 => s.ps2Cond && s.ps3Cond
    | _ => false)

/-- The entry to a state is due: its conditions hold and have held for its idle time. -/
def State.entryDue (s : State) (k : Nat) : Bool :=
  s.entryOk k && (match k with
    | 1 => decide (fld s.cfg.pwr0 31 16 ≤ s.pm.idle1)
    | 2 => decide (fld s.cfg.pwr0 47 32 * 1000 ≤ s.pm.idle2)
    | _ => decide (fld s.cfg.pwr0 63 48 * 1000 ≤ s.pm.idle3))

/-- PRESSURE_EVALUATION (R153, R226 to R234): 1 ms passes: times in the power states, transports' times, symbols corrected (R262), idle intervals (R344), and each
transport's evaluation once the pools exist; replay that waits for segments is tried again (R166). -/
def execPressureEvaluation (s : State) : Host.Outcome State Fault Refusal :=
  if !s.on then commit s s
  else
    let p := s.pm.state
    let s1 := { s with msNow := s.msNow + 1 }.stat (stDev (12 + p)) 1000
    let s2 := (s1.each s1.tpList fun s t => s.tickTp t).each (List.range 8) fun s n => s.tickLane n
    let c1 := s2.ps1Cond
    let c2 := s2.ps2Cond && decide (1 ≤ p)
    let c3 := s2.ps3Cond && decide (2 ≤ p)
    let s3 := s2.modPm fun x =>
      { x with idle1 := if c1 then x.idle1 + 1 else 0, idle2 := if c2 then x.idle2 + 1 else 0, idle3 := if c3 then x.idle3 + 1 else 0
               cut := if s2.entryOk (p + 1) then x.cut else none }
    commit s (if 0 < s3.bm.segTotal && p < 3 then (s3.each s3.tpList fun s t => s.evaluate t).replayAll else s3)

/-- RELAX_TIMER (R347): a transport Parked for RELAX_S without interruption goes to Relaxed, unless a burst start is due. -/
def execRelaxTimer (t : Nat) (s : State) : Host.Outcome State Fault Refusal :=
  let m := s.mot t
  let lim := fld s.cfg.pwr1 15 0
  let due := s.startDue t && s.mayMove t && s.writable t && (s.tp t).gov.burst
  if s.tpExists t && m.state == .parked && lim ≠ 0 && lim * 1000 ≤ m.idleMs && !due then commit s ((s.relax t).settle) else commit s s

/-! ### Epochs (R340 to R343) -/

/-- LOAD of each core is its share of the epoch, in 0.01 % of 800 CK_CTL cycles a microsecond (Table 14-9). -/
def latchLoads (us : Nat) (m : Tab Core) : Tab Core :=
  m.map fun p => (p.1, { p.2 with load := BitVec.ofNat 16 (min 65535 (p.2.busy * 10000 / (us * 800))), busy := 0 })

/-- EPOCH_BOUNDARY (R341): the counters latch and restart; `us` is the CK_AO time, not before EPOCH_MS has
run. None falls in PS3, or before IMAGE. -/
def execEpochBoundary (us : Nat) (s : State) : Host.Outcome State Fault Refusal :=
  if !s.on || !s.image.loaded || s.pm.state = 3 || s.stats.holding.isSome || us < s.stats.openUs + s.stats.epochMs * 1000 then commit s s
  else
    let x := s.stats
    let len := us - x.openUs
    let counted := ((List.range 4).map fun k => Tab.get 0 x.counters (stDev (12 + k))).sum
    let s1 := s.stat (stDev (12 + s.pm.state)) (len - counted)
    let snap : Snapshot :=
      { epoch := x.epoch, startUs := x.openUs, lengthUs := len, epochMs := x.epochMs, psSeen := x.psSeen, counters := s1.stats.counters }
    commit s ((s1.modStats fun y =>
      { y with holding := some snap, counters := [], psSeen := 2 ^ s.pm.state, boundUs := us, openUs := us, epochMs := y.nextMs }).modCores (latchLoads len))

/-- A tenant with EN whose readable snapshot is replaced unread (R343). -/
def State.snapMissed (s : State) (u : Nat) : State :=
  let x := s.tn u
  if s.stats.snap.isSome && x.cfgEn && !x.snapRead then
    let s1 := s.modTn u fun x => { x with snapLost := x.snapLost + 1 }
    if u = 0 then (s1.modStats fun y => { y with missed := wrapAdd y.missed 1 }).raise evSnapshotMissed else s1
  else s

/-- SNAPSHOT_READY (R341, R343): the banks swap, the epoch number advances, Epoch Boundary is raised. -/
def execSnapshotReady (s : State) : Host.Outcome State Fault Refusal :=
  match s.stats.holding with
  | none => commit s s
  | some h =>
    let s1 := s.each (List.range 16) fun s u => (s.snapMissed u).modTn u fun x => { x with snapRead := false }
    commit s ((s1.modStats fun y => { y with snap := some h, holding := none, epoch := y.epoch + 1 }).raise evEpochBoundary)

/-! ### Commits to Sachet -/

/-- DIRECTORY_COMMIT (R165): every directory change not yet committed is. -/
def execDirectoryCommit (s : State) : Host.Outcome State Fault Refusal := commit s (if s.ready rdSACHET then s.commitDirs else s)

/-- CRASH_SNAPSHOT (R161): after 2^16 journal entries a snapshot of REASON 0 compacts the journal. -/
def execCrashSnapshot (s : State) : Host.Outcome State Fault Refusal :=
  commit s (if s.ready rdSACHET && 65536 ≤ s.sachet.journal.length then s.snapshot 0 else s)

/-- LIFE_CHECKPOINT (R387): once a second. -/
def execLifeCheckpoint (s : State) : Host.Outcome State Fault Refusal := commit s (if s.ready rdSACHET then s.lifeCkpt else s)

/-! ### Device power states (R344, R345, R350, R385) -/

/-- The device state changes: Power State is raised, and the epoch has seen the state (R346, Table 16-5). -/
def State.setPower (s : State) (k : Nat) : State :=
  let s1 := s.raise evPowerState
  (s1.modPm fun p => { p with state := k }).modStats fun x => { x with psSeen := x.psSeen ||| 2 ^ k }

/-- The triggers of a state's row in Table 16-6, and a policy that disables the state (R346). -/
def wakeValid (state : Nat) (cause : WakeCause) : Bool :=
  match state, cause with
  | 1, .transportRequest | 1, .policy => true
  | 2, .doorbell | 2, .wakeWrite | 2, .notify | 2, .idleTimer | 2, .tamper | 2, .policy => true
  | 3, .tlp | 3, .perst | 3, .wakeWrite | 3, .tamper => true
  | _, _ => false

/-- LAST_WAKE of a trigger (Table 16-15). -/
def wakeCode : WakeCause → Nat
  | .doorbell => 1 | .wakeWrite => 2 | .tlp => 3 | .transportRequest => 4 | .notify => 5 | .tamper => 6 | .policy => 7
  | .idleTimer => 8 | .perst => 9

/-- The entry to state `k` ends: the state is in force, or, where a trigger of it arrived during the entry, the device is on its way back to PS0
(R350). -/
def State.enterPower (s : State) (k : Nat) : State :=
  match s.pm.cut with
  | none => s.setPower k
  | some c => s.modPm fun p => { p with exiting := true, lastWake := wakeCode c, cut := none }

/-- PS1_ENTRY (R344, R350). -/
def execPs1Entry (s : State) : Host.Outcome State Fault Refusal := commit s (if s.entryDue 1 then s.enterPower 1 else s)

/-- PS2_ENTRY (R344, R350). -/
def execPs2Entry (s : State) : Host.Outcome State Fault Refusal := commit s (if s.entryDue 2 then s.enterPower 2 else s)

/-- The lanes that come back after PS3: those not held Down and without a mismatch. -/
def State.lanesAfterPs3 (s : State) : List Nat :=
  (List.range 8).filter fun n => s.lanePresent n && !(s.ln n).mismatch && !((s.ln n).held && (s.ln n).state == .down)

/-- The steps of the entry to PS3 (R345): directory deltas to Sachet; a snapshot with REASON 6; then the lanes power down, every LANE and
TRANSPORT bit clears and CLKREQ_N is released. -/
def State.ps3Step (s : State) (k : Nat) : State :=
  match k with
  | 1 => if s.ready rdSACHET then s.commitDirs else s
  | 2 => if s.ready rdSACHET then (s.snapshot 6).lifeCkpt else s
  | _ =>
    let s2 := s.each ((List.range 8).filter s.lanePresent) fun s n =>
      (s.modLn n fun l => { l with state := .down, trained := false, feReady := false, locked := false, proposing := false }).setReady (rdLANE n) false
    let s3 := s2.each (List.range 8) fun s t => s.setTpReady t false
    ((s3.modPm fun p => { p with lanesBack := s.lanesAfterPs3, transportsBack := s.tpList }).modPins fun p => { p with clkreqN := true }).emit
      (.clkreqN true)

/-- PS3_ENTRY (R344, R345, R350): the three steps, or, where a trigger arrived during the entry, those that were done, a free number. -/
def execPs3Entry (s : State) : Host.Outcome State Fault Refusal :=
  if s.entryDue 3 then
    match s.pm.cut with
    | none => commit s (((List.range' 1 3).foldl State.ps3Step s).enterPower 3)
    | some _ => commit s (((List.range' 1 (s.free.toNat % 3)).foldl State.ps3Step s.take).enterPower 3)
  else commit s s

/-- POWER_STATE_EXIT (R344): a trigger of the state's row begins the exit; one of the next state's row, while the entry to it is due, arrives
during that entry (R350). -/
def execPowerStateExit (cause : WakeCause) (s : State) : Host.Outcome State Fault Refusal :=
  let k := s.pm.state
  commit s (if wakeValid k cause then s.wake (wakeCode cause)
    else if s.entryDue (k + 1) && wakeValid (k + 1) cause then s.modPm fun p => { p with cut := some cause } else s)

/-- After PS3 the clock request returns, WAKE_N rises and the lanes train (R345). -/
def State.leavePs3 (s : State) : State :=
  let s1 := (s.modPins fun p => { p with clkreqN := false }).emit (.clkreqN false)
  let s2 := if s.pins.wakeN then s1 else (s1.modPins fun p => { p with wakeN := true }).emit (.wakeN true)
  s2.each s2.pm.lanesBack fun s n => s.trainStart n

/-- POWER_STATE_EXIT_DONE (R344, R345, R350, R385): PS0, with Power State raised where the state changes; where the lanes were powered down
they train, and the occurrences held in the always-on domain are counted, with their Tamper entries. The idle intervals run afresh. -/
def execPowerStateExitDone (s : State) : Host.Outcome State Fault Refusal :=
  if !s.pm.exiting then commit s s
  else
    let s1 := if s.pm.state = 3 || s.pins.clkreqN then s.leavePs3 else s
    let held := s1.pm.held
    let pins := s1.gpio.held
    let s2 := s1.modPm fun p => { p with state := 0, exiting := false, idle1 := 0, idle2 := 0, idle3 := 0, lanesBack := [], held := [], cut := none }
    let s2 := if s.pm.state = 0 then s2 else s2.setPower 0
    let s3 := s2.each held fun s e => s.raise e
    commit s (((s3.modGpio fun g => { g with held := [] }).each pins fun s n => s.tamperEffects n).settle)

/-- SET_POWER_POLICY (R346): PWR W0 and W1 in force are replaced; disabling the state in force begins its exit. -/
def execSetPowerPolicy (s : State) : Host.Outcome State Fault Refusal :=
  commit s (s.run (s.adminCmd 0 0x30) fun c =>
    let e := c.entry
    if !(e.headOk false false && e.noData && zeros [e.w4, e.w7] && pwrOk e.w5 e.w6) then s.fail c Status.invalidField
    else
      let s1 := (s.modImage fun i => { i with cfg := { i.cfg with pwr0 := e.w5, pwr1 := e.w6 } }).succeed c
      if s1.pm.state ≠ 0 && !bit e.w5 (s1.pm.state - 1) then s1.wake 7 else s1)

end Sys2Proof.Machine
end

