-- ==== Sys2Proof/Machine/Resets.lean ====
section
/-! DEFINITION. Resets, supplies, clocks and the power-fail pin: POR_N_ASSERT, POR_N_RELEASE, SUPPLY_MONITOR_RESET,
SUPPLY_MONITOR_RELEASE, PERST_N_FALL, PERST_N_RISE, CTL_CORE_WARM_RESET, POWER_FAIL, CLOCK_LOSS, CRYSTAL_STOP. -/

namespace Sys2Proof.Machine

/-- POR_N_ASSERT (R6, R29, R37): the cold reset, whatever runs. -/
def execPorNAssert (s : State) : Host.Outcome State Fault Refusal :=
  commit s ((porReset s).modPins fun p => { p with porN := false })

/-- POR_N_RELEASE (R14, R40): the straps are sampled and bring-up starts; LAST_RESET reads 0. With POR_N high there is no
edge. -/
def execPorNRelease (straps : BitVec 3) (s : State) : Host.Outcome State Fault Refusal :=
  if s.pins.porN then commit s s
  else commit s ((s.modPins fun p => { p with porN := true, straps := straps, clkreqN := false }).modDev fun d => { d with lastReset := 0, releaseMs := s.msNow })

/-- The monitor level of a rail in mV (R357). -/
def monitorLevel : Rail → Nat
  | .vddio => 1620
  | .vddc => 700
  | .vddm => 740

/-- SUPPLY_MONITOR_RESET (R357): a rail below its level for 2 µs acts as POR_N; the straps keep their sample (R14). -/
def execSupplyMonitorReset (rail : Rail) (mv us : Nat) (s : State) : Host.Outcome State Fault Refusal :=
  if mv < monitorLevel rail && 2 ≤ us then
    commit s ((porReset s).modPins fun p => { p with monitorReset := true, straps := s.pins.straps })
  else commit s s

/-- SUPPLY_MONITOR_RELEASE (R357): 2 ms after the rails are back and POR_N is high the monitor lets go; LAST_RESET reads 0. -/
def execSupplyMonitorRelease (s : State) : Host.Outcome State Fault Refusal :=
  if s.pins.porN && s.pins.monitorReset then
    commit s ((s.modPins fun p => { p with monitorReset := false, clkreqN := false }).modDev fun d => { d with lastReset := 0, releaseMs := s.msNow })
  else commit s s

/-- PERST_N_FALL (R38, R28, R29, R50): the falling edge clears HOST and ends a WAKE_N pulse (R345); once low for 200 ns, and after
POR_N has risen, the part quiesces, or finishes the sequence that runs, and takes the warm reset, whose FIFO resynchronisations discard
the words given (R36); epoch 0 opens at its end (R341). In PS3 the fall is a trigger of the exit. A fall after a power-loss sequence reads LAST_RESET 2. With `upTo` below 4 the row ends within the sequence, which only
POR_N, or this row again, takes further. -/
def execPerstNFall (p : PerstLow) (s : State) : Host.Outcome State Fault Refusal :=
  if !s.pins.perstN && (s.dev.quiesced ≠ 4 || 4 ≤ s.dev.qstep) then commit s s
  else
    let s0 := if s.pm.state = 3 then s.wake 9 else s
    let s1 := (s0.modPins fun p => { p with perstN := false, wakeN := true }).setReady rdHOST false
    if s.on && 200 ≤ p.ns then
      let s2 := s1.quiesceTo (if s.dev.quiesced = 0 then 4 else s.dev.quiesced) p.upTo
      commit s (if s2.dev.qstep < 4 then s2 else ((warmReset s2 (if s.dev.quiesced = 3 then 2 else 1)).modStats fun x => { x with openUs := p.us }).discards p.disc)
    else commit s s1

/-- PERST_N_RISE (R40, R41, R44): the endpoint and the queue engine leave reset; HOST sets where the early block is in force. -/
def execPerstNRise (s : State) : Host.Outcome State Fault Refusal :=
  if s.pins.perstN then commit s s
  else
    let s1 := s.modPins fun p => { p with perstN := true, clkreqN := if s.on then false else p.clkreqN }
    commit s (if s.on && s.earlyDone then s1.hostUp else s1)

/-- CTL_CORE_WARM_RESET (R39): a held core resets once its transports stand under their brakes, or after 3 s. -/
def execCtlCoreWarmReset (c : Nat) (after3s : Bool) (s : State) : Host.Outcome State Fault Refusal :=
  if c < 4 && s.dev.ctlPending.getLsbD c && (after3s || s.coreAtRest c) then commit s (s.coreReset c) else commit s s

/-- POWER_FAIL (R28, R29, R162, R164, R351): PFAIL_N low for 200 ns runs the power-loss sequence with REASON 3, which raises Power
Fail; a part already quiesced stays as it is. With `upTo` below 4 the row ends within the sequence: POR_N ends it there, or this row
again takes it further. -/
def execPowerFail (p : PfailLow) (s : State) : Host.Outcome State Fault Refusal :=
  if s.on && 200 ≤ p.ns && (s.dev.quiesced == 0 || (s.dev.quiesced == 3 && decide (s.dev.qstep < 4))) then
    commit s ((s.quiesceTo 3 p.upTo).settle)
  else commit s s

/-- CLK_ID of a clock (Table 07-8). -/
def clkIdOf : Clk → Nat
  | .nv => 1 | .core => 2 | .ctl => 3 | .dsp => 4 | .pcie => 5 | .mem => 6
  | .lane _ => 0

/-- The readiness bits of the units that a clock serves (Table 03-1). -/
def clkUnits : Nat → List Nat
  | 1 => [rdSACHET]
  | 2 => [rdBUFFER, rdCODEC, rdSEAL]
  | 3 => (List.range 4).map rdCE
  | 5 => [rdHOST]
  | 6 => [rdBUFFER]
  | _ => []

/-- Clocks other than a lane's are lost, `k` first: DV_FATAL.CLOCK with CLK_ID (R31, R145); the first one stands. The readiness bits of
the units they serve clear (Table 03-1). -/
def State.clockFatal (s : State) (k : Nat) (ks : List Nat) : State :=
  ((s.modDev fun d => { d with clkId := if d.clkId = 0 then k else d.clkId,
                               lostClks := ks.foldl (fun b j => setBit b j true) d.lostClks }).deviceFatal 0 (ks.flatMap clkUnits))

/-- CLOCK_LOSS (R31): the loss of a lane clock is the loss of that lane (R275); any other is a device fatal error. -/
def execClockLoss (clk : Clk) (s : State) : Host.Outcome State Fault Refusal :=
  if !s.on then commit s s
  else match clk with
    | .lane n => commit s (if s.lanePresent n then (s.failLane n).settle else s)
    | k => commit s ((s.clockFatal (clkIdOf k) [clkIdOf k]).settle)

/-- CRYSTAL_STOP (R368): after 10 µs CK_AO runs from the backup, the PLLs of the crystal are lost, and CLK_ID names the first,
which the spec leaves open among the five (a free value). In PS3 the part wakes to report it (WAKE_N). -/
def execCrystalStop (us : Nat) (s : State) : Host.Outcome State Fault Refusal :=
  if s.on && 10 ≤ us then
    let k := [1, 2, 3, 4, 6].getD (s.free.toNat % 5) 1
    let s1 := if s.pm.state = 3 then (s.modPins fun p => { p with wakeN := false }).modPm fun p => { p with exiting := true } else s
    commit s (((s1.take.modPins fun p => { p with backup := true }).clockFatal k [1, 2, 3, 4, 6]).settle)
  else commit s s

end Sys2Proof.Machine
end

