-- ==== Sys2Proof/Machine/Tape.lean ====
section
/-! DEFINITION. DATASET_CLOSE, INTERVAL_START, ROW_STATUS (R198, R206, R245). -/

namespace Sys2Proof.Machine

/-- A Flush waits on a volume whose whole stream stands in datasets, or a write stop is under way: the dataset being filled closes early. -/
def State.closeEarly (s : State) (t : Nat) : Bool :=
  (s.fmt t).closing || (s.mot t).state == .unloading ||
    (s.volsOf t).any fun p => p.2.allPlaced && s.arb.cmds.any fun c => c.entry.vol == p.1 && (match c.stage with
      | .flushing _ => true
      | _ => false)

/-- DATASET_CLOSE (R198): a dataset closes when its user area is full, for a Flush, or before the append point stops. -/
def execDatasetClose (t : Nat) (s : State) : Host.Outcome State Fault Refusal :=
  match (s.fmt t).fill with
  | none => commit s s
  | some f =>
    if f.regions.any (fun r => s.userRoom t f r.vidx == 0) || s.closeEarly t then commit s ((s.closeDataset t).settle) else commit s s

/-- INTERVAL_START: at a separator of a transport that writes. With the gate closed it is asked to open there (R303); with it open the interval
is written. -/
def execIntervalStart (t : Nat) (s : State) : Host.Outcome State Fault Refusal :=
  let m := s.mot t
  if (m.state == .streaming || m.state == .unloading) && m.vel != 0 && (s.fmt t).writing && !(s.upLanes t).isEmpty && s.dev.quiesced == 0 then
    if (s.tp t).gu.gate then commit s ((s.separatorStep t).settle) else commit s ((s.requestGate t (s.tp t).link.wbi).settle)
  else commit s s

/-- ROW_STATUS: the read channel reports a row unit of an interval; a directory row moves the channel's figures only. -/
def execRowStatus (t : Nat) (r : RowReport) (s : State) : Host.Outcome State Fault Refusal :=
  if 32 ≤ r.track then commit s s
  else match r.kind with
    | .directory gpos sub row => commit s ((s.directoryRow t r gpos sub row).settle)
    | .probe =>
      match (s.fmt t).intervals.find? fun i => i.ord == r.interval && !i.tmask.getLsbD r.track with
      | some i => commit s ((s.probeRow t i r).settle)
      | none => commit s s
    | .data dsn sub row =>
      match (s.fmt t).intervals.find? fun i => i.ord == r.interval && decide (sub < 32) && decide (row < 104) with
      | some i => commit s ((s.dataRow t i r dsn sub row).settle)
      | none => commit s s

end Sys2Proof.Machine
end

