-- ==== Sys2Proof/Machine/Volumes.lean ====
section
/-! DEFINITION. Volumes and keys: CREATE_VOLUME, DELETE_VOLUME, SET_VOLUME_HOLD, LOAD_KEY, CLEAR_KEY (R107 to R114). -/

namespace Sys2Proof.Machine

/-- UUID of W5 and W6, W5 byte 0 first (R1). -/
def uuidOf (w5 w6 : Word) : BitVec 128 := BitVec.ofNat 128 (w5.toNat + w6.toNat * 2 ^ 64)

/-- The KCV of a key (R113). -/
def keyCheck (key : Bytes) (uuid : BitVec 128) : Word := wordAt (sha256 (key ++ uuidBytes uuid)) 0

/-- The lowest free handle (R107). -/
def State.freeHandle (s : State) : Option Nat := (List.range' 1 1023).find? fun h => !Tab.has s.vols h

/-- A volume comes online under a handle: committed with its snapshot before the command completes (R107, R161). -/
def State.bringOnline (s : State) (c : Cmd) (h t vidx : Nat) (d : DirVolume) : State :=
  let s1 := s.setVol h (s.onlineVolume t vidx d)
  let s2 := ((s1.commitDir t).snapshot 1).replayCheck h
  (State.tryReplay (((s2.vol? h).map fun w => w.replay.length).getD 0) h s2).succeed c (mkw [(0, h)])

/-- CREATE_VOLUME (R107, R108); the create-only fields are ignored with OPEN 1, and a volume already online is not opened again. -/
def execCreateVolume (u : Nat) (s : State) : Host.Outcome State Fault Refusal :=
  commit s (s.run (s.adminCmd u 0x10) fun c =>
    let e := c.entry
    let t := fld e.w4 7 0
    let opn := bit e.w4 8
    let ok := e.headOk false false && e.noData && fld e.w4 15 11 == 0 && fld e.w4 63 32 == 0 && e.w7 == 0 && (e.w5 != 0 || e.w6 != 0) &&
      s.tpExists t && (opn || decide (fld e.w4 31 16 ≤ 3650))
    let d := s.dir t
    let uuid := uuidOf e.w5 e.w6
    let found := dirFind d uuid
    let slot := (List.range 64).find? fun k => !(Tab.get default d.vols k).used
    if !ok then s.fail c Status.invalidField
    else if (s.tp t).ld.dirUnreadable then s.complete c Status.directoryUnreadable { detail := BitVec.ofNat 64 t }
    else match s.freeHandle with
      | none => s.fail c Status.volumeLimit
      | some h =>
        if (s.tenCfg u).maxVol ≤ (s.volsOfTenant u).length || slot.isNone then s.fail c Status.volumeLimit
        else if opn then
          match found with
          | none => s.fail c Status.invalidVolume
          | some (k, v) =>
            if v.deleted || v.tenant ≠ u || (s.volAt t k).isSome then s.fail c Status.invalidVolume
            else s.bringOnline c h t k v
        else if found.isSome then s.fail c Status.volumeExists
        else
          let v : DirVolume :=
            { (default : DirVolume) with uuid := uuid, tenant := u, encrypt := bit e.w4 9, strict := bit e.w4 10, used := true,
                                         retention := fld e.w4 31 16, nextSeq := 1, h := chainStart uuid }
          (s.modDir t fun d => { d with vols := Tab.set (slot.getD 0) v d.vols }).bringOnline c h t (slot.getD 0) v)

/-- The earlier fetched commands that name a volume. -/
def State.earlier (s : State) (c : Cmd) : List Nat :=
  (s.arb.cmds.filter fun x => decide (x.id < c.id) && x.entry.vol == c.entry.vol && x.q != 0).map (·.id)

/-- DELETE_VOLUME (R109); on an encrypted volume that never had a key, as every command (R114), it completes with Key Not Loaded. -/
def execDeleteVolume (u : Nat) (s : State) : Host.Outcome State Fault Refusal :=
  commit s (s.run (s.adminCmd u 0x11) fun c =>
    let e := c.entry
    if !(e.headOk false true && e.noData && zeros [e.w4, e.w5, e.w6, e.w7]) then s.fail c Status.invalidField
    else match s.ownVol c with
      | none => s.fail c Status.invalidVolume
      | some w =>
        if w.encrypt && w.kcv == 0 then s.fail c Status.keyNotLoaded
        else if w.hold then s.fail c Status.volumeHeld
        else ((s.setVol e.vol { w with deleting := some c.id, report := none }).setStage c.id (.waitingFor (s.earlier c))).settle)

/-- SET_VOLUME_HOLD (R111): committed to Sachet before it completes; Key Not Loaded on an encrypted volume that never had a key (R114). -/
def execSetVolumeHold (u : Nat) (s : State) : Host.Outcome State Fault Refusal :=
  commit s (s.run (s.adminCmd u 0x12) fun c =>
    let e := c.entry
    if !(e.headOk false true && e.noData && fld e.w4 63 1 == 0 && zeros [e.w5, e.w6, e.w7]) then s.fail c Status.invalidField
    else match s.ownVol c with
      | none => s.fail c Status.invalidVolume
      | some w =>
        if w.encrypt && w.kcv == 0 then s.fail c Status.keyNotLoaded
        else ((((s.setVol e.vol { w with hold := bit e.w4 0 }).syncDir e.vol).commitDir w.transport).tryResume w.transport).succeed c)

/-- Key slots of a tenant that hold a key. -/
def State.keysUsed (s : State) (u : Nat) : Nat := ((s.volsOfTenant u).filter fun p => p.2.key.isSome).length

/-- LOAD_KEY (R113): the first key's KCV is recorded and committed; replay that waited for the key starts (R166). -/
def execLoadKey (u : Nat) (h : HostData) (s : State) : Host.Outcome State Fault Refusal :=
  commit s (s.run (s.adminCmd u 0x18) fun c =>
    let e := c.entry
    if !(e.headOk false true && e.dtype == 1 && e.len == 32 && zeros [e.w4, e.w5, e.w6, e.w7]) then s.fail c Status.invalidField
    else match s.ownVol c with
      | none => s.fail c Status.invalidVolume
      | some w =>
        let key := hostBytes e h
        let kcv := keyCheck key w.uuid
        if !w.encrypt then s.fail c Status.invalidField
        else match w.key with
          | some k => s.fail c (if k = key then Status.success else Status.keyMismatch)
          | none =>
            if (s.tenCfg u).keySlots ≤ s.keysUsed u then s.fail c Status.keySlotLimit
            else if w.kcv ≠ 0 && w.kcv ≠ kcv then s.fail c Status.keyMismatch
            else
              let s1 := s.setVol e.vol { w with key := some key, kcv := kcv, clearing := none }
              let s2 := if w.kcv = 0 then (s1.syncDir e.vol).commitDir w.transport else s1
              ((State.tryReplay w.replay.length e.vol s2).succeed c).settle)

/-- CLEAR_KEY (R114, R184): it waits for the volume's earlier commands, seals its records, zeroises the slot. -/
def execClearKey (u : Nat) (s : State) : Host.Outcome State Fault Refusal :=
  commit s (s.run (s.adminCmd u 0x19) fun c =>
    let e := c.entry
    if !(e.headOk false true && e.noData && zeros [e.w4, e.w5, e.w6, e.w7]) then s.fail c Status.invalidField
    else match s.ownVol c with
      | none => s.fail c Status.invalidVolume
      | some w =>
        if !w.encrypt then s.fail c Status.invalidField
        else if w.kcv = 0 then s.fail c Status.keyNotLoaded
        else ((s.setVol e.vol { w with clearing := some c.id }).setStage c.id (.waitingFor (s.earlier c))).settle)

end Sys2Proof.Machine
end

