-- ==== Sys2Proof/Machine/Dispatch.lean ====
section
/-! DEFINITION. One arm per command: the meaning it calls. -/

namespace Sys2Proof.Machine

def exec (i : Instr) (s : State) : Host.Outcome State Fault Refusal :=
  match i with
  | .porNAssert => Sys2Proof.Machine.execPorNAssert s
  | .porNRelease straps => Sys2Proof.Machine.execPorNRelease straps s
  | .supplyMonitorReset rail mv us => Sys2Proof.Machine.execSupplyMonitorReset rail mv us s
  | .perstNFall p => Sys2Proof.Machine.execPerstNFall p s
  | .ctlCoreWarmReset c after3s => Sys2Proof.Machine.execCtlCoreWarmReset c after3s s
  | .perstNRise => Sys2Proof.Machine.execPerstNRise s
  | .configRequest fn op => Sys2Proof.Machine.execConfigRequest fn op s
  | .powerFail p => Sys2Proof.Machine.execPowerFail p s
  | .clockLoss clk => Sys2Proof.Machine.execClockLoss clk s
  | .crystalStop us => Sys2Proof.Machine.execCrystalStop us s
  | .dieTempMeasure sensors rails => Sys2Proof.Machine.execDieTempMeasure sensors rails s
  | .gpioInputChange pin level heldMs => Sys2Proof.Machine.execGpioInputChange pin level heldMs s
  | .tamper pin => Sys2Proof.Machine.execTamper pin s
  | .earlyBlockLoaded fails => Sys2Proof.Machine.execEarlyBlockLoaded fails s
  | .imageLoadComplete fails => Sys2Proof.Machine.execImageLoadComplete fails s
  | .sachetMounted m => Sys2Proof.Machine.execSachetMounted m s
  | .bufferInitDone trained => Sys2Proof.Machine.execBufferInitDone trained s
  | .unitSelfTestDone unit pass => Sys2Proof.Machine.execUnitSelfTestDone unit pass s
  | .tqCfgEnable u => Sys2Proof.Machine.execTqCfgEnable u s
  | .tqCfgDisable u => Sys2Proof.Machine.execTqCfgDisable u s
  | .sqTailDoorbell u q value entries => Sys2Proof.Machine.execSqTailDoorbell u q value entries s
  | .cqHeadDoorbell u q value => Sys2Proof.Machine.execCqHeadDoorbell u q value s
  | .arbitrationDecision a => Sys2Proof.Machine.execArbitrationDecision a s
  | .ringAccessError u q err => Sys2Proof.Machine.execRingAccessError u q err s
  | .hostDataError u q err addr => Sys2Proof.Machine.execHostDataError u q err addr s
  | .cqAggTimer u q => Sys2Proof.Machine.execCqAggTimer u q s
  | .allocatorDecision => Sys2Proof.Machine.execAllocatorDecision s
  | .identify u h => Sys2Proof.Machine.execIdentify u h s
  | .createQueuePair u => Sys2Proof.Machine.execCreateQueuePair u s
  | .deleteQueuePair u => Sys2Proof.Machine.execDeleteQueuePair u s
  | .setQueueClass u => Sys2Proof.Machine.execSetQueueClass u s
  | .getLog u h => Sys2Proof.Machine.execGetLog u h s
  | .setFeatures u => Sys2Proof.Machine.execSetFeatures u s
  | .getFeatures u => Sys2Proof.Machine.execGetFeatures u s
  | .restartQueues u => Sys2Proof.Machine.execRestartQueues u s
  | .createVolume u => Sys2Proof.Machine.execCreateVolume u s
  | .deleteVolume u => Sys2Proof.Machine.execDeleteVolume u s
  | .setVolumeHold u => Sys2Proof.Machine.execSetVolumeHold u s
  | .loadKey u h => Sys2Proof.Machine.execLoadKey u h s
  | .clearKey u => Sys2Proof.Machine.execClearKey u s
  | .tcQuery => Sys2Proof.Machine.execTcQuery s
  | .tcLoad env => Sys2Proof.Machine.execTcLoad env s
  | .loadStepTimeout t => Sys2Proof.Machine.execLoadStepTimeout t s
  | .scanComplete t => Sys2Proof.Machine.execScanComplete t s
  | .tcUnload x => Sys2Proof.Machine.execTcUnload x s
  | .latchRelease t => Sys2Proof.Machine.execLatchRelease t s
  | .tcPark => Sys2Proof.Machine.execTcPark s
  | .tcRelax => Sys2Proof.Machine.execTcRelax s
  | .tcOutOfService => Sys2Proof.Machine.execTcOutOfService s
  | .tcReturnToService => Sys2Proof.Machine.execTcReturnToService s
  | .tcReset x => Sys2Proof.Machine.execTcReset x s
  | .tcEmergencyStop => Sys2Proof.Machine.execTcEmergencyStop s
  | .tcDiscardPending => Sys2Proof.Machine.execTcDiscardPending s
  | .tcReplacedMechanism => Sys2Proof.Machine.execTcReplacedMechanism s
  | .lsQuery => Sys2Proof.Machine.execLsQuery s
  | .lsQuarantine => Sys2Proof.Machine.execLsQuarantine s
  | .lsQuarantineHeld => Sys2Proof.Machine.execLsQuarantineHeld s
  | .lsRelease => Sys2Proof.Machine.execLsRelease s
  | .lsReset => Sys2Proof.Machine.execLsReset s
  | .csQuery => Sys2Proof.Machine.execCsQuery s
  | .csTakeOut => Sys2Proof.Machine.execCsTakeOut s
  | .csReturn => Sys2Proof.Machine.execCsReturn s
  | .csResetAdaptation => Sys2Proof.Machine.execCsResetAdaptation s
  | .imageWrite x => Sys2Proof.Machine.execImageWrite x s
  | .imageActivate fails => Sys2Proof.Machine.execImageActivate fails s
  | .setPowerPolicy => Sys2Proof.Machine.execSetPowerPolicy s
  | .writeRecords u q h => Sys2Proof.Machine.execWriteRecords u q h s
  | .readRecords u q h => Sys2Proof.Machine.execReadRecords u q h s
  | .locate u q => Sys2Proof.Machine.execLocate u q s
  | .writeMark u q => Sys2Proof.Machine.execWriteMark u q s
  | .flush u q => Sys2Proof.Machine.execFlush u q s
  | .readPosition u q h => Sys2Proof.Machine.execReadPosition u q h s
  | .verifyRange u q => Sys2Proof.Machine.execVerifyRange u q s
  | .excursionStart t => Sys2Proof.Machine.execExcursionStart t s
  | .excursionEnd t => Sys2Proof.Machine.execExcursionEnd t s
  | .vfFlr u x => Sys2Proof.Machine.execVfFlr u x s
  | .pfFlr x => Sys2Proof.Machine.execPfFlr x s
  | .tqEvtClr u value => Sys2Proof.Machine.execTqEvtClr u value s
  | .evStsClear k value => Sys2Proof.Machine.execEvStsClear k value s
  | .pmCtlWake => Sys2Proof.Machine.execPmCtlWake s
  | .scRingRel lossId => Sys2Proof.Machine.execScRingRel lossId s
  | .coefCommit t k clrState => Sys2Proof.Machine.execCoefCommit t k clrState s
  | .registerWrite w => Sys2Proof.Machine.execRegisterWrite w s
  | .smbReadTemperature => Sys2Proof.Machine.execSmbReadTemperature s
  | .smbReadPowerState => Sys2Proof.Machine.execSmbReadPowerState s
  | .smbReadReady => Sys2Proof.Machine.execSmbReadReady s
  | .smbNack command write => Sys2Proof.Machine.execSmbNack command write s
  | .pressureEvaluation => Sys2Proof.Machine.execPressureEvaluation s
  | .burstStart t => Sys2Proof.Machine.execBurstStart t s
  | .burstStop t => Sys2Proof.Machine.execBurstStop t s
  | .blockCutTimer v => Sys2Proof.Machine.execBlockCutTimer v s
  | .compressDone v body fault => Sys2Proof.Machine.execCompressDone v body fault s
  | .sealDone v fault => Sys2Proof.Machine.execSealDone v fault s
  | .datasetClose t => Sys2Proof.Machine.execDatasetClose t s
  | .intervalStart t => Sys2Proof.Machine.execIntervalStart t s
  | .turnaround t => Sys2Proof.Machine.execTurnaround t s
  | .rowStatus t r => Sys2Proof.Machine.execRowStatus t r s
  | .gapEntryTimer v tag => Sys2Proof.Machine.execGapEntryTimer v tag s
  | .gapEntryPlace v => Sys2Proof.Machine.execGapEntryPlace v s
  | .bufferUncorrectable target => Sys2Proof.Machine.execBufferUncorrectable target s
  | .bufferScrub corrected => Sys2Proof.Machine.execBufferScrub corrected s
  | .directoryCommit => Sys2Proof.Machine.execDirectoryCommit s
  | .crashSnapshot => Sys2Proof.Machine.execCrashSnapshot s
  | .lifeCheckpoint => Sys2Proof.Machine.execLifeCheckpoint s
  | .epochBoundary us => Sys2Proof.Machine.execEpochBoundary us s
  | .snapshotReady => Sys2Proof.Machine.execSnapshotReady s
  | .ps1Entry => Sys2Proof.Machine.execPs1Entry s
  | .ps2Entry => Sys2Proof.Machine.execPs2Entry s
  | .ps3Entry => Sys2Proof.Machine.execPs3Entry s
  | .powerStateExit cause => Sys2Proof.Machine.execPowerStateExit cause s
  | .powerStateExitDone => Sys2Proof.Machine.execPowerStateExitDone s
  | .relaxTimer t => Sys2Proof.Machine.execRelaxTimer t s
  | .unloadTimer t dir => Sys2Proof.Machine.execUnloadTimer t dir s
  | .trainingTimeout n => Sys2Proof.Machine.execTrainingTimeout n s
  | .trainingRetry n => Sys2Proof.Machine.execTrainingRetry n s
  | .trainWord n slot => Sys2Proof.Machine.execTrainWord n slot s
  | .ident n w0 w1 w2 w3 => Sys2Proof.Machine.execIdent n w0 w1 w2 w3 s
  | .laneUp n => Sys2Proof.Machine.execLaneUp n s
  | .uncorrectableCodeword n x => Sys2Proof.Machine.execUncorrectableCodeword n x s
  | .slotLockLoss x => Sys2Proof.Machine.execSlotLockLoss x s
  | .linkQuarantineRx n slot => Sys2Proof.Machine.execLinkQuarantineRx n slot s
  | .rejoinStart n => Sys2Proof.Machine.execRejoinStart n s
  | .linkAck n slot => Sys2Proof.Machine.execLinkAck n slot s
  | .proposeTimeout n => Sys2Proof.Machine.execProposeTimeout n s
  | .sampleFrame n f => Sys2Proof.Machine.execSampleFrame n f s
  | .resendRequest t sn => Sys2Proof.Machine.execResendRequest t sn s
  | .sampleFrameLost t sn => Sys2Proof.Machine.execSampleFrameLost t sn s
  | .controlFrame n f sinceMs => Sys2Proof.Machine.execControlFrame n f sinceMs s
  | .managementResponse n f => Sys2Proof.Machine.execManagementResponse n f s
  | .managementTimeout t tag => Sys2Proof.Machine.execManagementTimeout t tag s
  | .cartridgeInserted t env => Sys2Proof.Machine.execCartridgeInserted t env s
  | .cartridgeRemoved t => Sys2Proof.Machine.execCartridgeRemoved t s
  | .powerStageFault t => Sys2Proof.Machine.execPowerStageFault t s
  | .autonomousStop t => Sys2Proof.Machine.execAutonomousStop t s
  | .servoWord n slot => Sys2Proof.Machine.execServoWord n slot s
  | .servoTimeout t => Sys2Proof.Machine.execServoTimeout t s
  | .tachWord n slot => Sys2Proof.Machine.execTachWord n slot s
  | .senseWord n slot => Sys2Proof.Machine.execSenseWord n slot s
  | .statusWord n slot => Sys2Proof.Machine.execStatusWord n slot s
  | .wclkSend t => Sys2Proof.Machine.execWclkSend t s
  | .solRestate t => Sys2Proof.Machine.execSolRestate t s
  | .pullinEnd t => Sys2Proof.Machine.execPullinEnd t s
  | .brakeFault t brake => Sys2Proof.Machine.execBrakeFault t brake s
  | .slotRelease t k => Sys2Proof.Machine.execSlotRelease t k s
  | .slotJob t k => Sys2Proof.Machine.execSlotJob t k s
  | .deadlineMiss t k => Sys2Proof.Machine.execDeadlineMiss t k s
  | .staleDetect t k kind => Sys2Proof.Machine.execStaleDetect t k kind s
  | .servoHoldTimeout t => Sys2Proof.Machine.execServoHoldTimeout t s
  | .servoAcquireFail t => Sys2Proof.Machine.execServoAcquireFail t s
  | .targetReached t o => Sys2Proof.Machine.execTargetReached t o s
  | .stopComplete t => Sys2Proof.Machine.execStopComplete t s
  | .envelopeExit t => Sys2Proof.Machine.execEnvelopeExit t s
  | .sensorlessStopLimit t => Sys2Proof.Machine.execSensorlessStopLimit t s
  | .laneResetTimeout n => Sys2Proof.Machine.execLaneResetTimeout n s
  | .supplyMonitorRelease => Sys2Proof.Machine.execSupplyMonitorRelease s

end Sys2Proof.Machine
end

