-- ==== Sys2Proof/Safety.lean ====
section
/-! DEFINITION. What a safe run is: every command of a queue takes a next state. -/

namespace Sys2Proof

/-- A step that answers a next state: neither a fault nor a refusal. -/
def Safety.Completes (s : Machine.State) : Prop := ∃ t, Machine.step s = .next t

/-- Command `c` is done at `s` with exactly the effect `e` on everything but the queue of waiting commands. -/
def Safety.Takes (c : Instr) (s e : Machine.State) : Prop := Machine.exec c s = .next { e with pending := s.pending }

/-- Command `c` has the effect `e`, after which the fetched commands that now can complete do (`State.settle`, R128). -/
def Safety.Settles (c : Instr) (s e : Machine.State) : Prop := Safety.Takes c s e.settle

end Sys2Proof
end

