-- ==== Sys2Proof/Certificates/Slice0/Obligations.lean ====
section
/-! DEFINITION. The statements for the provers: what the commands of the TF832 do, by the rules of spec/. `Safety.Takes c s e` says that
command `c` completes at `s` with exactly the effect `e`; `Safety.Settles c s e` that waiting commands whose end has come then complete. -/

open Sys2Proof Sys2Proof.Machine

/-! ### Step and reset -/

/-- A step takes the command at the front and runs it with the queue's rest; on an empty queue the part idles (the model's choice, log 1). -/
def Obligations.StepRunsFrontCommand : Prop :=
  (∀ (c : Instr) (s : State), step { s with pending := c :: s.pending } = exec c s) ∧ ∀ s : State, s.pending = [] → step s = .next s

/-- Every command completes in every state and leaves the queue of waiting commands to the step; so every step completes, and leaves of the waiting
commands those after the first. -/
def Obligations.EveryStepCompletes : Prop :=
  (∀ (c : Instr) (s : State), ∃ t, exec c s = .next t ∧ t.pending = s.pending) ∧
  ∀ (s : State), ∃ t, step s = .next t ∧ t.pending = s.pending.tail

/-- The NVM keeps its canonical form: addresses strictly rising, no cell for an erased byte. -/
def Obligations.NvmFormKept : Prop :=
  ∀ (s t : State), Memory.wf s.image.nvm → step s = .next t → Memory.wf t.image.nvm

/-- The NVM changes only where an Image Write runs: at its own row, or at the end of the load it waited for (R72). The fuses never change. -/
def Obligations.NvmChangesOnlyByImageWrite : Prop :=
  ∀ (s t : State) (c : Instr) (rest : List Instr), s.pending = c :: rest → step s = .next t →
    t.fuses = s.fuses ∧
    (t.image.nvm ≠ s.image.nvm →
      (∃ x, c = .imageWrite x) ∨ (∃ f, c = .earlyBlockLoaded f) ∨ ∃ f, c = .imageLoadComplete f)

/-- A cause bit of DV_FATAL goes from 1 to 0 only at a cold reset or PERST_N (R145). -/
def Obligations.FatalBitsStandUntilReset : Prop :=
  ∀ (s t : State) (c : Instr) (rest : List Instr) (k : Nat), s.pending = c :: rest → step s = .next t →
    s.dev.fatal.getLsbD k = true → t.dev.fatal.getLsbD k = false →
      c = .porNAssert ∨ (∃ rail mv us, c = .supplyMonitorReset rail mv us) ∨ ∃ x, c = .perstNFall x

/-- The state after reset, as the Reset columns give it: nothing waits, no unit is ready, nothing is fatal, the part is in PS0, no temperature has
been read, TLIM is 100 °C, no image code has been set, every MSI-X vector is masked, and no queue pair or volume exists. -/
def Obligations.ResetLeavesResetValues : Prop :=
  let s := State.reset
  s.pending = [] ∧ Memory.wf s.image.nvm ∧ s.readDevice 0x00010 = 0 ∧ s.readDevice 0x00020 = 0 ∧ s.readDevice 0x01000 = 0 ∧
  s.readDevice 0x00028 = 0x80008000 ∧ s.readDevice 0x01020 = 100 ∧ s.readDevice 0x02000 = 0xFFFF ∧ s.arb.cmds = [] ∧ s.vols = [] ∧
  (∀ u, (s.tn u).qps = [] ∧ s.readBar0 u 0x10 = 0 ∧ s.readBar0 u 0x18 = 0) ∧
  (∀ fn k, (Tab.get ({} : MsixVec) (s.tn fn).fn.msix k).masked = true) ∧ (∀ n, (s.ln n).state = .absent) ∧ ∀ t, (s.mot t).state = .absent

/-- What a cold reset leaves (R6, R37): every field at its reset value but Sachet, the NVM, the fuses and the levels that the outside drives.
Reset release (R14, R40, R357): the rising edge of POR_N samples the straps, LAST_RESET reads 0 and the clock is requested; the supply monitor
lets go only with POR_N high, and samples nothing. -/
def Obligations.ColdResetsAndReleaseLeaveTheirState : Prop :=
  (∀ s : State,
    let cold : Pins → State := fun p =>
      { State.reset with
        out := s.out, freeCtr := s.freeCtr, msNow := s.msNow, fuses := s.fuses, sachet := s.sachet, image := { nvm := s.image.nvm }, pins := p }
    Safety.Takes .porNAssert s (cold { porN := false, perstN := s.pins.perstN, monitorReset := s.pins.monitorReset }) ∧
    (∀ rail mv us,
      ((rail = Rail.vddio ∧ mv < 1620) ∨ (rail = Rail.vddc ∧ mv < 700) ∨ (rail = Rail.vddm ∧ mv < 740)) → 2 ≤ us →
        Safety.Takes (.supplyMonitorReset rail mv us) s
          (cold { porN := s.pins.porN, perstN := s.pins.perstN, monitorReset := true, straps := s.pins.straps })) ∧
    ∀ rail mv us,
      ((rail = Rail.vddio ∧ 1620 ≤ mv) ∨ (rail = Rail.vddc ∧ 700 ≤ mv) ∨ (rail = Rail.vddm ∧ 740 ≤ mv) ∨ us < 2) →
        Safety.Takes (.supplyMonitorReset rail mv us) s s) ∧
  ((∀ (s : State) (straps : BitVec 3), s.pins.porN = false →
    Safety.Takes (.porNRelease straps) s
      { s with pins := { s.pins with porN := true, straps := straps, clkreqN := false }, dev := { s.dev with lastReset := 0, releaseMs := s.msNow } }) ∧
  (∀ (s : State) (straps : BitVec 3), s.pins.porN = true → Safety.Takes (.porNRelease straps) s s) ∧
  (∀ s : State, s.pins.porN = true → s.pins.monitorReset = true →
    Safety.Takes .supplyMonitorRelease s
      { s with pins := { s.pins with monitorReset := false, clkreqN := false }, dev := { s.dev with lastReset := 0, releaseMs := s.msNow } }) ∧
  ∀ s : State, (s.pins.porN = false ∨ s.pins.monitorReset = false) → Safety.Takes .supplyMonitorRelease s s)

/-- PERST_N falls (R38, R28, R29, R36, R37, R19, R341, R345): HOST clears at once, and a part in PS3 wakes; after 200 ns, with POR_N high, the part
goes through the steps of the quiesce up to `upTo`, and once the fourth is done every domain resets but the always-on one: GPIO keep all but OUT, the
supply and temperature readings, TLIM and DSN_RESV stay, epoch 0 opens, the image is loaded anew from the same NVM, no command, volume or queue pair
is left, a tenant keeps its GEN alone, the cores that serve a transport not yet under its brakes are held with their lanes and transports (R39), and
the words that the FIFOs discard are counted. PERST_N already low changes nothing, unless a quiesce of its own was cut short. -/
def Obligations.PerstFallQuiescesAndResets : Prop :=
  ∀ (s : State) (ns us upTo : Nat) (disc : Discards),
    let s0 := if s.pm.state = 3 then s.wake 9 else s
    let s1 : State := { s0 with pins := { s.pins with perstN := false, wakeN := true }, dev := { s.dev with ready := setBit s.dev.ready rdHOST false } }
    let q := s1.quiesceTo (if s.dev.quiesced = 0 then 4 else s.dev.quiesced) upTo
    let held := fun (n : Nat) => q.heldCores.getLsbD (coreOf n)
    let falls := s.pins.perstN = true ∨ (s.dev.quiesced = 4 ∧ s.dev.qstep < 4)
    (¬ falls → Safety.Takes (.perstNFall ⟨ns, us, upTo, disc⟩) s s) ∧
    (falls → (s.on = false ∨ ns < 200) → Safety.Takes (.perstNFall ⟨ns, us, upTo, disc⟩) s s1) ∧
    (falls → s.on = true → 200 ≤ ns → q.dev.qstep < 4 → Safety.Takes (.perstNFall ⟨ns, us, upTo, disc⟩) s q) ∧
    (falls → s.on = true → 200 ≤ ns → 4 ≤ q.dev.qstep →
      ∃ w : State, Safety.Takes (.perstNFall ⟨ns, us, upTo, disc⟩) s (w.discards disc) ∧
        w.dev = { lastReset := if s.dev.quiesced = 3 then 2 else 1, ctlPending := q.heldCores, dsnResv := q.dev.dsnResv, releaseMs := q.msNow } ∧
        w.gpio = { q.gpio with out := 0 } ∧ w.therm = q.therm ∧ w.pm = { tlim := q.pm.tlim } ∧ w.pins = q.pins ∧ w.sachet = q.sachet ∧
        w.image = { nvm := q.image.nvm, cfg := q.image.cfg.heldPart q.heldCores } ∧ w.arb = {} ∧ w.vols = [] ∧ w.ev = [] ∧
        w.stats = { openUs := us } ∧ w.bm = { retired := q.bm.retired } ∧ w.out = q.out ∧ w.fuses = q.fuses ∧
        (∀ u, w.tn u = { gen := (q.tn u).gen }) ∧
        (∀ n, w.ln n = if held n then q.ln n else {}) ∧
        ∀ t, w.tp t = if held t then (q.tp t).heldPart else {})

/-- PERST_N rises (R40, R41, R44): the clock is requested where the part is out of cold reset; HOST, and FUNC of every function that is not in a
Function Level Reset, set where the early block is in force. Nothing but the pins, DV_READY and the tenants changes.
The held warm reset of a core (R39): once its transports stand under their brakes, or after 3 s, it and its lanes and transports reset; with the
image loaded by then the links start and the transports are Unloaded. Other cores' units are untouched. -/
def Obligations.PerstRiseAndHeldCores : Prop :=
  (∀ s : State,
    (s.pins.perstN = true → Safety.Takes .perstNRise s s) ∧
    (s.pins.perstN = false → (s.on = false ∨ s.earlyDone = false) →
      Safety.Takes .perstNRise s { s with pins := { s.pins with perstN := true, clkreqN := if s.on then false else s.pins.clkreqN } }) ∧
    (s.pins.perstN = false → s.on = true → s.earlyDone = true →
      ∃ e, Safety.Takes .perstNRise s e ∧
        e = { s with pins := { s.pins with perstN := true, clkreqN := false }, dev := { s.dev with ready := setBit s.dev.ready rdHOST true },
                     tenants := e.tenants } ∧
        ∀ u, u < 16 → (s.tn u).inFlr = false → (e.tn u).func = true)) ∧
  (∀ (s : State) (c : Nat) (after3s : Bool),
    (4 ≤ c ∨ s.dev.ctlPending.getLsbD c = false ∨ (after3s = false ∧ s.coreAtRest c = false) → Safety.Takes (.ctlCoreWarmReset c after3s) s s) ∧
    (c < 4 → s.dev.ctlPending.getLsbD c = true → (after3s = true ∨ s.coreAtRest c = true) → s.image.loaded = false →
      ∃ e, Safety.Takes (.ctlCoreWarmReset c after3s) s e ∧
        e = { s with lanes := e.lanes, tps := e.tps, cores := e.cores,
                     dev := { s.dev with ctlPending := setBit s.dev.ctlPending c false, ready := e.dev.ready } } ∧
        (∀ k, e.ln k = if coreOf k = c then {} else s.ln k) ∧ (∀ k, e.tp k = if coreOf k = c then {} else s.tp k) ∧
        (∀ k, coreOf k = c → e.ready (rdLANE k) = false ∧ e.ready (rdTRANSPORT k) = false)) ∧
    (c < 4 → s.dev.ctlPending.getLsbD c = true → (after3s = true ∨ s.coreAtRest c = true) → s.image.loaded = true →
      ∃ e, Safety.Takes (.ctlCoreWarmReset c after3s) s e ∧ e.dev.ctlPending = setBit s.dev.ctlPending c false ∧ e.image = s.image ∧
        ∀ t, s.tpExists t = true → coreOf t = c → (e.mot t).state = .unloaded))

/-- The quiesce (R162, R164, R28; Table 08-6): its reason stands, its four steps are done, BUFFER and every TRANSPORT bit read 0; a part already
quiesced stays as it is. That of PFAIL_N raises Power Fail. Its steps in two parts are its steps in one.
A device fatal cause (R145): its bit of DV_FATAL sets and no other bit of it changes, whatever the quiesce and the commands that end then do. -/
def Obligations.QuiesceAndFatalSetTheirState : Prop :=
  (∀ (s : State) (reason : Nat),
    (s.dev.quiesced ≠ 0 → s.quiesce reason = s) ∧
    (s.dev.quiesced = 0 →
      (s.quiesce reason).dev.quiesced = reason ∧ (s.quiesce reason).dev.qstep = 4 ∧ (s.quiesce reason).ready rdBUFFER = false ∧
        ∀ t, t < 8 → (s.quiesce reason).ready (rdTRANSPORT t) = false) ∧
    (s.dev.quiesced = 0 → reason ≠ 0 → ∀ k, k ≤ 4 → (s.quiesceTo reason k).quiesceTo reason 4 = s.quiesce reason)) ∧
  (∀ s : State, s.dev.quiesced = 0 → s.pm.state ≠ 3 → ((s.quiesce 3).evSrc evPowerFail).sts = true) ∧
  (∀ (s : State) (cause : Nat) (bits : List Nat), (s.deviceFatal cause bits).dev.fatal = setBit s.dev.fatal cause true)

/-! ### Bring-up -/

/-- The early block (R64, R66, R15): copy A's header and early block where they pass, else copy B's with copy A's failure recorded, and HOST sets with
PERST_N high; with neither, or with FORCE_SAFE at 1, safe mode, where the image commands that waited run (R72). Once the early block is in force the row
changes nothing.
The end of a load (R65, R71, R72): copy A is delivered where it passes every check, else copy B with Image Fallback raised, with their codes and
offsets recorded; a copy A whose header or early block has failed stays failed; where both fail the part is in safe mode. The Tamper assertions held
since PERST_N are issued (R19), and the commands that waited for the load then run.
Safe mode (R66): no virtual function, lane or transport; no setting but the reset values, IMAGE not loaded, no GPIO function in force. -/
def Obligations.EarlyBlockAndImageLoad : Prop :=
  (∀ (s : State) (fails : List NvmFail),
    let host : State → State := fun z => if s.pins.perstN then z.hostUp else z
    let takes : Image → Bool → Bytes × EarlyCfg → State := fun i b x =>
      host { s with image := { i with earlyFrom := some b, earlyBytes := x.1, early := x.2 } }
    let safe : Image → State := fun i => (host (State.enterSafe { s with image := i })).runAfterLoad fails
    (s.on = false ∨ s.earlyDone = true → Safety.Takes (.earlyBlockLoaded fails) s s) ∧
    (s.on = true → s.earlyDone = false → s.pins.straps.getLsbD 0 = false → ∀ x, s.earlyOf fails false = .ok x →
      Safety.Takes (.earlyBlockLoaded fails) s (takes s.image false x)) ∧
    (s.on = true → s.earlyDone = false → s.pins.straps.getLsbD 0 = false → ∀ a x, s.earlyOf fails false = .error a → s.earlyOf fails true = .ok x →
      Safety.Takes (.earlyBlockLoaded fails) s (takes { s.image with aCode := a.1, aOff := a.2 } true x)) ∧
    (s.on = true → s.earlyDone = false → s.pins.straps.getLsbD 0 = false → ∀ a b, s.earlyOf fails false = .error a → s.earlyOf fails true = .error b →
      Safety.Takes (.earlyBlockLoaded fails) s (safe { s.image with aCode := a.1, aOff := a.2, bCode := b.1, bOff := b.2 })) ∧
    (s.on = true → s.earlyDone = false → s.pins.straps.getLsbD 0 = true → Safety.Takes (.earlyBlockLoaded fails) s (safe s.image))) ∧
  (∀ (s : State) (fails : List NvmFail),
    let chk := fun (b : Bool) => chkCopy s.fuses.keyHash (some s.image.earlyBytes) (failAt fails b) (s.copyBytes b)
    let chkA := if s.image.earlyFrom = some true then .error (s.image.aCode, s.image.aOff) else chk false
    let tampers : State → State := fun z => (z.modGpio fun g => { g with held := [] }).each z.gpio.held fun s n => s.tamperEffects n
    (s.on = false ∨ s.image.earlyFrom = none ∨ s.loading = false → Safety.Takes (.imageLoadComplete fails) s s) ∧
    (s.on = true → s.image.earlyFrom ≠ none → s.loading = true → ∀ x, chkA = .ok x →
      ∃ z, z = ({ s with image := { s.image with aCode := 0, bCode := 0xFF, aOff := 0, bOff := 0, sigChecked := x.sigOk, copyB := false } } : State).deliver x.settings ∧
        Safety.Takes (.imageLoadComplete fails) s ((tampers z).runAfterLoad fails)) ∧
    (s.on = true → s.image.earlyFrom ≠ none → s.loading = true → ∀ a x, chkA = .error a → chk true = .ok x →
      ∃ z, z = (({ s with image := { s.image with aCode := a.1, aOff := a.2, bCode := 0, bOff := 0, sigChecked := x.sigOk, copyB := true } } : State).deliver
          x.settings).raise evImageFallback ∧
        Safety.Takes (.imageLoadComplete fails) s ((tampers z).runAfterLoad fails)) ∧
    (s.on = true → s.image.earlyFrom ≠ none → s.loading = true → ∀ a b, chkA = .error a → chk true = .error b →
      Safety.Takes (.imageLoadComplete fails) s
        ((State.enterSafe { s with image := { s.image with aCode := a.1, aOff := a.2, bCode := b.1, bOff := b.2 } }).runAfterLoad fails))) ∧
  (∀ s : State,
    let e := s.enterSafe
    e.image = { s.image with safe := true, loaded := false, early := default, img := default, cfg := default } ∧
    e.dev.vfEnable = false ∧ e.dev.numVfs = 0 ∧ e.gpio = { s.gpio with rwl := 0, inForce := 0, debounce := [] } ∧
    ∀ u, 1 ≤ u → u < 16 → (e.tn u).qps = [] ∧ (e.tn u).func = false)

/-- Delivered settings are the settings in force, IMAGE sets, the epoch length is the image's, and FUNC and POL of the GPIO lock at the image's
values (R65, R67, R4). -/
def Obligations.DeliveredSettingsAreInForce : Prop :=
  ∀ (s : State) (g : Settings),
    (s.deliver g).image = { s.image with img := g, cfg := g, loaded := true } ∧ (s.deliver g).ready rdIMAGE = true ∧
      (s.deliver g).stats.epochMs = g.epochMs ∧ (s.deliver g).gpio.rwl = g.gpio &&& 0x0F0F0F0F ∧
      (s.deliver g).gpio.inForce = g.gpio &&& 0x0F0F0F0F ∧ (s.deliver g).pins = s.pins

/-- Sachet is mounted (R157, R161, R165, R166, R387): a partition that fails its check is device fatal cause 2; else SACHET sets, with the life counters of
the last valid checkpoint and what fails its CRC set aside, and every volume of a crash record that a loss wrote, or that a run without a quiesce left,
is kept as a pending loss under its LOSS_ID.
The buffer's pools after its training (R148, R150; Table 08-2): 1,024 segments of urgent reserve, each tenant's FLOOR, 768 for each transport's
reserves, and the rest, less the retired, shared. Nothing else but DV_STS.BUF_INIT and BUFFER changes; a part that is quiesced, without its image or
with a buffer fault, or whose training failed, keeps BUFFER 0.
Self-tests (Table 03-4, R39, R44): a unit that passes sets its readiness bit, unless it is fatal; a core only where it serves a transport and is
past its held reset. Nothing else changes. A unit that fails is device fatal of its kind (the model's reading, log 85). -/
def Obligations.SachetBufferAndUnitsComeUp : Prop :=
  (∀ (s : State) (m : MountFinding),
    let x := s.sachet.mount m
    (s.on = false ∨ s.ready rdSACHET = true ∨ s.dev.fatal.getLsbD 2 = true → Safety.Takes (.sachetMounted m) s s) ∧
    (s.on = true → s.ready rdSACHET = false → s.dev.fatal.getLsbD 2 = false →
      (m.bad ≠ [] → Safety.Settles (.sachetMounted m) s (s.deviceFatal 2 [rdSACHET])) ∧
      (m.bad = [] → s.image.loaded = false → x.current.snapSeq = 0 →
        Safety.Takes (.sachetMounted m) s { s with sachet := x, dev := { s.dev with ready := setBit s.dev.ready rdSACHET true } }) ∧
      (m.bad = [] → s.image.loaded = false → x.current.snapSeq ≠ 0 →
        (x.current.reason = 3 ∨ x.current.reason = 4 ∨ x.current.reason = 5) →
        ∃ e, Safety.Takes (.sachetMounted m) s e ∧
          e = { s with dev := { s.dev with ready := setBit s.dev.ready rdSACHET true }, sachet := e.sachet } ∧ e.sachet.lossId = x.lossId ∧
          ∀ v ∈ x.recovered, ∃ p ∈ e.sachet.pendingLoss, p.vol.uuid = v.uuid ∧ p.lossId = x.current.lossId) ∧
      (m.bad = [] → s.image.loaded = false → x.current.snapSeq ≠ 0 →
        x.current.reason ≠ 3 → x.current.reason ≠ 4 → x.current.reason ≠ 5 →
        ∃ e, Safety.Takes (.sachetMounted m) s e ∧ e.ready rdSACHET = true ∧ e.sachet.lossId = x.lossId + 1 ∧
          ∀ v ∈ x.recovered, ∃ p ∈ e.sachet.pendingLoss, p.vol.uuid = v.uuid ∧ p.lossId = e.sachet.lossId))) ∧
  (∀ (s : State) (trained : Bool),
    (s.image.loaded = false ∨ s.ready rdBUFFER = true ∨ trained = false ∨ s.dev.quiesced ≠ 0 ∨ s.dev.fatal.getLsbD 1 = true →
      Safety.Takes (.bufferInitDone trained) s s) ∧
    (s.image.loaded = true → s.ready rdBUFFER = false → trained = true → s.dev.quiesced = 0 → s.dev.fatal.getLsbD 1 = false →
      ∃ e, Safety.Takes (.bufferInitDone trained) s e ∧
        e = { s with bm := e.bm, dev := { s.dev with bufInit := 100, ready := setBit s.dev.ready rdBUFFER true } } ∧
        e.bm.segTotal = bufBytes s.cfg / 65536 ∧ e.bm.urgFree = 1024 ∧
        e.bm.shared = e.bm.segTotal - 1024 - 768 * s.cfg.tpList.length - (s.cfg.ten.map fun x => x.2.floor).sum - s.bm.retired ∧
        e.bm.sharedFree = e.bm.shared ∧ e.bm.floorFree = (s.cfg.ten.map fun x => (x.1, x.2.floor)) ∧
        e.bm.corrected = s.bm.corrected ∧ e.bm.uncorr = s.bm.uncorr ∧ e.bm.retired = s.bm.retired)) ∧
  (∀ (s : State) (unit : SelfTest) (pass : Bool) (cause b : Nat) (served : Bool),
    ((unit = .codec ∧ cause = 3 ∧ b = rdCODEC ∧ served = true) ∨ (unit = .seal ∧ cause = 4 ∧ b = rdSEAL ∧ served = true) ∨
      ∃ c, unit = .core c ∧ cause = 8 + c ∧ b = rdCE c ∧
        served = (decide (c < 4) && !s.dev.ctlPending.getLsbD c && s.servedCores.getLsbD c)) →
    (s.image.loaded = false ∨ served = false ∨ s.dev.fatal.getLsbD cause = true → Safety.Takes (.unitSelfTestDone unit pass) s s) ∧
    (s.image.loaded = true → served = true → s.dev.fatal.getLsbD cause = false →
      (pass = true → Safety.Takes (.unitSelfTestDone unit pass) s { s with dev := { s.dev with ready := setBit s.dev.ready b true } }) ∧
      (pass = false → Safety.Settles (.unitSelfTestDone unit pass) s (s.deviceFatal cause [b]))))

/-- Power fail and lost clocks (R28, R29, R31, R164, R275, R368): PFAIL_N low for 200 ns takes the part through the steps of the quiesce of REASON 3,
once; a lane's clock is the loss of that lane; any other is device fatal cause 0 with the first CLK_ID kept; the crystal's stop moves CK_AO to the backup,
loses its five PLLs (which one CLK_ID names is free), and wakes a part in PS3.
The die temperature (R348; Tables 16-16, 17-13, 17-14): the highest sensor and the peak; the limit holds from 100 °C until below 95 °C and its event is
raised as it sets; the shutdown holds from 110 °C until below 100 °C, drives THERM_N low and stops every transport as it sets; as it clears it lets
THERM_N go and the transports whose lanes are Up load. In 0.125 °C. -/
def Obligations.MonitorsActOnTheirLimits : Prop :=
  ((∀ (s : State) (ns upTo : Nat),
    let due := s.on = true ∧ 200 ≤ ns ∧ (s.dev.quiesced = 0 ∨ (s.dev.quiesced = 3 ∧ s.dev.qstep < 4))
    (¬ due → Safety.Takes (.powerFail ⟨ns, upTo⟩) s s) ∧
    (due → Safety.Settles (.powerFail ⟨ns, upTo⟩) s (s.quiesceTo 3 upTo)) ∧
    (due → s.dev.quiesced = 0 → 4 ≤ upTo → Safety.Settles (.powerFail ⟨ns, upTo⟩) s (s.quiesce 3))) ∧
  (∀ (s : State) (clk : Clk), s.on = false → Safety.Takes (.clockLoss clk) s s) ∧
  (∀ (s : State) (n : Nat), s.on = true →
    (s.lanePresent n = false → Safety.Takes (.clockLoss (.lane n)) s s) ∧
    (s.lanePresent n = true → Safety.Settles (.clockLoss (.lane n)) s (s.failLane n))) ∧
  (∀ (s : State) (clk : Clk) (k : Nat) (bits : List Nat), s.on = true →
    ((clk = .nv ∧ k = 1 ∧ bits = [rdSACHET]) ∨ (clk = .core ∧ k = 2 ∧ bits = [rdBUFFER, rdCODEC, rdSEAL]) ∨
      (clk = .ctl ∧ k = 3 ∧ bits = [rdCE 0, rdCE 1, rdCE 2, rdCE 3]) ∨ (clk = .dsp ∧ k = 4 ∧ bits = []) ∨
      (clk = .pcie ∧ k = 5 ∧ bits = [rdHOST]) ∨ (clk = .mem ∧ k = 6 ∧ bits = [rdBUFFER])) →
    Safety.Settles (.clockLoss clk) s
      (State.deviceFatal { s with dev := { s.dev with clkId := if s.dev.clkId = 0 then k else s.dev.clkId, lostClks := setBit s.dev.lostClks k true } } 0 bits)) ∧
  (∀ (s : State) (us : Nat),
    (s.on = false ∨ us < 10 → Safety.Takes (.crystalStop us) s s) ∧
    (s.on = true → 10 ≤ us → ∃ k, (k = 1 ∨ k = 2 ∨ k = 3 ∨ k = 4 ∨ k = 6) ∧
      Safety.Settles (.crystalStop us) s
        (State.clockFatal { s with freeCtr := s.freeCtr + 1
                                   pins := { s.pins with backup := true, wakeN := if s.pm.state = 3 then false else s.pins.wakeN }
                                   pm := if s.pm.state = 3 then { s.pm with exiting := true } else s.pm } k [1, 2, 3, 4, 6])))) ∧
  (∀ (s : State) (sensors rails : List (BitVec 16)),
    let v := sensors.foldl maxTemp 0x8000
    let was := s.therm
    (s.on = false → Safety.Takes (.dieTempMeasure sensors rails) s s) ∧
    (s.on = true → ∃ z : State,
      z = { s with therm := z.therm, stats := z.stats } ∧ z.therm.temp = v ∧ z.therm.peak = maxTemp was.peak v ∧
      z.therm.limit = (decide (800 ≤ v.toInt) || (was.limit && decide (760 ≤ v.toInt))) ∧
      z.therm.shut = (decide (880 ≤ v.toInt) || (was.shut && decide (800 ≤ v.toInt))) ∧
      (let z1 := if z.therm.limit && !was.limit then z.raise evThermalLimit else z
       let low := ({ (z1.raise evThermalShutdown) with
         pins := { (z1.raise evThermalShutdown).pins with thermN := false }, out := (z1.raise evThermalShutdown).out ++ [.thermN false] } : State)
       (z.therm.shut = true → was.shut = false →
          Safety.Settles (.dieTempMeasure sensors rails) s (low.each low.tpList fun s t => s.controlledStop t .parked)) ∧
       (z.therm.shut = false → was.shut = true →
          Safety.Settles (.dieTempMeasure sensors rails) s
            (State.each { z1 with pins := { z1.pins with thermN := true }, out := z1.out ++ [.thermN true] } s.tpList
              fun s t => if s.upLanes t = [] then s else s.reload t)) ∧
       (z.therm.shut = was.shut → Safety.Settles (.dieTempMeasure sensors rails) s z1))))

/-- GPIO (R17, R18): a change sets the pin's level; on a Tamper input (FUNC 1) an assertion starts the debounce where it may count, which needs 10 ms
deasserted after the last count, and a deassertion ends it. Nothing else changes.
Tamper (R18, R19, R345, R385): 10 ms asserted sets the pin's latch and counts no further assertion until it may; the event, the count and the chain
entries of every online volume follow at once, or wait for the image or for the exit of PS3, which a pin with WAKE begins under WAKE_N; PS2 ends.
SMBus (R26, R27): the three reads answer the value at the command byte with a packet error code; any other command and every write are not
acknowledged. Nothing but the output changes; held in cold reset the part answers nothing. -/
def Obligations.GpioTamperAndSmbus : Prop :=
  (∀ (s : State) (pin : Nat) (level : Bool) (heldMs : Nat),
    let g : Gpio := { s.gpio with level := setBit s.gpio.level pin level }
    let d := Tab.get ({} : GpioPin) s.gpio.debounce pin
    let may := d.armed || decide (10 ≤ heldMs)
    (s.on = false ∨ 4 ≤ pin → Safety.Takes (.gpioInputChange pin level heldMs) s s) ∧
    (s.on = true → pin < 4 → (s.gpio.func pin ≠ 1 ∨ s.gpio.level.getLsbD pin = level) →
      Safety.Takes (.gpioInputChange pin level heldMs) s { s with gpio := g }) ∧
    (s.on = true → pin < 4 → s.gpio.func pin = 1 → s.gpio.level.getLsbD pin ≠ level → g.asserted pin = true →
      Safety.Takes (.gpioInputChange pin level heldMs) s
        { s with gpio := { g with debounce := Tab.set pin { armed := may, running := may } s.gpio.debounce } }) ∧
    (s.on = true → pin < 4 → s.gpio.func pin = 1 → s.gpio.level.getLsbD pin ≠ level → g.asserted pin = false →
      Safety.Takes (.gpioInputChange pin level heldMs) s
        { s with gpio := { g with debounce := Tab.set pin { d with running := false } s.gpio.debounce } })) ∧
  (∀ (s : State) (pin : Nat),
    let z : State := { s with gpio :=
      { s.gpio with tamper := setBit s.gpio.tamper pin true, debounce := Tab.set pin { running := false, armed := false } s.gpio.debounce } }
    let held : State := { z with gpio := { z.gpio with held := z.gpio.held ++ [pin] } }
    let due := s.on = true ∧ pin < 4 ∧ s.gpio.func pin = 1 ∧ (Tab.get ({} : GpioPin) s.gpio.debounce pin).running = true ∧ s.gpio.asserted pin = true
    (¬ due → Safety.Takes (.tamper pin) s s) ∧
    (due → s.image.loaded = true → s.pm.state ≠ 3 →
      Safety.Takes (.tamper pin) s (if s.pm.state = 2 then (z.tamperEffects pin).wake 6 else z.tamperEffects pin)) ∧
    (due → s.image.loaded = false → s.pm.state ≠ 3 → Safety.Takes (.tamper pin) s held) ∧
    (due → s.pm.state = 3 → s.gpio.wake.getLsbD pin = false → Safety.Takes (.tamper pin) s held) ∧
    (due → s.pm.state = 3 → s.gpio.wake.getLsbD pin = true →
      Safety.Takes (.tamper pin) s
        { held with pins := { s.pins with wakeN := false }, out := s.out ++ [.wakeN false]
                    pm := { s.pm with exiting := true, lastWake := if s.pm.exiting then s.pm.lastWake else 6 } })) ∧
  (∀ s : State,
    (s.on = false → Safety.Takes .smbReadTemperature s s ∧ Safety.Takes .smbReadPowerState s s ∧ Safety.Takes .smbReadReady s s ∧
      ∀ cmd w, Safety.Takes (.smbNack cmd w) s s) ∧
    (s.on = true →
      (∃ p, Safety.Takes .smbReadTemperature s { s with out := s.out ++ [.smbus (leBytes 2 s.therm.temp.toNat) p] } ∧
        p = crc8 ([0xB4, 0x01, 0xB5] ++ leBytes 2 s.therm.temp.toNat)) ∧
      (∃ p, Safety.Takes .smbReadPowerState s { s with out := s.out ++ [.smbus (leBytes 1 (s.pm.state % 4)) p] } ∧
        p = crc8 ([0xB4, 0x02, 0xB5] ++ leBytes 1 (s.pm.state % 4))) ∧
      (∃ p, Safety.Takes .smbReadReady s { s with out := s.out ++ [.smbus (8 :: leBytes 8 s.dev.ready.toNat) p] } ∧
        p = crc8 ([0xB4, 0x03, 0xB5] ++ (8 :: leBytes 8 s.dev.ready.toNat))) ∧
      ∀ cmd w, ((w = true ∨ (cmd ≠ 1 ∧ cmd ≠ 2 ∧ cmd ≠ 3)) → Safety.Takes (.smbNack cmd w) s { s with out := s.out ++ [.smbusNack] }) ∧
        ((w = false ∧ (cmd = 1 ∨ cmd = 2 ∨ cmd = 3)) → Safety.Takes (.smbNack cmd w) s s)))

/-! ### Queues and completions -/

/-- A completion (R128, R131, R103; Tables 06-2 and 07-2): the command leaves the fetched list; where its pair still stands, its function is in no
reset and CK_CORE and CK_PCIE run, one entry is posted at the CQ tail with the result word, SQ head, queue, CID, status, DNR, severity and phase;
otherwise none is. The only other outputs are MSI-X messages, and an Error Log entry is written where the status asks for one. Registers, volumes'
keys, transports, lanes and Sachet are untouched. -/
def Obligations.CompletionPostsOneEntry : Prop :=
  ∀ (s : State) (c : Cmd) (st : Status) (r : Reply),
    let e := s.complete c st r
    let w1 := fun (n : Nat) (def1 : Bool) =>
      mkw [(0, c.sqhd % 65536), (16, c.q % 65536), (32, c.entry.cid), (48, st.sc), (56, st.st), (59, b2n (st.dnr r.result)), (60, n), (61, b2n def1)]
    e = { s with out := e.out, stats := e.stats, ev := e.ev, pm := e.pm, tenants := e.tenants, arb := e.arb, bm := e.bm, vols := e.vols } ∧
    e.arb.cmds = s.arb.cmds.filter (fun x => x.id != c.id) ∧
    (s.canPost c.u c.q = true →
      ∃ a b n, e.out = s.out ++ a ++
        [.completion c.u c.q (s.qp c.u c.q).cqTail r.result (w1 n st.logged ||| mkw [(63, b2n (s.qp c.u c.q).phase)])] ++ b ∧
        ∀ o, o ∈ a ∨ o ∈ b → ∃ fn vec, o = .msix fn vec) ∧
    (s.canPost c.u c.q = false → ∃ a, e.out = s.out ++ a ∧ ∀ o ∈ a, ∃ fn vec, o = .msix fn vec) ∧
    (∀ u, (e.tn u).errLog.next = (s.tn u).errLog.next + if u = c.u ∧ st.logged = true then 1 else 0)

/-- In the completion of Unit Not Ready, DNR is the inverse of RETRY (R47). -/
def Obligations.UnitNotReadyDnrInvertsRetry : Prop :=
  ∀ (s : State) (c : Cmd) (b : Nat), s.canPost c.u c.q = true →
    ∃ result w1, Output.completion c.u c.q (s.qp c.u c.q).cqTail result w1 ∈ (s.failNotReady c b).out ∧ bit w1 59 = !(bit result 8)

/-- A row of the command set executes the oldest fetched command of its kind: with none fetched the row changes nothing (the model's choice, log 5). -/
def Obligations.RowsWithoutACommandChangeNothing : Prop :=
  ∀ s : State,
    (∀ u h, s.adminCmd u 0x01 = none → Safety.Takes (.identify u h) s s) ∧ (∀ u, s.adminCmd u 0x02 = none → Safety.Takes (.createQueuePair u) s s) ∧
    (∀ u, s.adminCmd u 0x03 = none → Safety.Takes (.deleteQueuePair u) s s) ∧ (∀ u, s.adminCmd u 0x04 = none → Safety.Takes (.setQueueClass u) s s) ∧
    (∀ u h, s.adminCmd u 0x05 = none → Safety.Takes (.getLog u h) s s) ∧ (∀ u, s.adminCmd u 0x06 = none → Safety.Takes (.setFeatures u) s s) ∧
    (∀ u, s.adminCmd u 0x07 = none → Safety.Takes (.getFeatures u) s s) ∧ (∀ u, s.adminCmd u 0x08 = none → Safety.Takes (.restartQueues u) s s) ∧
    (∀ u, s.adminCmd u 0x10 = none → Safety.Takes (.createVolume u) s s) ∧ (∀ u, s.adminCmd u 0x11 = none → Safety.Takes (.deleteVolume u) s s) ∧
    (∀ u, s.adminCmd u 0x12 = none → Safety.Takes (.setVolumeHold u) s s) ∧ (∀ u h, s.adminCmd u 0x18 = none → Safety.Takes (.loadKey u h) s s) ∧
    (∀ u, s.adminCmd u 0x19 = none → Safety.Takes (.clearKey u) s s) ∧
    (s.serviceCmd 0x20 0 = none → Safety.Takes .tcQuery s s) ∧ (∀ env, s.serviceCmd 0x20 1 = none → Safety.Takes (.tcLoad env) s s) ∧
    (∀ x, s.serviceCmd 0x20 2 = none → Safety.Takes (.tcUnload x) s s) ∧ (s.serviceCmd 0x20 3 = none → Safety.Takes .tcPark s s) ∧
    (s.serviceCmd 0x20 4 = none → Safety.Takes .tcRelax s s) ∧ (s.serviceCmd 0x20 5 = none → Safety.Takes .tcOutOfService s s) ∧
    (s.serviceCmd 0x20 6 = none → Safety.Takes .tcReturnToService s s) ∧ (∀ x, s.serviceCmd 0x20 7 = none → Safety.Takes (.tcReset x) s s) ∧
    (s.serviceCmd 0x20 8 = none → Safety.Takes .tcEmergencyStop s s) ∧ (s.serviceCmd 0x20 9 = none → Safety.Takes .tcDiscardPending s s) ∧
    (s.serviceCmd 0x20 10 = none → Safety.Takes .tcReplacedMechanism s s) ∧
    (s.serviceCmd 0x21 0 = none → Safety.Takes .lsQuery s s) ∧ (s.serviceCmd 0x21 1 = none → Safety.Takes .lsQuarantine s s) ∧
    (s.serviceCmd 0x21 2 = none → Safety.Takes .lsQuarantineHeld s s) ∧ (s.serviceCmd 0x21 3 = none → Safety.Takes .lsRelease s s) ∧
    (s.serviceCmd 0x21 4 = none → Safety.Takes .lsReset s s) ∧
    (∀ x, s.imageCmd 0x28 = none → Safety.Takes (.imageWrite x) s s) ∧ (∀ f, s.imageCmd 0x29 = none → Safety.Takes (.imageActivate f) s s) ∧
    (s.adminCmd 0 0x30 = none → Safety.Takes .setPowerPolicy s s)

/-- EN of TQ_CFG (R80, R81): setting it brings the tenant into service once FUNC and HOST are set, with queue pair 0 from AQA, ASQ and ACQ, or sets
CFG_ERR where one is invalid; clearing it closes every pair, clears CFG_ERR and TQ_FRZ, and RDY follows once the fetched commands have ended.
Doorbells (R83, R84, R97): a tail in range makes the entries up to it available and nothing else; a head in range that consumes only posted
entries moves the CQ head and nothing else; every other value, and a doorbell of no pair, is ignored, counted and reported; a pair being deleted
takes no tail. In PS2 a doorbell, in PS3 any TLP, begins the exit. -/
def Obligations.TenantsAndDoorbells : Prop :=
  (∀ (s : State) (u : Nat),
    let z := s.tlp
    let x := s.tn u
    let a := fld x.aqa 7 0
    let b := fld x.aqa 23 16
    let pairs := ((Tab.set u { x with cfgEn := true } s.tenants).map fun p => p.2.qps.length).sum
    (s.reach u = false ∨ x.cfgEn = true → Safety.Takes (.tqCfgEnable u) s s) ∧
    (s.reach u = true → x.cfgEn = false →
      (x.rdy = true ∨ x.disabling = true ∨ x.func = false ∨ s.ready rdHOST = false →
        Safety.Takes (.tqCfgEnable u) s { z with tenants := Tab.set u { x with cfgEn := true } s.tenants }) ∧
      (x.rdy = false → x.disabling = false → x.func = true → s.ready rdHOST = true →
        ((a = 0 ∨ b = 0 ∨ x.asq = 0 ∨ x.acq = 0 ∨ 1024 ≤ pairs) → ∃ e, Safety.Takes (.tqCfgEnable u) s e ∧
          e = { z with tenants := e.tenants } ∧ e.tn u = { x with cfgEn := true, cfgErr := true } ∧ ∀ v, v ≠ u → e.tn v = s.tn v) ∧
        (a ≠ 0 → b ≠ 0 → x.asq ≠ 0 → x.acq ≠ 0 → pairs < 1024 →
          ∃ e, Safety.Takes (.tqCfgEnable u) s e ∧ e = { z with tenants := e.tenants } ∧ (∀ v, v ≠ u → e.tn v = s.tn v) ∧
          e.tn u = { x with cfgEn := true, rdy := true,
                            qps := [(0, { sqBase := x.asq, cqBase := x.acq, sqDepth := a + 1, cqDepth := b + 1 })] }))) ∧
    (s.reach u = false ∨ x.cfgEn = false → Safety.Takes (.tqCfgDisable u) s s) ∧
    (s.reach u = true → x.cfgEn = true →
      Safety.Settles (.tqCfgDisable u) s
        (State.each { z with tenants := Tab.set u { x with cfgEn := false, cfgErr := false, frz := {}, disabling := x.rdy } s.tenants } x.qps
          fun s p => s.closePair u p.1))) ∧
  (∀ (s : State) (u q : Nat) (value : BitVec 64) (entries : List SubEntry),
    let z := if s.pm.state = 2 then s.wake 1 else s.tlp
    let p := s.qp u q
    let v := fld value 15 0
    let n := (v + p.sqDepth - p.sqHead) % p.sqDepth
    let posted := (p.cqTail + p.cqDepth - p.cqHead) % p.cqDepth
    let used := (v + p.cqDepth - p.cqHead) % p.cqDepth
    (s.reach u = false → Safety.Takes (.sqTailDoorbell u q value entries) s s ∧ Safety.Takes (.cqHeadDoorbell u q value) s s) ∧
    (s.reach u = true → s.hasQp u q = true → (s.tn u).cfgEn = true → p.deleting = false → v < p.sqDepth → n ≠ 0 →
      ∃ e, Safety.Takes (.sqTailDoorbell u q value entries) s e ∧ e = { z with tenants := e.tenants } ∧
        (let r := p.ring.take n ++ (entries ++ List.replicate (n - p.ring.length) default).take (n - p.ring.length)
         e.tn u = { s.tn u with qps := Tab.set q { p with sqTail := v, ring := r } (s.tn u).qps }) ∧
        ∀ w, w ≠ u → e.tn w = s.tn w) ∧
    (s.reach u = true → s.hasQp u q = true → (s.tn u).cfgEn = true → p.deleting = false → v < p.sqDepth → n = 0 →
      Safety.Takes (.sqTailDoorbell u q value entries) s ((z.withdraw u q).modQp u q fun x => { x with sqTail := v, ring := [] })) ∧
    (s.reach u = true → s.hasQp u q = true → (s.tn u).cfgEn = true → p.deleting = true → Safety.Takes (.sqTailDoorbell u q value entries) s z) ∧
    (s.reach u = true → (s.hasQp u q = false ∨ (s.tn u).cfgEn = false ∨ (p.deleting = false ∧ p.sqDepth ≤ v)) →
      Safety.Takes (.sqTailDoorbell u q value entries) s (z.doorbellInvalid u q)) ∧
    (s.reach u = true → s.hasQp u q = true → ((s.tn u).cfgEn = true ∨ p.deleting = true) → v < p.cqDepth → used ≤ posted →
      ∃ e, Safety.Takes (.cqHeadDoorbell u q value) s e ∧ e = { z with tenants := e.tenants } ∧
        e.tn u = { s.tn u with qps := Tab.set q { p with cqHead := v } (s.tn u).qps } ∧ ∀ w, w ≠ u → e.tn w = s.tn w) ∧
    (s.reach u = true → (s.hasQp u q = false ∨ ((s.tn u).cfgEn = false ∧ p.deleting = false) ∨ p.cqDepth ≤ v ∨ posted < used) →
      Safety.Takes (.cqHeadDoorbell u q value) s (z.doorbellInvalid u q)))

/-- Errors of the host's rings and data, and the aggregation timer (R132, R384, R88): an SQ whose next entry cannot be read stops with that entry
unfetched, with an Error Log entry and an advisory AER report; the oldest fetched command of a queue that reads host memory, and whose turn it is, ends
with Host Data Error; the function's AER status registers record the error; after AGG_TIME the unsignalled completions are signalled. -/
def Obligations.HostErrorsAndAggregation : Prop :=
  ∀ (s : State) (u q : Nat) (err : ReadError),
    let p := s.qp u q
    (s.hasQp u q = false ∨ p.ring = [] ∨ p.lookahead = true ∨ p.stopped = true ∨ p.deleting = true → Safety.Takes (.ringAccessError u q err) s s) ∧
    (s.hasQp u q = true → p.ring ≠ [] → p.lookahead = false → p.stopped = false → p.deleting = false →
      ∃ z, z = { s with tenants := Tab.set u { s.tn u with qps := Tab.set q { p with stopped := true } (s.tn u).qps } s.tenants } ∧
        Safety.Takes (.ringAccessError u q err) s
          ((z.logError u Status.ringAccessError { sqid := q, detail := p.sqBase + BitVec.ofNat 64 (64 * p.sqHead) }).aerRead u err)) ∧
    (∀ addr, (s.fetched fun c => c.u == u && c.q == q && c.entry.readsHost && s.turnOf c) = none → Safety.Takes (.hostDataError u q err addr) s s) ∧
    (∀ addr c, (s.fetched fun c => c.u == u && c.q == q && c.entry.readsHost && s.turnOf c) = some c →
      Safety.Settles (.hostDataError u q err addr) s ((s.aerRead u err).complete c Status.hostDataError { detail := addr })) ∧
    (∀ z : State, ∃ e : State, z.aerRead u err = { z with tenants := e.tenants, out := z.out ++ [.aer u false] } ∧
      (e.tn u).fn.aerCor = (z.tn u).fn.aerCor ||| 0x2000 ∧
      (e.tn u).fn.aerUnc = (z.tn u).fn.aerUnc ||| (match err with
        | .poisoned => 0x1000
        | .timeout => 0x4000
        | .unsupportedRequest | .completerAbort => 0) ∧
      (e.tn u).qps = (z.tn u).qps ∧ ∀ v, v ≠ u → e.tn v = z.tn v) ∧
    (s.hasQp u q = true → p.aggTimer = true →
      ∃ z, z = { s with tenants := Tab.set u { s.tn u with qps := Tab.set q { p with unsignalled := 0, aggTimer := false } (s.tn u).qps } s.tenants } ∧
        Safety.Takes (.cqAggTimer u q) s (z.sendMsix u p.vector)) ∧
    ((s.hasQp u q = false ∨ p.aggTimer = false) → Safety.Takes (.cqAggTimer u q) s s)

/-- Arbitration (R89 to R91, R94, R98, R154 to R156, R167, R345): a decision of the admin queues serves the first that may be served at or after the
rotating pointer; one of the I/O queues, with the durable-ring bytes of the first entries noted, the new classes in force and the bursts of queues that
cannot go on ended, serves the Urgent level first in the same way while the reserve allows, else the tenants by deficit; PS2
and PS3 fetch nothing. The allocator refills the urgent reserve first, else decides the request at or after its pointer. -/
def Obligations.DecisionsServeByPriority : Prop :=
  (∀ (s : State) (admin : Bool) (ring : List (Nat × Nat × Nat)), 2 ≤ s.pm.state → Safety.Takes (.arbitrationDecision ⟨admin, ring⟩) s s) ∧
  (∀ (s : State) (ring : List (Nat × Nat × Nat)), s.pm.state < 2 →
    (s.adminReady = [] → Safety.Settles (.arbitrationDecision ⟨true, ring⟩) s s) ∧
    (∀ u, pickFrom s.arb.admin s.adminReady = some u →
      Safety.Settles (.arbitrationDecision ⟨true, ring⟩) s (State.fetch { s with arb := { s.arb with admin := (u + 1) % 16 } } u 0 .medium)) ∧
    (let z := (s.noteRing ring).applyClasses.endBursts
     let l := z.urgentReady.map fun x => 256 * x.1 + x.2
     (∀ k, l ≠ [] → z.reserveOk = true → pickFrom (256 * z.arb.urgTenant + z.arb.urgQueue) l = some k →
        Safety.Settles (.arbitrationDecision ⟨false, ring⟩) s
          (State.fetch { z with arb := { z.arb with urgTenant := (k + 1) / 256 % 16, urgQueue := (k + 1) % 256 } } (k / 256) (k % 256) .urgent)) ∧
     (l ≠ [] → z.reserveOk = false →
        Safety.Settles (.arbitrationDecision ⟨false, ring⟩) s
          (State.drrDecision { z with bm := { z.bm with waitUrg := min (2 ^ 32 - 1) (z.bm.waitUrg + 1) } })) ∧
     (l = [] → Safety.Settles (.arbitrationDecision ⟨false, ring⟩) s z.drrDecision))) ∧
  ∀ s : State,
    (s.ready rdBUFFER = false → Safety.Takes .allocatorDecision s s) ∧
    (s.ready rdBUFFER = true → s.bm.urgFree < 1024 → 0 < s.bm.sharedFree →
      ∃ m, (m = 1024 - s.bm.urgFree ∨ m = s.bm.sharedFree) ∧ m ≤ 1024 - s.bm.urgFree ∧ m ≤ s.bm.sharedFree ∧
        Safety.Takes .allocatorDecision s { s with bm := { s.bm with urgFree := s.bm.urgFree + m, sharedFree := s.bm.sharedFree - m } }) ∧
    (s.ready rdBUFFER = true → (1024 ≤ s.bm.urgFree ∨ s.bm.sharedFree = 0) →
      (pickFrom s.bm.pointer s.requests = none → Safety.Takes .allocatorDecision s s) ∧
      ∀ k e, pickFrom s.bm.pointer s.requests = some k → (s.qp (k / 256) (k % 256)).head? = some e →
        Safety.Takes .allocatorDecision s
          (State.decideRequest { s with bm := { s.bm with pointer := (k + 1) % 4096 } } (k / 256) (k % 256) e))

/-- A fetch takes the head entry of its pair (R85, R92, R98, R156): the SQ head moves past it and a CQ slot is reserved, the grant goes with the command
(that of an entry now under the Urgent class goes back first, and a read draws from the urgent reserve instead), an I/O queue that is not under the Urgent
class charges the entry's cost to its tenant, and the command joins the fetched ones before its checks at dispatch.
The checks at dispatch, in their order (R104, R75, R46): the opcode, the steward's commands, the units' readiness, the action; a command that
passes stands fetched and nothing else changes. -/
def Obligations.FetchAndDispatchInOrder : Prop :=
  (∀ (s : State) (u q : Nat) (cls : QClass) (e : SubEntry) (r : List SubEntry), s.hasQp u q = true → (s.qp u q).ring = e :: r →
    let urgent : Prop := q ≠ 0 ∧ cls = .urgent
    ∃ w : State, (urgent → w = s.withdraw u q) ∧ (¬ urgent → w = s) ∧
    ∃ (z : State) (c : Cmd), s.fetch u q cls = z.dispatch c ∧
      z = { w with tenants := z.tenants, arb := z.arb, stats := z.stats, bm := z.bm, pm := { s.pm with idle2 := 0 } } ∧
      z.arb = { s.arb with nextCmd := s.arb.nextCmd + 1, cmds := s.arb.cmds ++ [c] } ∧
      c.id = s.arb.nextCmd ∧ c.u = u ∧ c.q = q ∧ c.entry = e ∧ c.stage = .fetched ∧ c.cls = cls ∧
      c.sqhd = ((s.qp u q).sqHead + 1) % (s.qp u q).sqDepth ∧
      (¬ urgent → c.segs = (s.qp u q).grant.getD (0, 0) ∧ z.bm = { s.bm with urgFree := s.bm.urgFree - 0 }) ∧
      (urgent → c.segs.2 = 0 ∧ c.segs.1 ≤ 16 ∧ c.segs.1 ≤ w.bm.urgFree ∧ z.bm = { w.bm with urgFree := w.bm.urgFree - c.segs.1 }) ∧
      z.qp u q = { w.qp u q with sqHead := ((s.qp u q).sqHead + 1) % (s.qp u q).sqDepth, ring := r, lookahead := false, grant := none, bound := false,
                                 ringNeed := 0, reserved := (s.qp u q).reserved + 1 } ∧
      (q ≠ 0 → cls ≠ .urgent → (z.tn u).deficit = (s.tn u).deficit - (e.cost : Int)) ∧
      (q = 0 ∨ cls = .urgent → (z.tn u).deficit = (s.tn u).deficit) ∧
      (∀ v, v ≠ u → z.tn v = s.tn v) ∧ ∀ k, k ≠ q → z.qp u k = s.qp u k) ∧
  (∀ e : SubEntry, e.cost = max 4096 (roundUp e.len 4096)) ∧
  (∀ (s : State) (c : Cmd),
    let known := (if c.q = 0 then adminOps else ioOps).contains c.entry.op
    (known = false → s.dispatch c = s.complete c ⟨0, 1⟩ {}) ∧
    (known = true → stewardOnly c.u c.entry = true → s.dispatch c = s.complete c ⟨0, 4⟩ {}) ∧
    (known = true → stewardOnly c.u c.entry = false → ∀ b, s.missing c.entry = some b → s.dispatch c = s.failNotReady c b) ∧
    (known = true → stewardOnly c.u c.entry = false → s.missing c.entry = none → actionKnown c.entry = false → s.dispatch c = s.complete c ⟨0, 2⟩ {}) ∧
    (known = true → stewardOnly c.u c.entry = false → s.missing c.entry = none → actionKnown c.entry = true → s.dispatch c = s))

/-- Create Queue Pair (R82, R87, R105; Table 06-5): a free ID below MAX_QP, page-aligned rings of 2 to MAX_QDEPTH entries, a vector of the function
and a weight up to 256 make a pair with both rings empty; fields out of range, a third Urgent queue and a full table complete with their statuses
and make none (that a full table comes before the test of the ID is the model's reading, log 76).
Delete Queue Pair (R97): the pair closes at once, its unfetched entries withdrawn, and the command waits for the pair's fetched commands; the admin
pair, or a pair that does not exist, is Invalid Field.
Set Queue Class (R98, R99): the new class, weight (0 means 1) and burst (a power of two from 1 to 128) wait for the next decision; a third Urgent
queue is Urgent Limit, and the admin pair or a weight above 256 is Invalid Field; neither changes anything.
Restart Queues (R140): the freeze ends, every stopped SQ of the tenant goes on and TQ_FRZ clears; nothing else changes before the command
completes. -/
def Obligations.QueuePairCommands : Prop :=
  (∀ (s : State) (u : Nat) (c : Cmd), s.adminCmd u 0x02 = some c →
    let e := c.entry
    let q := fld e.w4 7 0
    let d := fld e.w4 43 32 + 1
    let ok : Prop := e.headOk false false = true ∧ e.noData = true ∧ fld e.w4 15 10 = 0 ∧ fld e.w4 31 28 = 0 ∧ fld e.w4 47 44 = 0 ∧ fld e.w4 63 54 = 0 ∧
      fld e.w7 63 32 = 0 ∧ q ≠ 0 ∧ fld e.w5 11 0 = 0 ∧ fld e.w6 11 0 = 0 ∧ 2 ≤ d ∧
      d ≤ (s.tenCfg u).maxQdepth ∧ fld e.w4 53 48 < (if u = 0 then 64 else 16) ∧ fld e.w4 24 16 ≤ 256
    let urgent3 : Prop := fld e.w4 9 8 = 3 ∧ 2 ≤ s.urgentOthers u q
    let full : Prop := (s.tenCfg u).maxQp ≤ (s.tn u).qps.length ∨ 1024 ≤ s.pairCount
    let idOk : Prop := full ∨ (s.hasQp u q = false ∧ q < (s.tenCfg u).maxQp)
    (¬ ok ∨ ¬ idOk → Safety.Takes (.createQueuePair u) s (s.complete c ⟨0, 2⟩ {})) ∧
    (ok → idOk → urgent3 → Safety.Takes (.createQueuePair u) s (s.complete c ⟨1, 2⟩ {})) ∧
    (ok → ¬ urgent3 → full → Safety.Takes (.createQueuePair u) s (s.complete c ⟨1, 1⟩ {})) ∧
    (ok → idOk → ¬ urgent3 → ¬ full →
      ∃ p : QueuePair, p.sqBase = e.w5 ∧ p.cqBase = e.w6 ∧ p.sqDepth = d ∧ p.cqDepth = d ∧ p.sqHead = 0 ∧ p.sqTail = 0 ∧ p.cqHead = 0 ∧ p.cqTail = 0 ∧
        p.ring = [] ∧ p.phase = true ∧ p.vector = fld e.w4 53 48 ∧ p.aggCount = fld e.w7 15 0 ∧ p.aggTime = fld e.w7 31 16 ∧
        p.sched = schedOf e.w4 ∧
        Safety.Takes (.createQueuePair u) s
          (State.succeed { s with tenants := Tab.set u { s.tn u with qps := Tab.set q p (s.tn u).qps } s.tenants } c))) ∧
  (∀ (s : State) (u : Nat) (c : Cmd), s.adminCmd u 0x03 = some c →
    let e := c.entry
    let q := fld e.w4 7 0
    let ok : Prop := e.headOk false false = true ∧ e.noData = true ∧ fld e.w4 63 8 = 0 ∧ e.w5 = 0 ∧ e.w6 = 0 ∧ e.w7 = 0 ∧ q ≠ 0 ∧ s.hasQp u q = true
    (¬ ok → Safety.Takes (.deleteQueuePair u) s (s.complete c ⟨0, 2⟩ {})) ∧
    (ok → Safety.Settles (.deleteQueuePair u) s ((s.closePair u q).setStage c.id (.deletingQp q)))) ∧
  (∀ (s : State) (u : Nat) (c : Cmd), s.adminCmd u 0x04 = some c →
    let e := c.entry
    let q := fld e.w4 7 0
    let ok : Prop := e.headOk false false = true ∧ e.noData = true ∧ fld e.w4 15 10 = 0 ∧ fld e.w4 63 28 = 0 ∧ e.w5 = 0 ∧ e.w6 = 0 ∧ e.w7 = 0 ∧
      q ≠ 0 ∧ s.hasQp u q = true ∧ fld e.w4 24 16 ≤ 256
    let urgent3 : Prop := fld e.w4 9 8 = 3 ∧ 2 ≤ s.urgentOthers u q
    (¬ ok → Safety.Takes (.setQueueClass u) s (s.complete c ⟨0, 2⟩ {})) ∧
    (ok → urgent3 → Safety.Takes (.setQueueClass u) s (s.complete c ⟨1, 2⟩ {})) ∧
    (ok → ¬ urgent3 →
      ∃ n : QSched, n.weight = (if fld e.w4 24 16 = 0 then 1 else fld e.w4 24 16) ∧ n.burst = 2 ^ fld e.w4 27 25 ∧
        (fld e.w4 9 8 = 0 → n.cls = .medium) ∧ (fld e.w4 9 8 = 1 → n.cls = .high) ∧ (fld e.w4 9 8 = 2 → n.cls = .low) ∧ (fld e.w4 9 8 = 3 → n.cls = .urgent) ∧
        Safety.Takes (.setQueueClass u) s
          (State.succeed { s with tenants := Tab.set u { s.tn u with qps := Tab.set q { s.qp u q with next := some n } (s.tn u).qps } s.tenants } c))) ∧
  (∀ (s : State) (u : Nat) (c : Cmd), s.adminCmd u 0x08 = some c →
    let e := c.entry
    let ok : Prop := e.headOk false false = true ∧ e.noData = true ∧ e.w4 = 0 ∧ e.w5 = 0 ∧ e.w6 = 0 ∧ e.w7 = 0
    (¬ ok → Safety.Takes (.restartQueues u) s (s.complete c ⟨0, 2⟩ {})) ∧
    (ok → ∃ z : State, Safety.Takes (.restartQueues u) s (z.succeed c) ∧ z = { s with tenants := z.tenants } ∧ (z.tn u).frz = ({} : Freeze) ∧
      (∀ q, s.hasQp u q = true → z.qp u q = { s.qp u q with stopped := false }) ∧ ∀ v, v ≠ u → z.tn v = s.tn v))

/-! ### Admin commands -/

/-- Identify (R126): 4,096 bytes of the view that CNS names; a short buffer, an unknown CNS or a transport that does not exist is Invalid Field. -/
def Obligations.IdentifyReturnsItsView : Prop :=
  ∀ (s : State) (u : Nat) (h : HostData) (c0 : Cmd), s.adminCmd u 0x01 = some c0 →
    let c : Cmd := { c0 with data := h }
    let e := c.entry
    let cns := fld e.w4 7 0
    let t := fld e.w4 15 8
    let ok : Prop := e.headOk false false = true ∧ e.dataOk h = true ∧ 4096 ≤ e.len ∧ fld e.w4 63 32 = 0 ∧ e.w5 = 0 ∧ e.w6 = 0 ∧ e.w7 = 0 ∧ cns ≤ 4 ∧
      (cns = 2 → s.tpExists t = true) ∧ (cns ≠ 2 → t = 0) ∧ (cns ≠ 3 → fld e.w4 31 16 = 0)
    (¬ ok → Safety.Takes (.identify u h) s (s.complete c ⟨0, 2⟩ {})) ∧
    (ok → ∃ b, b.length = 4096 ∧ (cns = 0 → b = s.identDevice) ∧ (cns = 1 → b = s.identTenant u) ∧ (cns = 2 → b = s.identTransport t) ∧
      (cns = 3 → b = s.identVolumes u (fld e.w4 31 16)) ∧ (cns = 4 → b = s.identDurations) ∧
      Safety.Takes (.identify u h) s
        (State.succeed { s with out := s.out ++ [.hostData u 0 e.cid b] } c))

/-- Get Log (R138, R147, R342): the bytes of the log from the offset on, as many as LEN holds, with the log's length as result; a whole read consumes
a log that is consumed; an LID or transport that the tenant may not read is Invalid Field; during the copy of a snapshot its read waits, and
nothing changes.
A whole read consumes the Deferred Error, Lost Record, Pruning, Snapshot, Anchor and Orphan logs (Table 07-3): their entries go and their counts
of lost entries and numbering stand; the Error and Health logs keep all. No other tenant's log changes. -/
def Obligations.LogsReturnAndConsume : Prop :=
  (∀ (s : State) (u : Nat) (h : HostData) (c0 : Cmd), s.adminCmd u 0x05 = some c0 →
    let c : Cmd := { c0 with data := h }
    let e := c.entry
    let lid := fld e.w4 7 0
    let off := fld e.w4 63 32
    let ok : Prop := e.headOk false false = true ∧ c.outOk = true ∧ fld e.w4 31 16 = 0 ∧ e.w5 = 0 ∧ e.w6 = 0 ∧ e.w7 = 0 ∧ off % 8 = 0 ∧ e.len % 8 = 0
    (¬ ok → Safety.Takes (.getLog u h) s (s.complete c ⟨0, 2⟩ {})) ∧
    (ok → lid = 5 → s.stats.holding ≠ none → Safety.Takes (.getLog u h) s s) ∧
    (ok → (lid ≠ 5 ∨ s.stats.holding = none) → s.logBytes u lid (fld e.w4 15 8) = none → Safety.Takes (.getLog u h) s (s.complete c ⟨0, 2⟩ {})) ∧
    (ok → (lid ≠ 5 ∨ s.stats.holding = none) → ∀ b, s.logBytes u lid (fld e.w4 15 8) = some b →
      let data := (b.drop off).take e.len
      let z : State := { s with out := if data = [] then s.out else s.out ++ [.hostData u 0 e.cid data] }
      let z1 := if off = 0 ∧ b.length ≤ e.len then z.consumeLog u lid else z
      Safety.Takes (.getLog u h) s (State.succeed { z1 with freeCtr := if lid = 7 then z1.freeCtr + 1 else z1.freeCtr } c (BitVec.ofNat 64 b.length)))) ∧
  (∀ (s : State) (u : Nat),
    (s.consumeLog u 2).tn u = { s.tn u with defLog := { (s.tn u).defLog with entries := [] } } ∧
    (s.consumeLog u 4).tn u = { s.tn u with pruneLog := { (s.tn u).pruneLog with entries := [] } } ∧
    Tab.get {} (s.consumeLog u 3).sachet.lostRec u = { (Tab.get ({} : Log) s.sachet.lostRec u) with entries := [] } ∧
    Tab.get {} (s.consumeLog u 6).sachet.anchors u = { (Tab.get ({} : Log) s.sachet.anchors u) with entries := [] } ∧
    Tab.get {} (s.consumeLog u 8).sachet.orphan u = { (Tab.get ({} : Log) s.sachet.orphan u) with entries := [] } ∧
    (s.stats.snap ≠ none → (s.consumeLog u 5).tn u = { s.tn u with snapRead := true }) ∧
    s.consumeLog u 1 = s ∧ s.consumeLog u 7 = s ∧
    (∀ lid v, v ≠ u → (s.consumeLog u lid).tn v = s.tn v ∧ Tab.get {} (s.consumeLog u lid).sachet.lostRec v = Tab.get ({} : Log) s.sachet.lostRec v ∧
      Tab.get {} (s.consumeLog u lid).sachet.anchors v = Tab.get ({} : Log) s.sachet.anchors v ∧
      Tab.get {} (s.consumeLog u lid).sachet.orphan v = Tab.get ({} : Log) s.sachet.orphan v) ∧
    ∀ lid, s.consumeLog u lid = { s with tenants := (s.consumeLog u lid).tenants, sachet := (s.consumeLog u lid).sachet })

/-- Get Features answers the value in force and Set Features the previous one (R106): a value in range overrides it, and an unknown FID, a unit that
does not exist or a value out of range is Invalid Field and changes nothing.
The overrides (Table 06-4, R68): WEIGHT 1 to 256, PRUNE_EN, FREEZE, VERIFY_V 0 to 6, MAX_SPEED up to the image's, EPOCH_MS 1 to 60,000 (from the
next boundary); each changes its own setting alone. -/
def Obligations.FeaturesAnswerAndOverride : Prop :=
  (∀ (s : State) (u : Nat) (c : Cmd),
    let e := c.entry
    let fid := fld e.w4 7 0
    let v := s.feature fid (fld e.w4 11 8) (fld e.w4 23 16) (fld e.w5 15 0)
    (s.adminCmd u 0x07 = some c →
      (s.featureOk e = true → ((fid = 0x50 → e.w5.toNat < 512) ∧ (fid ≠ 0x50 → e.w5 = 0)) → Safety.Takes (.getFeatures u) s (s.succeed c v)) ∧
      (¬ (s.featureOk e = true ∧ (fid = 0x50 → e.w5.toNat < 512) ∧ (fid ≠ 0x50 → e.w5 = 0)) →
        Safety.Takes (.getFeatures u) s (s.complete c ⟨0, 2⟩ {}))) ∧
    (s.adminCmd u 0x06 = some c →
      (∀ z, s.featureOk e = true → s.setFeature fid (fld e.w4 11 8) (fld e.w4 23 16) e.w5 = some z → Safety.Takes (.setFeatures u) s (z.succeed c v)) ∧
      (s.featureOk e = false ∨ s.setFeature fid (fld e.w4 11 8) (fld e.w4 23 16) e.w5 = none →
        Safety.Takes (.setFeatures u) s (s.complete c ⟨0, 2⟩ {})))) ∧
  (∀ (s : State) (u t : Nat) (v : Word),
    let n := v.toNat
    let put : Settings → State := fun g => { s with image := { s.image with cfg := g } }
    let ten : TenCfg → State := fun x => put { s.cfg with ten := Tab.set u x s.cfg.ten }
    let trn : TrnCfg → State := fun x => put { s.cfg with trn := Tab.set t x s.cfg.trn }
    (1 ≤ n → n ≤ 256 → s.setFeature 0x10 u t v = some (ten { s.tenCfg u with weight := n })) ∧
    (n ≤ 1 → s.setFeature 0x11 u t v = some (ten { s.tenCfg u with pruneEn := n == 1 })) ∧
    (n ≤ 1 → s.setFeature 0x12 u t v = some (ten { s.tenCfg u with freeze := n == 1 })) ∧
    (n ≤ 6 → s.setFeature 0x30 u t v = some (trn { s.trnCfg t with verifyV := n })) ∧
    (n ≤ (Tab.get ({} : TrnCfg) s.image.img.trn t).maxSpeed → ∃ z, s.setFeature 0x32 u t v = some z ∧ z.trnCfg t = { s.trnCfg t with maxSpeed := n } ∧
      z.cfg = { s.cfg with trn := z.cfg.trn } ∧ (∀ k, k ≠ t → z.trnCfg k = s.trnCfg k) ∧ (z.tp t).gov.maxUse ≠ none) ∧
    (1 ≤ n → n ≤ 60000 → s.setFeature 0x40 u t v =
      some { s with stats := { s.stats with nextMs := n }, image := { s.image with cfg := { s.cfg with epochMs := n } } }) ∧
    ((n = 0 ∨ 256 < n) → s.setFeature 0x10 u t v = none) ∧ (1 < n → s.setFeature 0x11 u t v = none ∧ s.setFeature 0x12 u t v = none) ∧
    (6 < n → s.setFeature 0x30 u t v = none) ∧ ((Tab.get ({} : TrnCfg) s.image.img.trn t).maxSpeed < n → s.setFeature 0x32 u t v = none) ∧
    ((n = 0 ∨ 60000 < n) → s.setFeature 0x40 u t v = none))

/-- Create Volume and its open form (R107, R108): a new volume takes a free directory entry under its UUID and comes online under the lowest free
handle; an existing one of the tenant is opened; every refusal of Table 06-6 completes with its status and changes nothing else.
Delete Volume and Set Volume Hold (R109, R111, R114): a volume of the tenant without a hold is closed to new commands and waits for the earlier
ones; a held one is Volume Held; the hold itself is committed to the directory before its command completes. -/
def Obligations.VolumesAreCreatedDeletedAndHeld : Prop :=
  (∀ (s : State) (u : Nat) (c : Cmd), s.adminCmd u 0x10 = some c →
    let e := c.entry
    let t := fld e.w4 7 0
    let uuid := uuidOf e.w5 e.w6
    let d := s.dir t
    let slot := (List.range 64).find? fun k => !(Tab.get default d.vols k).used
    let ok : Prop := e.headOk false false = true ∧ e.noData = true ∧ fld e.w4 15 11 = 0 ∧ fld e.w4 63 32 = 0 ∧ e.w7 = 0 ∧ (e.w5 ≠ 0 ∨ e.w6 ≠ 0) ∧
      s.tpExists t = true ∧ (bit e.w4 8 = true ∨ fld e.w4 31 16 ≤ 3650)
    let room : Nat → Prop := fun h => s.freeHandle = some h ∧ (s.volsOfTenant u).length < (s.tenCfg u).maxVol ∧ slot ≠ none
    (¬ ok → Safety.Takes (.createVolume u) s (s.complete c ⟨0, 2⟩ {})) ∧
    (ok → (s.tp t).ld.dirUnreadable = true → Safety.Takes (.createVolume u) s (s.complete c ⟨2, 8⟩ { detail := BitVec.ofNat 64 t })) ∧
    (ok → (s.tp t).ld.dirUnreadable = false →
      (s.freeHandle = none ∨ (s.tenCfg u).maxVol ≤ (s.volsOfTenant u).length ∨ slot = none →
        Safety.Takes (.createVolume u) s (s.complete c ⟨1, 3⟩ {})) ∧
      (∀ h, room h → bit e.w4 8 = true → dirFind d uuid = none → Safety.Takes (.createVolume u) s (s.complete c ⟨0, 3⟩ {})) ∧
      (∀ h k v, room h → bit e.w4 8 = true → dirFind d uuid = some (k, v) → (v.deleted = true ∨ v.tenant ≠ u ∨ s.volAt t k ≠ none) →
        Safety.Takes (.createVolume u) s (s.complete c ⟨0, 3⟩ {})) ∧
      (∀ h k v, room h → bit e.w4 8 = true → dirFind d uuid = some (k, v) → v.deleted = false → v.tenant = u → s.volAt t k = none →
        Safety.Takes (.createVolume u) s (s.bringOnline c h t k v)) ∧
      (∀ h k, room h → bit e.w4 8 = false → slot = some k → dirFind d uuid ≠ none → Safety.Takes (.createVolume u) s (s.complete c ⟨1, 4⟩ {})) ∧
      (∀ h k, room h → bit e.w4 8 = false → slot = some k → dirFind d uuid = none →
        ∃ v : DirVolume, v.uuid = uuid ∧ v.tenant = u ∧ v.encrypt = bit e.w4 9 ∧ v.strict = bit e.w4 10 ∧ v.used = true ∧ v.deleted = false ∧ v.hold = false ∧
          v.retention = fld e.w4 31 16 ∧ v.nextSeq = 1 ∧ v.v = 0 ∧ v.kcv = 0 ∧ v.chainN = 0 ∧ v.h = chainStart uuid ∧
          Safety.Takes (.createVolume u) s ((s.modDir t fun d => { d with vols := Tab.set k v d.vols }).bringOnline c h t k v)))) ∧
  (∀ (s : State) (u : Nat) (c : Cmd),
    let e := c.entry
    let del : Prop := e.headOk false true = true ∧ e.noData = true ∧ e.w4 = 0 ∧ e.w5 = 0 ∧ e.w6 = 0 ∧ e.w7 = 0
    let hld : Prop := e.headOk false true = true ∧ e.noData = true ∧ fld e.w4 63 1 = 0 ∧ e.w5 = 0 ∧ e.w6 = 0 ∧ e.w7 = 0
    (s.adminCmd u 0x11 = some c →
      (¬ del → Safety.Takes (.deleteVolume u) s (s.complete c ⟨0, 2⟩ {})) ∧
      (del → s.ownVol c = none → Safety.Takes (.deleteVolume u) s (s.complete c ⟨0, 3⟩ {})) ∧
      (∀ w, del → s.ownVol c = some w → w.encrypt = true → w.kcv = 0 → Safety.Takes (.deleteVolume u) s (s.complete c ⟨1, 8⟩ {})) ∧
      (∀ w, del → s.ownVol c = some w → (w.encrypt = false ∨ w.kcv ≠ 0) → w.hold = true → Safety.Takes (.deleteVolume u) s (s.complete c ⟨1, 5⟩ {})) ∧
      (∀ w, del → s.ownVol c = some w → (w.encrypt = false ∨ w.kcv ≠ 0) → w.hold = false →
        Safety.Settles (.deleteVolume u) s
          (State.setStage { s with vols := Tab.set e.vol { w with deleting := some c.id, report := none } s.vols } c.id (.waitingFor (s.earlier c))))) ∧
    (s.adminCmd u 0x12 = some c →
      (¬ hld → Safety.Takes (.setVolumeHold u) s (s.complete c ⟨0, 2⟩ {})) ∧
      (hld → s.ownVol c = none → Safety.Takes (.setVolumeHold u) s (s.complete c ⟨0, 3⟩ {})) ∧
      (∀ w, hld → s.ownVol c = some w → w.encrypt = true → w.kcv = 0 → Safety.Takes (.setVolumeHold u) s (s.complete c ⟨1, 8⟩ {})) ∧
      (∀ w, hld → s.ownVol c = some w → (w.encrypt = false ∨ w.kcv ≠ 0) →
        ∃ z, z = (State.commitDir (State.syncDir { s with vols := Tab.set e.vol { w with hold := bit e.w4 0 } s.vols } e.vol) w.transport) ∧
          Safety.Takes (.setVolumeHold u) s ((z.tryResume w.transport).succeed c))))

/-- Load Key and Clear Key (R113, R114): an encrypted volume without a key takes the 32 bytes into a free slot of the tenant, records the KCV of the
first key and refuses another; Clear Key marks the slot and waits for the volume's earlier commands. -/
def Obligations.KeysLoadAndClear : Prop :=
  ∀ (s : State) (u : Nat) (c : Cmd),
    let e := c.entry
    let clr : Prop := e.headOk false true = true ∧ e.noData = true ∧ e.w4 = 0 ∧ e.w5 = 0 ∧ e.w6 = 0 ∧ e.w7 = 0
    let ld : Prop := e.headOk false true = true ∧ e.dtype = 1 ∧ e.len = 32 ∧ e.w4 = 0 ∧ e.w5 = 0 ∧ e.w6 = 0 ∧ e.w7 = 0
    (s.adminCmd u 0x18 = some c → ∀ h : HostData,
      let key := hostBytes e h
      (¬ ld → Safety.Takes (.loadKey u h) s (s.complete c ⟨0, 2⟩ {})) ∧
      (ld → s.ownVol c = none → Safety.Takes (.loadKey u h) s (s.complete c ⟨0, 3⟩ {})) ∧
      (∀ w, ld → s.ownVol c = some w →
        (w.encrypt = false → Safety.Takes (.loadKey u h) s (s.complete c ⟨0, 2⟩ {})) ∧
        (w.encrypt = true → w.key = some key → Safety.Takes (.loadKey u h) s (s.succeed c)) ∧
        (∀ k, w.encrypt = true → w.key = some k → k ≠ key → Safety.Takes (.loadKey u h) s (s.complete c ⟨1, 7⟩ {})) ∧
        (w.encrypt = true → w.key = none → (s.tenCfg u).keySlots ≤ s.keysUsed u → Safety.Takes (.loadKey u h) s (s.complete c ⟨1, 6⟩ {})) ∧
        (w.encrypt = true → w.key = none → s.keysUsed u < (s.tenCfg u).keySlots →
          (w.kcv ≠ 0 → w.kcv ≠ keyCheck key w.uuid → Safety.Takes (.loadKey u h) s (s.complete c ⟨1, 7⟩ {})) ∧
          (let z : State := { s with vols := Tab.set e.vol { w with key := some key, kcv := keyCheck key w.uuid, clearing := none } s.vols }
           (w.kcv ≠ 0 → w.kcv = keyCheck key w.uuid →
             Safety.Settles (.loadKey u h) s ((State.tryReplay w.replay.length e.vol z).succeed c)) ∧
           (w.kcv = 0 →
             Safety.Settles (.loadKey u h) s ((State.tryReplay w.replay.length e.vol ((z.syncDir e.vol).commitDir w.transport)).succeed c)))))) ∧
    (s.adminCmd u 0x19 = some c →
      (¬ clr → Safety.Takes (.clearKey u) s (s.complete c ⟨0, 2⟩ {})) ∧
      (clr → s.ownVol c = none → Safety.Takes (.clearKey u) s (s.complete c ⟨0, 3⟩ {})) ∧
      (∀ w, clr → s.ownVol c = some w → w.encrypt = false → Safety.Takes (.clearKey u) s (s.complete c ⟨0, 2⟩ {})) ∧
      (∀ w, clr → s.ownVol c = some w → w.encrypt = true → w.kcv = 0 → Safety.Takes (.clearKey u) s (s.complete c ⟨1, 8⟩ {})) ∧
      (∀ w, clr → s.ownVol c = some w → w.encrypt = true → w.kcv ≠ 0 →
        Safety.Settles (.clearKey u) s
          (State.setStage { s with vols := Tab.set e.vol { w with clearing := some c.id } s.vols } c.id (.waitingFor (s.earlier c)))))

/-! ### I/O commands -/

/-- The checks that every I/O command shares, in their order (R104, R109, R134, R114): its fields, a volume online that the tenant owns and for which no
earlier Delete Volume was dispatched, a deferred report, which the command carries in place of being executed, and the key of an encrypted volume that
has never had one. With no such command at the head of its order nothing is executed. Once the part is quiesced nothing is admitted (R162): a mark and a
write change nothing, but for a write with Durable records that had found Sachet ready before Sachet failed, which ends with Device Fatal (R145). -/
def Obligations.IoCommandsCheckInOrder : Prop :=
  (∀ (s : State) (u q : Nat) (h : HostData),
    ∀ x ∈ ([(.writeRecords u q h, 0x81, h, Cmd.writeOk), (.readRecords u q h, 0x82, h, Cmd.readOk), (.locate u q, 0x83, ⟨[], []⟩, Cmd.locateOk),
        (.writeMark u q, 0x84, ⟨[], []⟩, Cmd.markOk), (.flush u q, 0x85, ⟨[], []⟩, Cmd.flushOk), (.readPosition u q h, 0x86, h, Cmd.positionOk),
        (.verifyRange u q, 0x87, ⟨[], []⟩, Cmd.verifyOk)] : List (Instr × Nat × HostData × (Cmd → Bool))),
      (s.dev.quiesced = 0 ∨ (x.2.1 ≠ 0x81 ∧ x.2.1 ≠ 0x84)) →
      (s.ioCmd u q x.2.1 = none → Safety.Settles x.1 s s) ∧
      ∀ c0, s.ioCmd u q x.2.1 = some c0 →
        let c : Cmd := { c0 with data := x.2.2.1 }
        (x.2.2.2 c = false → Safety.Settles x.1 s (s.complete c ⟨0, 2⟩ {})) ∧
        (x.2.2.2 c = true → s.ownVol c = none → Safety.Settles x.1 s (s.complete c ⟨0, 3⟩ {})) ∧
        (∀ w a b, x.2.2.2 c = true → s.ownVol c = some w → w.report = some (a, b) →
          Safety.Settles x.1 s (State.complete { s with vols := Tab.set c.entry.vol { w with report := none } s.vols } c ⟨2, 6⟩
            { result := mkw [(0, a % 2 ^ 48)], detail := BitVec.ofNat 64 w.transport, first := a, last := b })) ∧
        (∀ w, x.2.2.2 c = true → s.ownVol c = some w → w.report = none → w.encrypt = true → w.kcv = 0 →
          Safety.Settles x.1 s (s.complete c ⟨1, 8⟩ {}))) ∧
  ∀ (s : State) (u q : Nat) (h : HostData), s.dev.quiesced ≠ 0 →
    Safety.Takes (.writeMark u q) s s ∧
    (s.ioCmd u q 0x81 = none → Safety.Settles (.writeRecords u q h) s s) ∧
    ∀ c, s.ioCmd u q 0x81 = some c →
      let durable := ∃ rs, parseRecords (fld c.entry.w4 12 0) (hostBytes c.entry h) = some rs ∧ ∃ r ∈ rs, recDurable r = true
      (¬ (durable ∧ s.dev.fatal.getLsbD 2 = true ∧ c.sachet = true) → Safety.Settles (.writeRecords u q h) s s) ∧
      (durable → s.dev.fatal.getLsbD 2 = true → c.sachet = true → Safety.Settles (.writeRecords u q h) s (s.complete c Status.deviceFatal {}))

/-- Write Records (R112, R114, R116, R155; Tables 06-7 and 03-5): a list that cannot be sealed, whose records do not fill LEN, whose Durable records found
Sachet not ready at the dispatch or could never fit the ring is refused before any record is admitted, as is one for which the cartridge has no room; one
that must wait for room, ring space, a replay or a waiting gap entry changes nothing; else its records enter the buffer and it completes with the first
number, the count of pruned records and the level. -/
def Obligations.WriteRecordsAdmitsWholeLists : Prop :=
  ∀ (s : State) (u q : Nat) (h : HostData) (c0 : Cmd) (w : Volume), s.ioCmd u q 0x81 = some c0 → s.dev.quiesced = 0 →
    let c : Cmd := { c0 with data := h }
    let n := fld c.entry.w4 12 0
    let sealable := w.encrypt = false ∨ (w.key ≠ none ∧ ∀ d, w.clearing = some d → c.id ≤ d)
    c.writeOk = true → s.ownVol c = some w → w.report = none → (w.encrypt = false ∨ w.kcv ≠ 0) →
    (¬ sealable → Safety.Settles (.writeRecords u q h) s (s.complete c ⟨1, 8⟩ {})) ∧
    (sealable → parseRecords n (hostBytes c.entry h) = none → Safety.Settles (.writeRecords u q h) s (s.complete c ⟨0, 2⟩ {})) ∧
    (∀ rs, sealable → parseRecords n (hostBytes c.entry h) = some rs →
      let durOk : Prop := (∀ r ∈ rs, recDurable r = false) ∨ c.sachet = true
      (¬ durOk → Safety.Settles (.writeRecords u q h) s (s.failNotReady c rdSACHET)) ∧
      (durOk → 16711680 < ringNeed rs → Safety.Settles (.writeRecords u q h) s (s.complete c ⟨0, 2⟩ {})) ∧
      (durOk → ringNeed rs ≤ 16711680 → s.cartFull w.transport c.entry.len = true → Safety.Settles (.writeRecords u q h) s (s.failFull c w.transport)) ∧
      (durOk → ringNeed rs ≤ 16711680 → s.cartFull w.transport c.entry.len = false →
        let kept := rs.filter fun r => !prunes (s.pruneLevel c) (recClass r)
        let blocked := w.replay ≠ [] ∨ w.gapWait ≠ [] ∨ 16711680 < s.sachet.ringUsed + s.ringClaims c + ringNeed kept
        (blocked ∨ s.putList c w rs = none → Safety.Settles (.writeRecords u q h) s s) ∧
        ∀ z, ¬ blocked → s.putList c w rs = some z →
          (z.gapsPlaced c.entry.vol = false → Safety.Settles (.writeRecords u q h) s s) ∧
          (z.gapsPlaced c.entry.vol = true → Safety.Settles (.writeRecords u q h) s
            (z.succeed c (mkw [(0, w.nextSeq % 2 ^ 48), (48, rs.length - kept.length), (61, s.pruneLevel c)])))))

/-- An admitted record (R107, R169, R237): it takes its volume's next sequence number, alone advances it, and stands in the buffer under that number with
W3 replaced by it and every other byte as the host wrote it, but for bit 52 of W0, which only the formatter sets: the stored copy has 0 there (the
model's choice, log 77). -/
def Obligations.AdmissionNumbersRecords : Prop :=
  ∀ (s : State) (c : Cmd) (t : Nat) (r : Bytes) (w : Volume), 32 ≤ r.length →
    (s.closeGap c.entry.vol (recTag r)).vol? c.entry.vol = some w →
      ∃ w', (s.takeRecord c t r).vol? c.entry.vol = some w' ∧ w'.nextSeq = w.nextSeq + 1 ∧ w'.uuid = w.uuid ∧
        w'.marks = w.marks + (if bit (wordAt r 0) 51 = true then 1 else 0) ∧
        ∃ b ∈ w'.recs, b.seq = some w.nextSeq ∧
          (bit (wordAt r 0) 52 = false → b.bytes = r.take 24 ++ leBytes 8 w.nextSeq ++ r.drop 32) ∧
          b.bytes = r.take 6 ++ [r.getD 6 0 &&& 0xEF] ++ (r.take 24).drop 7 ++ leBytes 8 w.nextSeq ++ r.drop 32

/-- Write Mark appends a mark with one sequence number, LENGTH 0, MARK 1 and CLASS 0 (R118), and Flush cuts the open block, sends the waiting chain entries
of a volume whose stream stands in datasets (R186), and waits until what was admitted is verified, or with CUT_ONLY does not wait (R125): a mark with no
room, or behind a replay or a waiting gap entry, waits and changes nothing; a full cartridge refuses it; a Flush on a transport Out of Service with data
unverified ends at once. -/
def Obligations.MarksAndFlushes : Prop :=
  ∀ (s : State) (u q : Nat) (c0 : Cmd) (w : Volume),
    let c : Cmd := { c0 with data := ⟨[], []⟩ }
    let h := c.entry.vol
    let t := w.transport
    let r := markBytes c.entry
    s.ownVol c = some w → w.report = none → (w.encrypt = false ∨ w.kcv ≠ 0) →
    (s.ioCmd u q 0x84 = some c0 → s.dev.quiesced = 0 → c.markOk = true →
      (fld (wordAt r 0) 31 0 = 0 ∧ bit (wordAt r 0) 51 = true ∧ fld (wordAt r 0) 49 48 = 0 ∧ r.length = 32) ∧
      (s.cartFull t 0 = true → Safety.Settles (.writeMark u q) s (s.failFull c t)) ∧
      (s.cartFull t 0 = false → (w.replay ≠ [] ∨ w.gapWait ≠ []) → Safety.Settles (.writeMark u q) s s) ∧
      (s.cartFull t 0 = false → w.replay = [] → w.gapWait = [] →
        let s1 := s.closeGap h (recTag r)
        (s1.roomFor h 32 = none → Safety.Settles (.writeMark u q) s s) ∧
        ∀ s2, s1.roomFor h 32 = some s2 →
          let s3 := ((s2.offer t 32).takeRecord c t r).admitted c
          (s1.gapsPlaced h = true → s3.gapsPlaced h = true →
            Safety.Settles (.writeMark u q) s (s3.succeed c (mkw [(0, w.nextSeq % 2 ^ 48)]))) ∧
          ((s1.gapsPlaced h = false ∨ s3.gapsPlaced h = false) → Safety.Settles (.writeMark u q) s s))) ∧
    (s.ioCmd u q 0x85 = some c0 → c.flushOk = true →
      let s0 := s.cut h 2
      let placed := ((s0.vol? h).map Volume.allPlaced).getD false
      let s1 := if placed = true then s0.flushChain h else s0
      (bit c.entry.w4 0 = true → Safety.Settles (.flush u q) s (s0.succeed c (mkw [(0, w.verified % 2 ^ 48)]))) ∧
      (bit c.entry.w4 0 = false → (s1.mot t).state = .outOfService → w.verified < c.seqAt →
        Safety.Settles (.flush u q) s (s1.complete c ⟨2, 2⟩ { result := mkw [(0, w.verified % 2 ^ 48)], detail := BitVec.ofNat 64 t })) ∧
      (bit c.entry.w4 0 = false → ((s1.mot t).state ≠ .outOfService ∨ c.seqAt ≤ w.verified) →
        Safety.Settles (.flush u q) s (s1.setStage c.id (.flushing c.seqAt))))

/-- Read Records and Verify Range (R114, R119, R120, R125, R135): a range outside the assigned numbers, or below what reused groups still hold, is Invalid
Field; records still to be replayed hold the command back; a number recorded lost fails a read at once; one whose records the command has pinned, or the
buffer still holds, ends at once; else it waits for its excursion with what it has pinned, a Verify Range with a lost number among them. -/
def Obligations.ReadsAndVerifiesOfARange : Prop :=
  ∀ (s : State) (u q : Nat) (h : HostData) (c0 : Cmd) (w : Volume),
    let sealable := w.encrypt = false ∨ (w.key ≠ none ∧ ∀ d, w.clearing = some d → c0.id ≤ d)
    (s.ioCmd u q 0x82 = some c0 →
      let c : Cmd := { c0 with data := h }
      let first := c.entry.w4.toNat
      let replayed := (w.asked c.entry).any fun k => w.replay.any fun r => r.1 == k
      let held := (c.pinNow w).holds (w.range first (fld c.entry.w5 12 0) (bit c.entry.w5 16))
      c.readOk = true → s.ownVol c = some w → w.report = none → (w.encrypt = false ∨ w.kcv ≠ 0) →
      (¬ sealable → Safety.Settles (.readRecords u q h) s (s.complete c ⟨1, 8⟩ {})) ∧
      (sealable → (first = 0 ∨ w.nextSeq ≤ first) → Safety.Settles (.readRecords u q h) s (s.complete c ⟨0, 2⟩ {})) ∧
      (sealable → 0 < first → first < w.nextSeq →
        (∀ m, s.givenUp w first = some m → Safety.Settles (.readRecords u q h) s (s.complete c ⟨0, 2⟩ { result := mkw [(0, m % 2 ^ 48)] })) ∧
        (s.givenUp w first = none → replayed = true → Safety.Settles (.readRecords u q h) s s) ∧
        (∀ k, s.givenUp w first = none → replayed = false → s.lostIn w c.entry = some k →
          Safety.Settles (.readRecords u q h) s (s.complete c Status.recordsLost
            { result := mkw [(0, k % 2 ^ 48), (48, 0)], detail := BitVec.ofNat 64 w.transport, first := k, last := k })) ∧
        (s.givenUp w first = none → replayed = false → s.lostIn w c.entry = none → held = true →
          Safety.Settles (.readRecords u q h) s (s.deliverRead c w (c.pinNow w).pinned w.gapAfter (c.pinNow w).pins.length false)) ∧
        (s.givenUp w first = none → replayed = false → s.lostIn w c.entry = none → held = false →
          Safety.Settles (.readRecords u q h) s (s.queueRead (c.pinNow w) w)))) ∧
    (s.ioCmd u q 0x87 = some c0 →
      let c : Cmd := { c0 with data := ⟨[], []⟩ }
      let a := c.entry.w4.toNat
      let b := c.entry.w5.toNat
      let ks := w.asked c.entry
      let bad := a = 0 ∨ b < a ∨ w.nextSeq ≤ b ∨ 4096 < b + 1 - a ∨ 1073741824 < s.rangeBytes w ks
      let replayed := ks.any fun k => w.replay.any fun r => r.1 == k
      let held := (c.pinNow w).holds ks = true ∧ s.lostIn w c.entry = none
      c.verifyOk = true → s.ownVol c = some w → w.report = none → (w.encrypt = false ∨ w.kcv ≠ 0) →
      (¬ sealable → Safety.Settles (.verifyRange u q) s (s.complete c ⟨1, 8⟩ {})) ∧
      (sealable → bad → Safety.Settles (.verifyRange u q) s (s.complete c ⟨0, 2⟩ {})) ∧
      (sealable → ¬ bad →
        (replayed = true → Safety.Settles (.verifyRange u q) s s) ∧
        (replayed = false → held → Safety.Settles (.verifyRange u q) s (s.succeed c (mkw [(0, ks.length)]))) ∧
        (replayed = false → ¬ held → Safety.Settles (.verifyRange u q) s (s.queueRead (c.pinNow w) w)))) ∧
    (∀ c : Cmd,
      (s.needSets w (w.wanted c) ≠ [] → (s.mot w.transport).state = .outOfService →
        s.queueRead c w = s.complete c ⟨2, 2⟩ { detail := BitVec.ofNat 64 w.transport }) ∧
      (s.needSets w (w.wanted c) ≠ [] → (s.mot w.transport).state ≠ .outOfService →
        s.queueRead c w = { s with arb := { s.arb with cmds := s.arb.cmds.map fun x =>
          if x.id = c.id then { x with data := ⟨[], []⟩, pins := c.pins, stage := .reading false } else x } }) ∧
      (s.needSets w (w.wanted c) = [] → ∃ r, s.queueRead c w = s.complete c Status.recordsLost r))

/-- Locate and Read Position (R124, R125; Table 06-11): a Locate of a number or mark that is not there is Invalid Field; on a transport with data
pending or flowing in its target stands as a hint and it ends at once with HINT; on one Out of Service it ends so (R49); else it waits for the tape. Read Position answers the 64 bytes of
the volume's positions. -/
def Obligations.LocateHintsOrMovesAndPositionAnswers : Prop :=
  ∀ (s : State) (u q : Nat) (h : HostData) (c0 : Cmd) (w : Volume),
    (s.ioCmd u q 0x83 = some c0 →
      let c : Cmd := { c0 with data := ⟨[], []⟩ }
      let mode := fld c.entry.w4 1 0
      let k := w.locateSeq c.entry
      let noRec := mode = 0 ∧ (c.entry.w5 = 0 ∨ w.nextSeq ≤ k)
      let noMark := mode = 1 ∧ (c.entry.w5 = 0 ∨ w.markSeqs.length < c.entry.w5.toNat)
      c.locateOk = true → s.ownVol c = some w → w.report = none → (w.encrypt = false ∨ w.kcv ≠ 0) →
      (noRec → Safety.Settles (.locate u q) s (s.complete c ⟨0, 2⟩ {})) ∧
      (¬ noRec → noMark → Safety.Settles (.locate u q) s (s.complete c ⟨0, 2⟩ { result := mkw [(0, w.marks % 2 ^ 48)] })) ∧
      (¬ noRec → ¬ noMark →
        ((s.pendingOf w.transport ≠ 0 ∨ 0 < s.inflow w.transport) →
          Safety.Settles (.locate u q) s
            (State.succeed { s with vols := Tab.set c.entry.vol { w with hint := some k } s.vols } c (mkw [(0, k % 2 ^ 48), (48, 1)]))) ∧
        (s.pendingOf w.transport = 0 → ¬ 0 < s.inflow w.transport → (s.mot w.transport).state = .outOfService →
          Safety.Settles (.locate u q) s (s.complete c ⟨2, 2⟩ { detail := BitVec.ofNat 64 w.transport })) ∧
        (s.pendingOf w.transport = 0 → ¬ 0 < s.inflow w.transport → (s.mot w.transport).state ≠ .outOfService →
          Safety.Settles (.locate u q) s (s.setStage c.id (.reading false))))) ∧
    (s.ioCmd u q 0x86 = some c0 →
      let c : Cmd := { c0 with data := h }
      c.positionOk = true → s.ownVol c = some w → w.report = none → (w.encrypt = false ∨ w.kcv ≠ 0) →
      let f := s.fmt w.transport
      let b := wordsBytes [BitVec.ofNat 64 w.nextSeq, BitVec.ofNat 64 w.acked, BitVec.ofNat 64 w.verified, BitVec.ofNat 64 w.pendingBytes,
        BitVec.ofNat 64 w.pruned, BitVec.ofNat 64 w.marks, mkw [(0, f.wrap), (16, f.wrap / 8)], 0]
      b.length = 64 ∧ Safety.Settles (.readPosition u q h) s (State.succeed { s with out := s.out ++ [.hostData c.u c.q c.entry.cid b] } c))

/-! ### Transports -/

/-- A Transport Control whose fields are out of range, or whose action the transport's state does not allow (Table 15-5), completes with Invalid
Field and changes nothing else.
The actions that end at once (Table 15-5, R321): Query changes nothing; Relax takes tension off and applies the brakes; Emergency Stop stops the tape under
cause 7; Discard Pending loses every admitted record of the transport's volumes, which its result counts; Replaced Mechanism clears the start/stop
count. Each answers the transport's state after it. -/
def Obligations.TransportControlRefusesOrEndsAtOnce : Prop :=
  (∀ (s : State) (c : Cmd) (env : LoadEnv) (oenv : Option LoadEnv) (dir : DirRead) (ok : Bool) (disc : Discards),
    let t := c.unit
    let st := (s.mot t).state
    let good : Prop := c.entry.headOk false false = true ∧ c.entry.noData = true ∧ fld c.entry.w4 63 16 = 0 ∧ c.entry.w5 = 0 ∧ c.entry.w6 = 0 ∧
      c.entry.w7 = 0 ∧ t < 8
    ∀ x ∈ ([(.tcQuery, 0, true), (.tcLoad env, 1, st == .unloaded && (s.mot t).cartPresent && !(s.tp t).ld.resetting),
        (.tcUnload ⟨dir, ok⟩, 2, st == .relaxed || st == .parked || st == .streaming || st == .locating || st == .outOfService),
        (.tcPark, 3, st == .relaxed), (.tcRelax, 4, st == .parked),
        (.tcOutOfService, 5, st == .relaxed || st == .parked || st == .streaming || st == .locating || st == .stopping),
        (.tcReturnToService, 6, st == .outOfService && (s.mot t).oosCause == 1), (.tcReset ⟨oenv, disc⟩, 7, st != .absent), (.tcEmergencyStop, 8, st != .absent),
        (.tcDiscardPending, 9, st == .outOfService), (.tcReplacedMechanism, 10, st == .unloaded)] : List (Instr × Nat × Bool)),
      s.serviceCmd 0x20 x.2.1 = some c → (¬ good ∨ x.2.2 = false) → Safety.Settles x.1 s (s.complete c ⟨0, 2⟩ {})) ∧
  (∀ (s : State) (c : Cmd),
    let t := c.unit
    let st := (s.mot t).state
    let awake : State := if s.pm.state = 1 then s.wake 4 else s
    c.tcOk = true →
    (s.serviceCmd 0x20 0 = some c → Safety.Settles .tcQuery s (s.succeed c (s.tcResult t false 0))) ∧
    (s.serviceCmd 0x20 4 = some c → st = .parked →
      ∃ z, z = awake.relax t ∧ Safety.Settles .tcRelax s (z.succeed c (z.tcResult t false 0))) ∧
    (s.serviceCmd 0x20 8 = some c → st ≠ .absent →
      ∃ z, z = awake.emergencyStop t 7 ∧ Safety.Settles .tcEmergencyStop s (z.succeed c (z.tcResult t false 0))) ∧
    (s.serviceCmd 0x20 9 = some c → st = .outOfService →
      ∃ z, z = s.each (s.volsOf t) (fun s p => (s.loseRecords p.1 3 true fun _ => true).modVol p.1 fun w => w.dropStream) ∧
        Safety.Settles .tcDiscardPending s
          (z.succeed c (z.tcResult t false (((s.volsOf t).map fun p => (p.2.recs.filter fun r => r.seq.isSome).length).sum)))) ∧
    (s.serviceCmd 0x20 10 = some c → st = .unloaded →
      ∃ z, z = State.lifeCkpt { s with sachet := { s.sachet with ss := Tab.set t 0 s.sachet.ss } } ∧ Tab.get 0 z.sachet.ss t = 0 ∧
        Safety.Settles .tcReplacedMechanism s (z.succeed c (z.tcResult t false 0))))

/-- The actions that wait for their end (Table 15-5, R42, R319, R320, R315): each marks its command as waiting, wakes PS1, and begins: Load runs the
load sequence (R348: in a thermal shutdown the load waits), Unload begins the unload, Park and Return to Service release the brakes toward tension hold, Out of Service orders the stop with
cause 1, and Reset stops a moving transport first, in a load or an unload too. -/
def Obligations.TransportControlBeginsAndWaits : Prop :=
  ∀ (s : State) (c : Cmd),
    let t := c.unit
    let st := (s.mot t).state
    let wait := s.setStage c.id .service
    let awake : State := if wait.pm.state = 1 then wait.wake 4 else wait
    c.tcOk = true →
    (∀ env, s.serviceCmd 0x20 1 = some c → st = .unloaded → (s.mot t).cartPresent = true → (s.tp t).ld.resetting = false →
      Safety.Settles (.tcLoad env) s (wait.runLoad t env)) ∧
    (∀ dir ok, s.serviceCmd 0x20 2 = some c → (st = .relaxed ∨ st = .parked ∨ st = .streaming ∨ st = .locating ∨ st = .outOfService) →
      Safety.Settles (.tcUnload ⟨dir, ok⟩) s (awake.beginUnload t dir ok)) ∧
    (s.serviceCmd 0x20 3 = some c → st = .relaxed →
      Safety.Settles .tcPark s ((awake.brakesOff t).modMot t fun m => { m with starting := some .park })) ∧
    (s.serviceCmd 0x20 5 = some c → (st = .relaxed ∨ st = .parked ∨ st = .streaming ∨ st = .locating ∨ st = .stopping) →
      Safety.Settles .tcOutOfService s (awake.orderStop t (.outOfService 1))) ∧
    (s.serviceCmd 0x20 6 = some c → st = .outOfService → (s.mot t).oosCause = 1 →
      Safety.Settles .tcReturnToService s
        (((((awake.modMot t fun m => { m with oosCause := 0 }).setTState t .relaxed).brakesOff t).modMot t fun m => { m with starting := some .park }))) ∧
    (∀ env disc, s.serviceCmd 0x20 7 = some c → st ≠ .absent →
      ∃ z, z = awake.modLd t (fun l => { l with resetting := true, env := env, disc := disc }) ∧
        ((st = .streaming ∨ st = .locating ∨ st = .stopping) → Safety.Settles (.tcReset ⟨env, disc⟩) s (z.orderStop t .reload)) ∧
        ((st = .loading ∨ st = .unloading) → Safety.Settles (.tcReset ⟨env, disc⟩) s (z.orderedStop t .reload)) ∧
        (st.moving = false → Safety.Settles (.tcReset ⟨env, disc⟩) s (z.resetTp t)))

/-- Out of Service (R315, R325, R332; Table 15-1): the state, no motion and no target, servo to be acquired anew, TRANSPORT 0, and the first cause that required it,
which a later one does not replace.
The front-end's own stops (R283, R284, R325): a notify of either is answered and ends PS2; after an autonomous stop the transport is Relaxed, or
Out of Service where its stop had a cause; a fault of the power stage stops a moving tape in emergency, else takes the transport out of service. -/
def Obligations.OutOfServiceAndFrontEndStops : Prop :=
  (∀ (s : State) (t cause : Nat), t < 8 →
    let m := ((s.enterOos t cause).mot t)
    m.state = .outOfService ∧ m.oosCause = (if (s.mot t).state = .outOfService then (s.mot t).oosCause else cause) ∧ m.vel = 0 ∧ m.target = none ∧
      m.servoAcquired = false ∧ ((s.mot t).state ≠ .outOfService → (s.enterOos t cause).ready (rdTRANSPORT t) = false)) ∧
  (∀ (s : State) (t : Nat),
    let told : State := if s.pm.state = 2 then (s.emit (.management t 6 0 true 0 [])).wake 5 else s.emit (.management t 6 0 true 0 [])
    (s.tpExists t = false → Safety.Takes (.autonomousStop t) s s ∧ Safety.Takes (.powerStageFault t) s s) ∧
    (s.tpExists t = true →
      ((s.mot t).state.moving = true → Safety.Settles (.powerStageFault t) s ((told.raise (evTp t 27)).emergencyStop t 9)) ∧
      ((s.mot t).state.moving = false → Safety.Settles (.powerStageFault t) s ((told.raise (evTp t 27)).enterOos t 9)) ∧
      ∃ z, z = (if (s.tp t).fe.asDone then told else (told.modFe t fun x => { x with asDone := true }).raise (evTp t 28)) ∧
        ((s.mot t).state.moving = false → Safety.Settles (.autonomousStop t) s z) ∧
        ((s.mot t).state.moving = true →
          ∃ z2, z2 = (((z.cutWrites t).modSol t fun x => { x with energ := 0, pullin := none, wait := [] }).modMot t fun m =>
              { m with vel := 0, target := none, pendingTarget := none, servoAcquired := false, starting := none }) ∧
            (∀ c, (s.mot t).stopGoal = .outOfService c → Safety.Settles (.autonomousStop t) s (z2.enterOos t c)) ∧
            ((s.mot t).stopGoal = .reload → Safety.Settles (.autonomousStop t) s (z2.resetTp t)) ∧
            ((s.mot t).stopGoal = .parked →
              Safety.Settles (.autonomousStop t) s (((z2.modFmt t fun f => { f with closing := false }).dropExc t).setTState t .relaxed)))))

/-- The load's rows (R217, R319, R320): a step over its bound unthreads the tape, applies the brakes, raises Load Failed and leaves the transport
Unloaded; the scan's end mounts the directory that the datasets gave; the latch that was withdrawn is released. Elsewhere the rows change nothing but
for the commands that can then end.
The cartridge's rows (R284, R319, R320, R333, R347): a notify is answered, its event raised, and the presence set or cleared; with AUTOLOAD an
Unloaded transport out of a reset loads; a removal releases the latch and ends the load that an Unloaded transport still owes; the unload timer begins an unload of a transport Relaxed for UNLOAD_S and ends
PS1 or PS2. -/
def Obligations.LoadsAndCartridges : Prop :=
  ((∀ (s : State) (t : Nat),
    ((s.mot t).state ≠ .loading ∨ (s.tp t).ld.scan = true → Safety.Takes (.loadStepTimeout t) s s) ∧
    ((s.mot t).state = .loading → (s.tp t).ld.scan = false →
      ∃ z, z = ((((if (s.mot t).threaded then s.startMotion t else s).reelsOff t).brakesOn t).modMot t fun m =>
            { m with threaded := false, servoAcquired := false }).modLd t
              (fun l => { l with step := 0, scan := false, cart := if l.scan then none else l.cart, resetting := false }) ∧
        Safety.Settles (.loadStepTimeout t) s ((z.raise (evTp t 2)).setTState t .unloaded))) ∧
  (∀ (s : State) (t : Nat) (c : Cartridge), (s.tp t).ld.cart = some c →
    ((s.tp t).ld.scan = false → Safety.Takes (.scanComplete t) s s) ∧
    ((s.tp t).ld.scan = true →
      Safety.Settles (.scanComplete t) s ((s.modLd t fun l => { l with dir := scanDir c l.dir }).mountDir t true))) ∧
  (∀ (s : State) (t : Nat), (s.tp t).ld.cart = none → Safety.Takes (.scanComplete t) s s) ∧
  ∀ (s : State) (t : Nat),
    ((s.tp t).ld.latchOut = false → Safety.Settles (.latchRelease t) s s) ∧
    ((s.tp t).ld.latchOut = true → Safety.Settles (.latchRelease t) s ((s.solRelease t [2]).modLd t fun l => { l with latchOut := false }))) ∧
  ((∀ (s : State) (t : Nat) (env : LoadEnv),
    (s.tpExists t = false → Safety.Takes (.cartridgeInserted t env) s s ∧ Safety.Takes (.cartridgeRemoved t) s s) ∧
    (s.tpExists t = true →
      (let z := ((s.notified t).raise (evTp t 4)).modMot t fun m => { m with cartPresent := true }
       let loads : Prop := (s.mot t).state = .unloaded ∧ (s.mot t).autoload = true ∧ (s.tp t).ld.resetting = false
       (loads → Safety.Settles (.cartridgeInserted t env) s (z.runLoad t env)) ∧
       (¬ loads → Safety.Settles (.cartridgeInserted t env) s z)) ∧
      (let z0 := ((s.notified t).raise (evTp t 5)).modMot t fun m => { m with cartPresent := false }
       let z := if (s.mot t).state = .unloaded ∧ (s.tp t).ld.env ≠ none then z0.modLd t fun l => { l with env := none, resetting := false } else z0
       Safety.Settles (.cartridgeRemoved t) s
         (if (z.tp t).ld.latchOut then (z.solRelease t [2]).modLd t fun l => { l with latchOut := false } else z)))) ∧
  ∀ (s : State) (t : Nat) (dir : DirRead),
    let lim := fld s.cfg.pwr1 31 16
    let due : Prop := s.tpExists t = true ∧ (s.mot t).state = .relaxed ∧ (s.mot t).starting = none ∧ lim ≠ 0 ∧ lim * 1000 ≤ (s.mot t).idleMs
    (¬ due → Safety.Takes (.unloadTimer t dir) s s) ∧
    (due → Safety.Settles (.unloadTimer t dir) s
      ((if s.pm.state = 2 then s.wake 8 else if s.pm.state = 1 then s.wake 4 else s).beginUnload t dir true)))

/-- Excursions (R122, R123, R329): the next one starts when a read may leave a transport at rest or streaming; one that waits departs once the
transport's group is done or its gate is down; on the outbound leg an Urgent read may take the target; back at the append point writing resumes
where it was, or the transport parks. -/
def Obligations.ExcursionsLeaveAndReturn : Prop :=
  ∀ (s : State) (t : Nat),
    let m := s.mot t
    (m.exc = none →
      (((m.state = .parked ∨ m.state = .relaxed ∨ m.state = .streaming) ∧ m.starting = none ∧ s.mayMove t = true) →
        (s.excursionReads t = [] → Safety.Takes (.excursionStart t) s s) ∧
        ∀ c r, s.excursionReads t = c :: r → Safety.Settles (.excursionStart t) s (s.startExcursion t ((c :: r).map (·.id)))) ∧
      (¬ ((m.state = .parked ∨ m.state = .relaxed ∨ m.state = .streaming) ∧ m.starting = none ∧ s.mayMove t = true) →
        Safety.Takes (.excursionStart t) s s) ∧
      Safety.Takes (.excursionEnd t) s s) ∧
    (∀ e, m.exc = some e →
      (m.state = .streaming → ((s.fmt t).done = true ∨ (s.tp t).gu.gate = false) →
        Safety.Settles (.excursionStart t) s ((((s.gateClose t 5).cutWrites t).modFmt t fun f => { f with closing := false }).depart t e.cmds)) ∧
      (m.state = .streaming → (s.fmt t).done = false → (s.tp t).gu.gate = true → Safety.Settles (.excursionStart t) s s) ∧
      (m.state = .locating → e.atTarget = false → Safety.Settles (.excursionStart t) s (s.replaceTarget t e)) ∧
      (m.state ≠ .streaming → (m.state ≠ .locating ∨ e.atTarget = true) → Safety.Takes (.excursionStart t) s s) ∧
      (let z := s.modMot t fun m => { m with exc := none, pendingTarget := none }
       (e.atTarget = true → m.state = .locating → ¬ ((e.resume = true ∨ z.startDue t = true) ∧ z.mayMove t = true ∧ z.writable t = true) →
          Safety.Settles (.excursionEnd t) s (z.park t)) ∧
       (e.atTarget = true → m.state = .locating → (e.resume = true ∨ z.startDue t = true) → z.mayMove t = true → z.writable t = true →
          ∃ i, i = (if (s.tp t).gov.burst && !(s.tp t).gov.drain then 0 else min (s.tp t).gov.goal (z.ceiling t)) ∧
            let z2 := z.modGov t fun g => { g with speed := i }
            Safety.Settles (.excursionEnd t) s
              (((z2.aim t { x := z2.appendX t, dir := (s.fmt t).wrap % 2 == 0, speed := 20 + 5 * i, kind := 2 }).modMot t fun m =>
                { m with vel := wrapSign (s.fmt t).wrap * velOf i }).setTState t .streaming)) ∧
       ((e.atTarget = false ∨ m.state ≠ .locating) → Safety.Takes (.excursionEnd t) s s)))

/-- A target reached (R314, R124; Table 15-10): the tape is at it in its direction at its speed; at a read target the read channel's settings act (R244) and the excursion's reads end; at a resume
target writing begins; a Locate ends parked; with no target nothing changes. -/
def Obligations.TargetsEndTheirLegs : Prop :=
  ∀ (s : State) (t : Nat) (o : ReadOutcome),
    ((s.mot t).target = none → Safety.Takes (.targetReached t o) s s) ∧
    ∀ g, (s.mot t).target = some g →
      let here := s.modMot t fun m => { m with x := g.x, vel := if g.speed = 0 then 0 else (if g.dir then 1 else -1) * ((200 * g.speed : Nat) : Int) }
      (∀ e, g.kind = 1 → (s.mot t).exc = some e → Safety.Settles (.targetReached t o) s
        ((here.modRc t fun r => { r with cfgUsed := r.cfg, targetUsed := r.target }).reachRead t e o)) ∧
      (g.kind = 2 → Safety.Settles (.targetReached t o) s
        ((here.modFmt t fun f => { f with writing := true }).modMot t fun m => { m with target := none })) ∧
      (∀ e, g.kind = 3 → (s.mot t).exc = some e → Safety.Settles (.targetReached t o) s (here.endLocate t e)) ∧
      ((g.kind = 0 ∨ 3 < g.kind ∨ ((g.kind = 1 ∨ g.kind = 3) ∧ (s.mot t).exc = none)) → Safety.Takes (.targetReached t o) s s)

/-- Stops, turnarounds, the envelope and bursts (R232, R315 to R318): a stop leads to its goal; a turnaround moves to the next wrap, or stops where the cartridge has none; outside −11.5 m
to 1,011.5 m the tape stops in emergency under cause 8; a burst starts when one is due and stops with P_t at BSTOP and nothing that keeps it. -/
def Obligations.StopsTurnsAndBursts : Prop :=
  ∀ (s : State) (t : Nat),
    let m := s.mot t
    (m.state ≠ .stopping → Safety.Takes (.stopComplete t) s s) ∧
    (m.state = .stopping →
      (∀ c, m.stopGoal = .outOfService c → Safety.Settles (.stopComplete t) s (s.enterOos t c)) ∧
      (m.stopGoal = .reload → Safety.Settles (.stopComplete t) s (s.resetTp t)) ∧
      (m.stopGoal = .parked →
        let z := s.park t
        Safety.Settles (.stopComplete t) s (if 0 < m.attempts ∧ z.mayMove t = true ∧ z.writable t = true then z.startWrite t else z))) ∧
    ((m.state.usable = false ∨ (-115000 ≤ m.x ∧ m.x ≤ 10115000)) → Safety.Takes (.envelopeExit t) s s) ∧
    (m.state.usable = true → (m.x < -115000 ∨ 10115000 < m.x) → Safety.Settles (.envelopeExit t) s (s.emergencyStop t 8)) ∧
    (¬ ((m.state = .streaming ∨ m.state = .unloading) ∧ ∃ g, m.target = some g ∧ g.kind = 4) → Safety.Takes (.turnaround t) s s) ∧
    (∀ g, (m.state = .streaming ∨ m.state = .unloading) → m.target = some g → g.kind = 4 →
      ∃ z, z = (if (s.fmt t).packWrap = (s.fmt t).wrap then s else s.toPackWrap t) ∧
        ((z.fmt t).halted = true →
          Safety.Settles (.turnaround t) s ((z.modMot t fun m => { m with target := none }).controlledStop t .parked)) ∧
        ((z.fmt t).halted = false → Safety.Settles (.turnaround t) s
          (((z.startMotion t).modMot t fun m =>
            { m with x := z.appendX t, vel := wrapSign (z.fmt t).wrap * velOf (z.tp t).gov.speed, target := none, servoAcquired := false }).modFmt t fun f =>
              { f with writing := true }))) ∧
    (let due : Prop := (m.state = .parked ∨ m.state = .relaxed) ∧ s.startDue t = true ∧ s.mayMove t = true ∧ s.writable t = true ∧ s.cart? t ≠ none
     (due → Safety.Settles (.burstStart t) s (s.beginWrite t)) ∧ (¬ due → Safety.Takes (.burstStart t) s s)) ∧
    (let due : Prop := (s.tp t).gov.burst = true ∧ m.state = .streaming ∧ m.exc = none ∧ (s.fmt t).closing = false ∧ s.flushWaits t = false ∧
       s.pendingOf t ≤ (s.trnCfg t).bstop * 1048576 ∧ (∀ d ∈ (s.fmt t).sets, d.retryDue = false)
     (due → Safety.Settles (.burstStop t) s (s.orderStop t .parked)) ∧ (¬ due → Safety.Takes (.burstStop t) s s))

/-- The solenoid sequencer (R322, R323): SOL_RESTATE sends the state in force again; the end of a pull-in leaves its solenoid in hold and starts the next
that waits; an energised brake in hold that SENSE does not report released drops every solenoid, is counted and reported, and takes the transport
Out of Service with cause 6, its gate closed where the tape moved. -/
def Obligations.SolenoidsPullHoldAndFault : Prop :=
  ∀ (s : State) (t : Nat),
    let x := (s.tp t).sol
    (s.tpExists t = true → Safety.Takes (.solRestate t) s (s.sendSol t)) ∧ (s.tpExists t = false → Safety.Takes (.solRestate t) s s) ∧
    (x.pullin = none → Safety.Takes (.pullinEnd t) s s) ∧
    (x.pullin ≠ none →
      let z := (s.modSol t fun x => { x with pullin := none }).sendSol t
      (x.wait = [] → Safety.Takes (.pullinEnd t) s z) ∧
      ∀ k r, x.wait = k :: r → Safety.Takes (.pullinEnd t) s
        (((z.modSol t fun x => { x with wait := r }).modSol t fun x => { x with energ := setBit x.energ k true, pullin := some k }).sendSol t)) ∧
    ∀ brake,
      let due : Prop := brake < 2 ∧ x.energ.getLsbD brake = true ∧ x.pullin ≠ some brake ∧ x.solSt.getLsbD brake = false
      (¬ due → Safety.Takes (.brakeFault t brake) s s) ∧
      (due →
        let z := ((s.solRelease t [0, 1, 2]).modSol t fun x => { x with brakeFaults := wrapAdd x.brakeFaults 1 }).raise (evTp t 21)
        Safety.Settles (.brakeFault t brake) s (if (s.mot t).state.moving then (z.gateClose t 5).enterOos t 6 else z.enterOos t 6))

/-! ### Lanes and channels -/

/-- Training (R23, R269, R273, R274, R276, R285, R288; Tables 13-6 and 13-7). A lane that has not trained in 150 ms is Down (or stays Quarantined) with its event, and
trains again 1 s later from step 1 unless held or refused; training words move the taps; the front-end is accepted or the lane is refused; a
trained lane is Up, or Quarantined where its partner carries the transport. On any other lane these rows change nothing. -/
def Obligations.TrainingEndsUpOrDown : Prop :=
  ∀ (s : State) (n : Nat),
    let l := s.ln n
    let trains : Prop := s.lanePresent n = true ∧ l.trained = false ∧ (l.state = .training ∨ l.state = .quarantined)
    (¬ trains → ∀ slot w0 w1 w2 w3, Safety.Takes (.trainingTimeout n) s s ∧ Safety.Takes (.trainWord n slot) s s ∧ Safety.Takes (.ident n w0 w1 w2 w3) s s) ∧
    (trains → Safety.Takes (.trainingTimeout n) s
      ((s.modLn n fun l => { l with state := if l.state = .quarantined then .quarantined else .down, feReady := false, locked := false }).raise (evLane n 2))) ∧
    (let retries : Prop := s.lanePresent n = true ∧ l.held = false ∧ l.mismatch = false ∧ (l.state = .down ∨ (l.state = .quarantined ∧ l.trained = false))
     (retries → Safety.Takes (.trainingRetry n) s (s.trainStart n)) ∧ (¬ retries → Safety.Takes (.trainingRetry n) s s)) ∧
    (trains → ∀ slot w, l.rxInv = false → slotWord slot = some w →
      let z := s.modLn n fun l => { l with badRun := 0, goodRun := min 8 (l.goodRun + 1), locked := l.locked || decide (8 ≤ l.goodRun + 1) }
      (xType w ≠ xtTrain → Safety.Takes (.trainWord n slot) s z) ∧
      (xType w = xtTrain →
        let p := xPayload w
        let pre := fld p 3 0
        let base := if pre ≤ 10 ∧ pre ≠ l.trainReq % 16 then presetTaps pre else (l.tapPre, l.tapPost)
        (fld p 7 0 = l.trainReq →
          Safety.Takes (.trainWord n slot) s (z.modLn n fun l => { l with feReady := l.feReady || bit p 9, txInv := bit p 10 })) ∧
        (fld p 7 0 ≠ l.trainReq →
          Safety.Takes (.trainWord n slot) s (z.modLn n fun l =>
            { l with preset := if pre ≤ 10 then pre else l.preset, tapPre := base.1 + tapStep (fld p 5 4), tapPost := base.2 + tapStep (fld p 7 6),
                     trainReq := fld p 7 0, feReady := l.feReady || bit p 9, txInv := bit p 10 })))) ∧
    (trains → ∀ slot w, l.rxInv = false → slotWord slot = none → slotWord (invSlot slot) = some w → xType w ≠ xtTrain →
      Safety.Takes (.trainWord n slot) s (s.modLn n fun l =>
        { l with rxInv := true, badRun := 0, goodRun := min 8 (l.goodRun + 1), locked := l.locked || decide (8 ≤ l.goodRun + 1) })) ∧
    (trains → ∀ w0 w1 w2 w3,
      let z := s.modLn n fun l => { l with feId := BitVec.ofNat 32 (fld w0 47 16) }
      (l.feReady = false → Safety.Takes (.ident n w0 w1 w2 w3) s s) ∧
      (l.feReady = true → s.identOk n w0 w1 w2 = true → Safety.Takes (.ident n w0 w1 w2 w3) s (z.modLn n fun l => { l with trained := true })) ∧
      (l.feReady = true → s.identOk n w0 w1 w2 = false →
        Safety.Takes (.ident n w0 w1 w2 w3) s ((z.modLn n fun l => { l with state := .down, mismatch := true }).raise (evLane n 3)))) ∧
    (let ends : Prop := s.lanePresent n = true ∧ l.state = .training ∧ l.trained = true ∧ l.held = false
     let carried : Prop := l.needClean = true ∧ ∃ p, s.partner n = some p ∧ ((s.ln p).state = .up ∨ (s.ln p).state = .rejoining)
     (¬ ends → Safety.Takes (.laneUp n) s s) ∧
     (ends → carried → Safety.Takes (.laneUp n) s (s.modLn n fun l => { l with state := .quarantined })) ∧
     (ends → ¬ carried → Safety.Settles (.laneUp n) s ((s.laneEnterUp n).reload (s.tpOf n))))

/-- Failure, quarantine and return of a lane (R262, R275, R279, R281, R282, R286, R290; Table 13-9): an uncorrectable codeword is counted, and the 17th in
2^20 periods fails the lane, as does the loss of slot lock, the words its FIFOs discard counted (R36); a front-end's QUARANTINE of an Up lane with an Up
partner quarantines it, and of two in one period the lower lane's stands; a trained
Quarantined lane proposes to rejoin, is Up at the ACK of its switch frame, and is Quarantined again after three proposals; a Lane Service
Reset ends at its time limit; the write clock is sent while it runs and once when it stops. -/
def Obligations.LanesFailAndRejoin : Prop :=
  (∀ (s : State) (n period : Nat) (disc : Discards),
    (s.lanePresent n = false → Safety.Takes (.uncorrectableCodeword n ⟨period, disc⟩) s s ∧ Safety.Takes (.slotLockLoss ⟨n, disc⟩) s s) ∧
    (s.lanePresent n = true →
      let keep := ((s.ln n).window.filter fun p => decide (period < p + 1048576)) ++ [period]
      let z := (s.modLn n fun l => { l with uncorr := wrapAdd l.uncorr 1, window := keep }).stat (stLane n 1) 1
      (keep.length ≤ 16 → Safety.Takes (.uncorrectableCodeword n ⟨period, disc⟩) s z) ∧
      (16 < keep.length → Safety.Settles (.uncorrectableCodeword n ⟨period, disc⟩) s ((z.failLane n).discards disc)) ∧
      Safety.Settles (.slotLockLoss ⟨n, disc⟩) s (((s.modLn n fun l => { l with locked := false, badRun := 0 }).failLane n).discards disc))) ∧
  (∀ (s s1 : State) (n : Nat) (slot : XSlot),
    (s.accept n xtLink slot = (s1, none) → Safety.Settles (.linkQuarantineRx n slot) s s1 ∧ Safety.Settles (.linkAck n slot) s s1) ∧
    ∀ p, s.accept n xtLink slot = (s1, some p) →
      let m := n / 2 * 2 + fld p 4 4
      (∀ o, s1.partner m = some o → fld p 3 0 = 1 → (s1.ln m).state = .up → (s1.ln o).state = .up →
        Safety.Settles (.linkQuarantineRx n slot) s
          (((s1.laneFailCount m).quarantineLane m).modLink (s1.tpOf m) fun l => { l with quarFirst := some (m, slot.period) })) ∧
      (∀ o, s1.partner m = some o → fld p 3 0 = 1 → (s1.ln m).state = .up → (s1.ln o).state = .quarantined →
        let both : Prop := m < o ∧ (s1.tp (s1.tpOf m)).link.quarFirst = some (o, slot.period)
        (¬ both → Safety.Settles (.linkQuarantineRx n slot) s (s1.sendLink (s1.tpOf m) 1 (s1.laneBit o) 0)) ∧
        (both → Safety.Settles (.linkQuarantineRx n slot) s
          (((((s1.laneFailCount m).modLn o fun l => { l with state := .up }).setReady (rdLANE o) true).quarantineLane m).modLink (s1.tpOf m) fun l =>
            { l with quarFirst := some (m, slot.period) }))) ∧
      (∀ o, s1.partner m = some o → (s1.ln o).state ≠ .up → (s1.ln o).state ≠ .quarantined → Safety.Settles (.linkQuarantineRx n slot) s s1) ∧
      (s1.partner m = none ∨ fld p 3 0 ≠ 1 ∨ (s1.ln m).state ≠ .up → Safety.Settles (.linkQuarantineRx n slot) s s1) ∧
      (let mine : Nat → Bool := fun k => (s1.ln k).state == .rejoining && (s1.ln k).proposing && (s1.ln k).switchSn.toNat == fld p 55 8
       (fld p 3 0 ≠ 3 ∨ (s1.lanesOf (s1.tpOf n)).find? mine = none → Safety.Settles (.linkAck n slot) s s1) ∧
       ∀ k, fld p 3 0 = 3 → (s1.lanesOf (s1.tpOf n)).find? mine = some k → Safety.Settles (.linkAck n slot) s (s1.rejoined k))) ∧
  (∀ (s : State) (n : Nat),
    let l := s.ln n
    let may : Prop := s.lanePresent n = true ∧ l.state = .quarantined ∧ l.trained = true ∧ l.held = false ∧ ∃ p, s.partner n = some p ∧ (s.ln p).state = .up
    (may → Safety.Takes (.rejoinStart n) s ((s.modLn n fun l => { l with state := .rejoining, proposals := 0 }).propose n)) ∧
    (¬ may → Safety.Takes (.rejoinStart n) s s) ∧
    (let open_ : Prop := s.lanePresent n = true ∧ l.state = .rejoining ∧ l.proposing = true
     (¬ open_ → Safety.Takes (.proposeTimeout n) s s) ∧ (open_ → l.proposals < 3 → Safety.Takes (.proposeTimeout n) s (s.propose n)) ∧
     (open_ → 3 ≤ l.proposals →
       Safety.Takes (.proposeTimeout n) s (s.modLn n fun l => { l with state := .quarantined, proposing := false, proposals := 0 }))) ∧
    (let waits := s.cmdsWhere fun c => c.stage == .service && c.entry.op == 0x21 && c.unit == n
     (waits = [] → Safety.Takes (.laneResetTimeout n) s s) ∧
     ∀ c r, waits = c :: r → Safety.Settles (.laneResetTimeout n) s ((s.modLn n fun l => { l with resetting := false }).succeed c (s.lsResult n)))) ∧
  ∀ (s : State) (t : Nat),
    (s.tpExists t = true → (s.wclkRate t ≠ 0 ∨ (s.tp t).link.wclk ≠ s.wclkRate t) →
      Safety.Takes (.wclkSend t) s ((s.sendWord t xtWclk (mkw [(0, s.wclkRate t)])).modLink t fun l => { l with wclk := s.wclkRate t })) ∧
    (s.tpExists t = false ∨ (s.wclkRate t = 0 ∧ (s.tp t).link.wclk = 0) → Safety.Takes (.wclkSend t) s s)

/-- Lane Service (R286, R279, R276, R43; Table 13-9): fields out of range, an absent lane, or a quarantine of a lane whose partner is not Up fail with
Invalid Field; Query answers; Quarantine and Quarantine Held quarantine the lane of a pair, or lose the lane of a single one; Release lets it
proceed with its clean count restarted; Reset trains it from step 1 and waits, the words its FIFOs discard being free values (log entry 46). -/
def Obligations.LaneServiceActsOnItsLane : Prop :=
  ∀ (s : State) (c : Cmd),
    let n := c.unit
    let hold := s.modLn n fun l => { l with held := true }
    let go := s.modLn n fun l => { l with held := false, window := [] }
    (∀ x ∈ ([(.lsQuery, 0), (.lsQuarantine, 1), (.lsQuarantineHeld, 2), (.lsRelease, 3), (.lsReset, 4)] : List (Instr × Nat)),
      s.serviceCmd 0x21 x.2 = some c → (s.lsOk c = false ∨ ((x.2 = 1 ∨ x.2 = 2) ∧ s.mayQuarantine n = false)) →
        Safety.Settles x.1 s (s.complete c ⟨0, 2⟩ {})) ∧
    (s.lsOk c = true →
      (s.serviceCmd 0x21 0 = some c → Safety.Settles .lsQuery s (s.succeed c (s.lsResult n))) ∧
      (s.serviceCmd 0x21 1 = some c → s.mayQuarantine n = true →
        ∃ z, z = s.stewardQuarantine n ∧ Safety.Settles .lsQuarantine s (z.succeed c (z.lsResult n))) ∧
      (s.serviceCmd 0x21 2 = some c → s.mayQuarantine n = true →
        ∃ z, z = (if (s.ln n).state = .quarantined then hold else hold.stewardQuarantine n) ∧
          Safety.Settles .lsQuarantineHeld s (z.succeed c (z.lsResult n))) ∧
      (s.serviceCmd 0x21 3 = some c →
        ∃ z, z = (if (s.ln n).held = true ∧ (s.ln n).state = .down then go.trainStart n else go) ∧
          Safety.Settles .lsRelease s (z.succeed c (z.lsResult n))) ∧
      (s.serviceCmd 0x21 4 = some c →
        ∃ z, z = (if s.mayQuarantine n then s.stewardQuarantine n else s.laneLoss (s.tpOf n)) ∧
          Safety.Takes .lsReset s
            ((((z.modLn n fun l => { l with resetting := true, mismatch := false }).trainStart n).discardFree [7, 8, 11]).setStage c.id .service)))

/-- Channel Service (R252; Table 12-3): fields out of range, or a fifth channel out, fail with Invalid Field; Query answers; Take Out takes the channel
out held, at the next separator while the transport writes; Return makes an Out Held channel Out, which returns once 16 clean probe intervals
stand; Reset Adaptation gives it fresh taps, at the next separator while the transport writes. Channels of no command change nothing. -/
def Obligations.ChannelServiceActsOnItsChannel : Prop :=
  ∀ (s : State) (c : Cmd),
    let t := c.unit
    let ch := c.chan
    let x := s.chan t ch
    let cmd : Nat → Option Cmd := fun a => s.fetched fun c => c.u == 0 && c.q == 0 && c.entry.op == 0x22 && c.chanAction == a
    (∀ y ∈ ([(.csQuery, 0), (.csTakeOut, 1), (.csReturn, 2), (.csResetAdaptation, 3)] : List (Instr × Nat)),
      (cmd y.2 = none → Safety.Settles y.1 s s) ∧ (cmd y.2 = some c → s.csOk c = false → Safety.Settles y.1 s (s.complete c ⟨0, 2⟩ {}))) ∧
    (s.csOk c = true →
      (cmd 0 = some c → Safety.Settles .csQuery s (s.succeed c (s.csResult t ch))) ∧
      (cmd 1 = some c →
        (x.state = .outHeld → Safety.Settles .csTakeOut s (s.succeed c (s.csResult t ch))) ∧
        (x.state = .out →
          ∃ z, z = s.modChan t ch (fun x => { x with state := .outHeld, returning := false }) ∧ Safety.Settles .csTakeOut s (z.succeed c (z.csResult t ch))) ∧
        (x.state = .inService → x.leaving = none → 4 ≤ s.outCount t → Safety.Settles .csTakeOut s (s.complete c ⟨0, 2⟩ {})) ∧
        (x.state = .inService → (x.leaving ≠ none ∨ s.outCount t < 4) →
          (s.writesNow t = true → Safety.Settles .csTakeOut s ((s.modChan t ch fun x => { x with leaving := some true }).setStage c.id .service)) ∧
          (s.writesNow t = false →
            ∃ z, z = s.channelOut t ch true ∧ Safety.Settles .csTakeOut s (z.succeed c (z.csResult t ch))))) ∧
      (cmd 2 = some c →
        (x.state ≠ .outHeld → Safety.Settles .csReturn s (s.succeed c (s.csResult t ch))) ∧
        (x.state = .outHeld →
          ∃ z, z = s.modChan t ch (fun x => { x with state := .out, returning := decide (16 ≤ x.probeRun) }) ∧
            Safety.Settles .csReturn s (z.succeed c (z.csResult t ch)))) ∧
      (cmd 3 = some c →
        (s.writesNow t = true → Safety.Settles .csResetAdaptation s ((s.modChan t ch fun x => { x with resetTaps := true }).setStage c.id .service)) ∧
        (s.writesNow t = false →
          ∃ z, z = s.modChan t ch Chan.freshTaps ∧ Safety.Settles .csResetAdaptation s (z.succeed c (z.csResult t ch)))))

/-- Frames (R263, R266, R277, R280, R281, R284, R345): a frame whose header fails is counted and not acted on; a good sample frame moves the next
number expected, or fills a gap; a missing one is asked for again, and is lost 8 µs after its time; a control frame gives TP_FE and its two
events; a management response ends its request, which is otherwise retried twice and then stops the transport, or ends its load (R319). -/
def Obligations.FramesAreTakenOrCounted : Prop :=
  (∀ (s : State) (n since : Nat) (f : Frame),
    let bad := s.modLn n fun l => { l with framesBad := wrapAdd l.framesBad 1 }
    (s.lanePresent n = false →
      Safety.Takes (.sampleFrame n f) s s ∧ Safety.Takes (.controlFrame n f since) s s ∧ Safety.Takes (.managementResponse n f) s s) ∧
    (s.lanePresent n = true → frameOk f = false →
      Safety.Takes (.sampleFrame n f) s bad ∧ Safety.Takes (.controlFrame n f since) s bad ∧ Safety.Takes (.managementResponse n f) s bad) ∧
    (s.lanePresent n = true → frameOk f = true →
      let idle : Prop := (s.ln n).state ≠ .up ∧ (s.ln n).state ≠ .rejoining
      (idle ∨ fld f.w0 7 0 ≠ 1 → Safety.Takes (.sampleFrame n f) s s) ∧ (idle ∨ fld f.w0 7 0 ≠ 3 → Safety.Takes (.controlFrame n f since) s s) ∧
        (idle ∨ fld f.w0 7 0 ≠ 4 → Safety.Takes (.managementResponse n f) s s))) ∧
  (∀ (s : State) (n : Nat) (f : Frame), s.lanePresent n = true → frameOk f = true → fld f.w0 7 0 = 1 → ((s.ln n).state = .up ∨ (s.ln n).state = .rejoining) →
    let t := s.tpOf n
    let sn := fld f.w1 47 0
    let next := (s.tp t).link.snNext
    let k := min 256 (sn - next)
    ∃ z, z = s.modLink t (fun l =>
        if next ≤ sn then
          let miss := l.snMissing ++ (List.range k).map (sn - k + ·)
          { l with snMissing := miss.drop (miss.length - 256), snNext := sn + 1, snHigh := max l.snHigh sn }
        else { l with snMissing := l.snMissing.filter (· != sn) }) ∧
      ∃ z2, z2 = (if (s.ln n).state = .rejoining ∧ (s.ln n).proposing = true ∧ (s.ln n).switchSn.toNat ≤ sn then z.rejoined n else z) ∧
        Safety.Settles (.sampleFrame n f) s
          (if z2.pm.state = 0 ∧ (next ≤ sn ∨ sn ∈ (s.tp t).link.snMissing) ∧ (z2.mot t).state.moving = true then z2.adapt t f else z2)) ∧
  (∀ (s : State) (t sn : Nat),
    let l := (s.tp t).link
    let own := if s.isPaired t then t + sn % 2 else t
    let waited : Prop := s.tpExists t = true ∧ (sn ∈ l.snMissing ∨ sn = l.snNext)
    (¬ waited → Safety.Takes (.resendRequest t sn) s s ∧ Safety.Takes (.sampleFrameLost t sn) s s) ∧
    (s.upLanes t = [] → Safety.Takes (.resendRequest t sn) s s) ∧
    (let asks : Nat → Prop := fun use => Safety.Takes (.resendRequest t sn) s
       (((s.sendLink t 4 (s.laneBit use) sn).modLn own fun x => { x with reqd := wrapAdd x.reqd 1 }).stat (stLane own 4) 1)
     (∀ a, waited → s.upLanes t = [a] → asks a) ∧ ∀ a b, waited → s.upLanes t = [a, b] → (own = a → asks b) ∧ (own ≠ a → asks a)) ∧
    (waited → Safety.Takes (.sampleFrameLost t sn) s
      (((s.modLink t fun l => { l with snMissing := l.snMissing.filter (· != sn), snNext := max l.snNext (sn + 1) }).modLn own fun x =>
        { x with lost := wrapAdd x.lost 1 }).stat (stLane own 5) 1))) ∧
  (∀ (s : State) (n since : Nat) (f : Frame), s.lanePresent n = true → frameOk f = true → fld f.w0 7 0 = 3 → ((s.ln n).state = .up ∨ (s.ln n).state = .rejoining) →
    let clips := fld f.w2 31 0
    let t := s.tpOf n
    let x := (s.tp t).fe
    let vm := fld f.w1 31 16
    let vl := fld f.w1 47 32
    let temp := signed 16 (fld f.w1 15 0)
    let lim : Int := (8 * s.pm.tlim.toNat : Nat)
    let good : Bool := nearUp (some (x.upVmot.getD vm)) vm && nearUp (some (x.upVlog.getD vl)) vl
    let run := if good then x.supplyOk + 1 else 0
    let hot : Bool := x.tempArmed && decide (lim ≤ temp)
    let low : Bool := x.supplyArmed && !good
    ∃ z, z = s.modFe t (fun y =>
        { y with temp := BitVec.ofNat 16 (fld f.w1 15 0), vmot := BitVec.ofNat 16 vm, vlog := BitVec.ofNat 16 vl,
                 clip := if clips = 0 then y.clip else wrapAdd y.clip 1, late := if 3 < since then wrapAdd y.late 1 else y.late, upVmot := some (x.upVmot.getD vm), upVlog := some (x.upVlog.getD vl),
                 supplyOk := run, tempArmed := if hot then false else y.tempArmed || decide (temp ≤ lim - 40),
                 supplyArmed := if low then false else y.supplyArmed || decide (10 ≤ run) }) ∧
      ∃ z1, z1 = z.each ((List.range 32).filter fun c => clips.testBit c) (fun s c => s.modChan t c fun y => { y with clipped := wrapAdd y.clipped 1 }) ∧
        ∃ z2, z2 = (if hot then z1.raise (evTp t 25) else z1) ∧
          Safety.Takes (.controlFrame n f since) s (if low then z2.raise (evTp t 26) else z2)) ∧
  (∀ (s : State) (n : Nat) (f : Frame), s.lanePresent n = true → frameOk f = true → fld f.w0 7 0 = 4 → ((s.ln n).state = .up ∨ (s.ln n).state = .rejoining) →
    let l := (s.tp (s.tpOf n)).link
    (bit f.w0 24 = false ∨ l.outstanding (fld f.w0 47 32) = none → Safety.Takes (.managementResponse n f) s s) ∧
    ∀ r, bit f.w0 24 = true → l.outstanding (fld f.w0 47 32) = some r → Safety.Takes (.managementResponse n f) s (s.mgmtEnd (s.tpOf n) r.tag)) ∧
  ∀ (s : State) (t tag : Nat),
    ((s.tp t).link.outstanding tag = none → Safety.Takes (.managementTimeout t tag) s s) ∧
    ∀ r, (s.tp t).link.outstanding tag = some r →
      (r.retries < 2 → Safety.Takes (.managementTimeout t tag) s
        ((s.modLink t fun l => { l with mgmt := l.mgmt.map fun x => if x.tag = tag then { x with retries := x.retries + 1 } else x }).emitMgmt t r)) ∧
      (2 ≤ r.retries → (s.mot t).state ≠ .loading → Safety.Settles (.managementTimeout t tag) s
        (((s.mgmtEnd t tag).raise (evTp t 24)).controlledStop t (.outOfService 9))) ∧
      (2 ≤ r.retries → (s.mot t).state = .loading → Safety.Settles (.managementTimeout t tag) s
        (((s.mgmtEnd t tag).raise (evTp t 24)).loadFailed t))

/-- The front-end's express words (R268, R270, R272, R283, R302, R305, R311, R322, R323): a word that is not accepted (neither copy well-formed,
of another type, a duplicate, or of a lane that carries nothing) moves the lane's counters only; an accepted SERVO word gives the position, counts toward
the acquisition of servo (R317) or the end of a hold, and is judged by the guard unit; a TACH word the edge rates, and with servo valid the ratios of the
reels (values that the spec does not state are free); a SENSE word tension, currents and solenoids, its overcurrent dropping gate, solenoids and
drive; a STATUS word the write FIFO and the codeword count of the lane, a watchdog trip or underrun closing the gate, an autonomous stop noted, and 17
codewords failing the lane. Assignable slots that measure what a word brings resume from a hold (the model's reading, log 87). -/
def Obligations.WordsOfTheFrontEndAct : Prop :=
  (∀ (s s1 : State) (n : Nat) (slot : XSlot),
    (s.accept n 1 slot = (s1, none) → Safety.Settles (.servoWord n slot) s s1) ∧ (s.accept n 2 slot = (s1, none) → Safety.Settles (.tachWord n slot) s s1) ∧
    (s.accept n 3 slot = (s1, none) → Safety.Settles (.senseWord n slot) s s1) ∧ (s.accept n 4 slot = (s1, none) → Safety.Settles (.statusWord n slot) s s1)) ∧
  (∀ (s s1 : State) (n : Nat) (slot : XSlot) (p : Word), s.accept n 1 slot = (s1, some p) →
    let t := s1.tpOf n
    let m := s1.mot t
    let step : Int := match m.fcount with
      | some o => (if bit p 52 then 1 else -1) * (((fld p 63 53 + 2048 - o) % 2048 : Nat) : Int)
      | none => 0
    let z := (s1.modFe t fun x =>
      { x with y0 := signed 16 (fld p 15 0), y1 := signed 16 (fld p 31 16), speedRaw := fld p 47 32, dirEot := bit p 52, v0 := bit p 50,
               v1 := bit p 51 }).modMot t fun m => { m with x := m.x + step, fcount := some (fld p 63 53) }
    let lim : Int := (4 * ((s1.tp t).gu.cfg.toNat % 65536) : Nat)
    let good := bit p 50 && bit p 51
    let near := good && decide (((signed 16 (fld p 15 0) - z.lateral t).natAbs : Int) ≤ lim) &&
      decide (((signed 16 (fld p 31 16) - z.lateral t).natAbs : Int) ≤ lim)
    let run := if good then m.holdRun + 1 else 0
    let z1 := if m.servoAcquired = false ∧ m.state.moving = true ∧ m.state ≠ .stopping then
        z.modMot t fun m => { m with acquireRun := if near then m.acquireRun + 1 else 0, servoAcquired := near && decide (8 ≤ m.acquireRun + 1),
                                     attempts := if near && decide (8 ≤ m.acquireRun + 1) then 0 else m.attempts }
      else if (s1.slot t 0).hold = true then (if 8 ≤ run then z.resumeServo t else z.modMot t fun m => { m with holdRun := run })
      else z
    let z2 := if (fld p 48 48 = 1 ∨ fld p 49 49 = 1) ∧ z1.slotRuns t 0 = true then z1.modSlot t 0 fun y => { y with released := true } else z1
    Safety.Settles (.servoWord n slot) s ((z2.rearm t [1, 2, 3, 4]).guardWord t (fld p 48 48) (fld p 49 49))) ∧
  (∀ (s s1 : State) (n : Nat) (slot : XSlot) (p : Word), s.accept n 2 slot = (s1, some p) →
    let t := s1.tpOf n
    let f := (s1.tp t).fe
    let gapA := (fld p 31 16 + 65536 - f.tachA.2) % 65536
    let gapB := (fld p 63 48 + 65536 - f.tachB.2) % 65536
    ∃ (fa fb : Int) (ra rb : BitVec 32),
      let rate : Nat → Nat → Nat → Int → Int := fun n old gap free => if gap = 0 then free else (((n + 65536 - old) % 65536 * 100000000 / gap : Nat) : Int)
      let z := s1.modFe t fun x =>
        { x with edgeA := if fld p 15 0 = f.tachA.1 then x.edgeA else rate (fld p 15 0) f.tachA.1 gapA fa,
                 tachA := if fld p 15 0 = f.tachA.1 then x.tachA else (fld p 15 0, fld p 31 16),
                 edgeB := if fld p 47 32 = f.tachB.1 then x.edgeB else rate (fld p 47 32) f.tachB.1 gapB fb,
                 tachB := if fld p 47 32 = f.tachB.1 then x.tachB else (fld p 47 32, fld p 63 48) }
      let z1 := if f.v0 = true ∨ f.v1 = true then z.modGu t fun g => { g with ratioA := ra, ratioB := rb } else z
      Safety.Settles (.tachWord n slot) s (State.rearm { z1 with freeCtr := s1.freeCtr + 4 } t [5, 6])) ∧
  (∀ (s s1 : State) (n : Nat) (slot : XSlot) (p : Word), s.accept n 3 slot = (s1, some p) →
    let t := s1.tpOf n
    let z := ((s1.modFe t fun x => { x with tension := fld p 15 0, iA := signed 16 (fld p 31 16), iB := signed 16 (fld p 47 32) }).modSol t fun x =>
      { x with solSt := BitVec.ofNat 3 (fld p 51 49), hsOc := if bit p 48 then wrapAdd x.hsOc 1 else x.hsOc }).modMot t fun m => { m with cartPresent := bit p 52 }
    (bit p 48 = true → (s1.mot t).state ≠ .outOfService →
      Safety.Settles (.senseWord n slot) s (((((z.gateClose t 5).solRelease t [0, 1, 2]).driveOff t).raise (evTp t 22)).enterOos t 6)) ∧
    (bit p 48 = false ∨ (s1.mot t).state = .outOfService → Safety.Settles (.senseWord n slot) s ((z.rearm t [7, 8, 9]).continueStart t))) ∧
  ∀ (s s1 : State) (n : Nat) (slot : XSlot) (p : Word), s.accept n 4 slot = (s1, some p) →
    let t := s1.tpOf n
    let d := (fld p 31 16 + 65536 - (s1.ln n).rxUncorr.toNat) % 65536
    let win := ((s1.ln n).window.filter fun k => decide (slot.period < k + 1048576)) ++ List.replicate (min 17 d) slot.period
    let z := (s1.modLn n fun l =>
      { l with rxUncorr := BitVec.ofNat 16 (fld p 31 16), wdog := if bit p 9 then wrapAdd l.wdog 1 else l.wdog, window := win }).modFe t fun x =>
        { x with wfill := fld p 7 0, gate := bit p 8, asAct := bit p 11 }
    let z2 := if bit p 9 = true ∨ bit p 10 = true then (z.modGu t fun g => { g with gate := false, openReq := none }).cutWrites t else z
    ∃ z3, z3 = (if bit p 12 = true then z2.selfStopped t else z2) ∧
      ((z3.ln n).window.length ≤ 16 → Safety.Settles (.statusWord n slot) s z3) ∧
      (16 < (z3.ln n).window.length → Safety.Settles (.statusWord n slot) s (z3.failLane n))

/-! ### Control engine -/

/-- Jobs (R292, R294, R298, R301, R306, R307, R309): a periodic slot's release is a miss where the last job has not started; a released job takes committed
coefficients first, then runs on its measurement, reference and feedforward, and its output is sent, its cycles counting to its core's load (log 15);
a job that measures a held or suspended slot does not run, nor one while its core has a released job of higher priority; a commit that passes its check waits for the job, one that fails changes no coefficient and is named, and each takes the shadow
as it stands (the model's reading, log 30). A slot that does not run releases nothing. -/
def Obligations.SlotsReleaseRunAndCommit : Prop :=
  ∀ (s : State) (t k : Nat),
    let z := s.slot t k
    let free : Prop := k < 8 ∧ s.slotRuns t k = true
    (k = 0 ∨ ¬ free → Safety.Takes (.slotRelease t k) s s) ∧
    (k ≠ 0 → free → z.released = false → Safety.Takes (.slotRelease t k) s (s.modSlot t k fun z => { z with released := true })) ∧
    (k ≠ 0 → free → z.released = true →
      Safety.Settles (.slotRelease t k) s ((s.deadlineMissed t k).modSlot t k fun z => { z with released := true })) ∧
    (¬ free ∨ z.released = false ∨ s.jobAhead t k = true → Safety.Takes (.slotJob t k) s s) ∧
    (free → z.released = true → s.jobAhead t k = false →
      let x32 := loopX32 z.w0
      let m := if z.sensorless then (in32 x32 (s.reelEstimate t (k == 3) z.bemf * 2048), false) else s.measure t x32 (loopInput z.w0)
      let s1 := if m.2 then s.take else s
      let r := if loopRef z.w0 then s1.planRef t k x32 else (0, false)
      let s2 := if r.2 then s1.take else s1
      let f := s2.feedforward t x32 (loopFf z.w0)
      let s3 := if f.2 then s2.take else s2
      let clear := if z.clrState then z.clearStates true else z
      let now := if z.pending then { clear with active := z.commitWords, pending := false } else z
      ∃ e, e = (((s3.modSlot t k fun _ => { loopJob now m.1 r.1 f.1 with
          released := false, missRun := 0, lastM := some m.1, sameRun := if z.lastM = some m.1 then z.sameRun + 1 else 1 }).sendOutput t k).jobRan t k).rearm t [0x10 + k] ∧
        ((z.sensorless = false ∨ e.reelSlow t k = false) → Safety.Takes (.slotJob t k) s e) ∧
        (z.sensorless = true → e.reelSlow t k = true → Safety.Settles (.slotJob t k) s (e.endSensorless t))) ∧
    ∀ clr,
      (s.tpExists t = false ∨ 8 ≤ k ∨ (s.tp t).ld.resetting = true → Safety.Takes (.coefCommit t k clr) s s) ∧
      (s.tpExists t = true → k < 8 → (s.tp t).ld.resetting = false →
        (coefFirstBad z.w0 z.shadow = none →
          Safety.Takes (.coefCommit t k clr) s (s.modSlot t k fun z =>
            { z with pending := true, commitWords := z.shadow, clrState := clr, err := false, errIdx := 0 })) ∧
        ∀ i, coefFirstBad z.w0 z.shadow = some i →
          Safety.Takes (.coefCommit t k clr) s (s.modSlot t k fun z => { z with err := true, errIdx := i }))

/-- Lost feedback (R302, R304, R305, R315, R317; Table 14-5): a missed deadline resends the output and is counted; a stale or frozen slot is marked, counted
and answered by its kind; 8 ms of hold, or a failed acquisition, stop the tape for a new attempt, the third failure out of service with cause 2;
a silent servo withdraws the permit; a stop without a tachometer ends after its 3 s. Elsewhere these rows change nothing. -/
def Obligations.LostFeedbackIsAnswered : Prop :=
  ∀ (s : State) (t k : Nat),
    let z := s.slot t k
    (8 ≤ k ∨ z.released = false → Safety.Takes (.deadlineMiss t k) s s) ∧
    (k < 8 → z.released = true → Safety.Settles (.deadlineMiss t k) s (s.deadlineMissed t k)) ∧
    (8 ≤ k ∨ s.slotRuns t k = false → ∀ kind, Safety.Takes (.staleDetect t k kind) s s) ∧
    (k < 8 → s.slotRuns t k = true →
      Safety.Settles (.staleDetect t k .stale) s
        (((s.modSlot t k fun z => { z with stale := true, stales := wrapAdd z.stales 1 }).stat (stTp t 21) 1).lostFeedback t k) ∧
      (let due : Prop := (3 < k ∨ 1000 ≤ (s.mot t).vel.natAbs) ∧ 0 < loopFreezeM z.w0 ∧ loopFreezeM z.w0 ≤ z.sameRun ∧
         ((loopFreezeThr z.w1 : Nat) : Int) < (z.out.natAbs : Int)
       (¬ due → Safety.Takes (.staleDetect t k .frozen) s s) ∧
       (due → Safety.Settles (.staleDetect t k .frozen) s
         (((s.modSlot t k fun z => { z with frozen := true, freezes := wrapAdd z.freezes 1, sameRun := 0 }).stat (stTp t 22) 1).lostFeedback t k)))) ∧
    ((s.slot t 0).hold = false → Safety.Takes (.servoHoldTimeout t) s s) ∧
    ((s.slot t 0).hold = true →
      ∃ z, z = (((s.modSlot t 0 fun z => { z.clearStates false with hold := false }).modSlot t 1 fun z => { z with hold := false }).modMot t fun m =>
          { m with servoAcquired := false, acquireRun := 0, attempts := 1 }) ∧
        Safety.Settles (.servoHoldTimeout t) s ((z.modSlot t 0 fun z => { z with retries := 1 }).controlledStop t .parked)) ∧
    (s.tpExists t = false ∨ (s.tp t).gu.permit = false → Safety.Takes (.servoTimeout t) s s) ∧
    (s.tpExists t = true → (s.tp t).gu.permit = true →
      Safety.Settles (.servoTimeout t) s (if (s.tp t).gu.gate then (s.gateClose t 1).cutWrites t else s.gateClose t 1)) ∧
    (let lost : Prop := (s.slot t 2).sensorless = true ∨ (s.slot t 3).sensorless = true ∨ (s.slot t 4).fault = true
     (¬ lost → Safety.Takes (.sensorlessStopLimit t) s s) ∧
     (lost → ((s.mot t).state ≠ .stopping ∨ ∀ c, (s.mot t).stopGoal ≠ .outOfService c) → Safety.Settles (.sensorlessStopLimit t) s s) ∧
     ∀ c, lost → (s.mot t).state = .stopping → (s.mot t).stopGoal = .outOfService c → Safety.Settles (.sensorlessStopLimit t) s (s.enterOos t c)) ∧
    let m := s.mot t
    let seeks : Prop := (m.state = .streaming ∨ m.state = .locating ∨ m.state = .unloading) ∧ m.vel ≠ 0 ∧ m.servoAcquired = false
    let n := max 1 m.attempts
    let again := (s.modMot t fun m => { m with attempts := n + 1, acquireRun := 0 }).modSlot t 0 fun z => { z with retries := n + 1 }
    let last := (s.modMot t fun m => { m with attempts := 0 }).raise (evTp t 16)
    (¬ seeks → Safety.Takes (.servoAcquireFail t) s s) ∧
    (seeks → 3 ≤ n → m.state = .unloading → Safety.Settles (.servoAcquireFail t) s (last.enterOos t 2)) ∧
    (seeks → 3 ≤ n → m.state ≠ .unloading → Safety.Settles (.servoAcquireFail t) s (last.controlledStop t (.outOfService 2))) ∧
    (seeks → n < 3 → m.state = .unloading →
      Safety.Settles (.servoAcquireFail t) s
        (((again.gateClose t 5).cutWrites t).modMot t fun m => { m with vel := 0, target := none, x := s.standbyX t })) ∧
    (seeks → n < 3 → m.state ≠ .unloading → Safety.Settles (.servoAcquireFail t) s (again.controlledStop t .parked))

/-! ### Events, registers, power and epochs -/

/-- At each occurrence of a source its status is set and its COUNT advances, holding at 0xFFFF; clearing the status clears COUNT, and an occurrence with
the clear leaves status 1 and COUNT 1 (R335). In PS3 the occurrence is held until the exit. EV_STS clears each status written 1. -/
def Obligations.EventsAreCountedAndCleared : Prop :=
  ∀ (s : State) (e : Nat),
    (evReserved e = false → s.pm.state ≠ 3 →
      ((s.raise e).evSrc e).sts = true ∧ ((s.raise e).evSrc e).count = min 0xFFFF ((s.evSrc e).count + 1) ∧
      (((s.clearEv e).raise e).evSrc e).sts = true ∧ (((s.clearEv e).raise e).evSrc e).count = 1) ∧
    (evReserved e = false → s.pm.state = 3 → s.raise e = { s with pm := { s.pm with held := s.pm.held ++ [e] } }) ∧
    ((s.clearEv e).evSrc e).sts = false ∧ ((s.clearEv e).evSrc e).count = 0 ∧ (∀ d, d ≠ e → (s.clearEv e).evSrc d = s.evSrc d) ∧
    ∀ i value, s.reach 0 = true → i < 8 →
      ∃ z, Safety.Takes (.evStsClear i value) s z ∧
        ∀ d, z.evSrc d = if d / 64 = i ∧ bit value (d % 64) = true then { s.evSrc d with sts := false, count := 0 } else s.evSrc d

/-- Registers (R74, R338, R344, R374, R375, R378, R379; Tables 16-15 and 18-1): PM_CTL.WAKE begins the exit from PS2 or PS3; TQ_EVT_STS clears a tenant's
own sources, and another source it owns by CLR; SC_RING_REL ignores a LOSS_ID of which nothing is held; a write to a register with a row has that
row's effect, a write to a register that is read only changes nothing, and a function or a space that does not answer takes nothing.
Configuration requests (R41, R74, R76, R78): nothing answers while the part is in reset; a retry until the early block is in force; then a read is answered and a
write sets its field, for a function that exists; a base address keeps the bits above its size, AER's status bits clear where 1 is written. -/
def Obligations.RegisterAndConfigurationWrites : Prop :=
  ((∀ s : State,
    (s.reach 0 = true → s.pm.state = 2 ∨ s.pm.state = 3 →
      Safety.Takes .pmCtlWake s { s with pm := { s.pm with exiting := true, lastWake := if s.pm.exiting then s.pm.lastWake else 2 } }) ∧
    ((s.reach 0 = false ∨ s.pm.state < 2) → Safety.Takes .pmCtlWake s s)) ∧
  (∀ (s : State) (u : Nat) (value : Word),
    (s.reach u = false → Safety.Takes (.tqEvtClr u value) s s) ∧
    (s.reach u = true →
      ∃ z, Safety.Takes (.tqEvtClr u value) s z ∧
        z = { s with pm := if s.pm.state = 3 then { s.pm with exiting := true, lastWake := if s.pm.exiting then s.pm.lastWake else 3 } else s.pm, ev := z.ev } ∧
        let hit : Nat → Prop := fun d =>
          (∃ k, k < 8 ∧ d = evTen u k ∧ bit value k = true) ∨ (d = fld value 40 32 ∧ bit value 41 = true ∧ (s.evSrc d).owner = u)
        (∀ d, hit d → z.evSrc d = { s.evSrc d with sts := false, count := 0 }) ∧ ∀ d, ¬ hit d → z.evSrc d = s.evSrc d)) ∧
  (∀ (s : State) (lossId : Word),
    ((s.reach 0 = false ∨ s.ready rdSACHET = false ∨ lossId = 0 ∨ (∀ e ∈ s.sachet.ring, e.held ≠ some lossId.toNat ∨ e.done = true)) →
      Safety.Takes (.scRingRel lossId) s s) ∧
    (s.reach 0 = true → s.ready rdSACHET = true → lossId ≠ 0 → (∃ e ∈ s.sachet.ring, e.held = some lossId.toNat ∧ e.done = false) →
      ∃ z, Safety.Settles (.scRingRel lossId) s z ∧ ∀ e ∈ z.sachet.ring, e.held = some lossId.toNat → e.done = true)) ∧
  ∀ (s : State) (w : RegWrite),
    ((s.reach w.fn = false ∨ (w.bar ≠ 0 ∧ (w.bar ≠ 2 ∨ w.fn ≠ 0)) ∨ w.offset % 4 ≠ 0 ∨ tlpUnits (w.bytes.length / 4 + 1) w.offset w.bytes = none) →
      Safety.Takes (.registerWrite w) s s) ∧
    (s.reach w.fn = true → (w.bar = 0 ∨ (w.bar = 2 ∧ w.fn = 0)) → w.offset % 4 = 0 → s.pm.state ≠ 3 → ∀ off value,
      tlpUnits (w.bytes.length / 4 + 1) w.offset w.bytes = some [(off, fld value 31 0), (off + 4, fld value 63 32)] → off % 8 = 0 →
        let is : Nat → Nat → Prop := fun b o => w.bar = b ∧ off = o
        (is 2 0x01018 → bit value 0 = true → Safety.Takes (.registerWrite w) s s.pmWake) ∧
        (is 2 0x01020 → Safety.Takes (.registerWrite w) s { s with pm := { s.pm with tlim := value.setWidth 8 } }) ∧
        (is 2 0x02810 → Safety.Takes (.registerWrite w) s
          { s with gpio := { s.gpio with tamper := s.gpio.tamper &&& ~~~BitVec.ofNat 4 (fld value 11 8) } }) ∧
        (is 2 0x12010 → Safety.Takes (.registerWrite w) s (s.ringRel value)) ∧
        (is 0 0x0010 → bit value 0 = true → Safety.Takes (.registerWrite w) s (s.tqEnable w.fn)) ∧
        (is 0 0x0010 → bit value 0 = false → Safety.Takes (.registerWrite w) s (s.tqDisable w.fn)) ∧
        (is 0 0x0050 → Safety.Takes (.registerWrite w) s (s.tqEvtWrite w.fn value)) ∧
        (∀ i, i < 8 → is 2 (0x04000 + 8 * i) → Safety.Takes (.registerWrite w) s (s.evStsWrite i value)) ∧
        (is 2 0 → Safety.Takes (.registerWrite w) s s) ∧ (is 0 0 → Safety.Takes (.registerWrite w) s s))) ∧
  (∀ (s : State) (fn : Nat) (op : ConfigOp),
    let e := s.image.early
    ((s.on = false ∨ s.pins.perstN = false) → Safety.Takes (.configRequest fn op) s s) ∧
    (s.on = true → s.pins.perstN = true → s.pm.state ≠ 3 →
      (s.earlyDone = false → Safety.Takes (.configRequest fn op) s { s with out := s.out ++ [.cfgRetry fn] }) ∧
      (s.earlyDone = true → s.fnExists fn = false → Safety.Takes (.configRequest fn op) s s) ∧
      (s.earlyDone = true → s.fnExists fn = true →
        (fn = 0 → Safety.Takes (.configRequest fn .read) s
          { s with out := s.out ++ [.cfgAnswer 0 0x1F5D 0x0832 e.subsysVid e.subsysDid e.totalVfs s.dev.numVfs s.dev.vfEnable] }) ∧
        (fn ≠ 0 → Safety.Takes (.configRequest fn .read) s { s with out := s.out ++ [.cfgAnswer fn 0xFFFF 0xFFFF e.subsysVid e.subsysDid 0 0 false] }) ∧
        (∀ b, Safety.Takes (.configRequest fn (.busMaster b)) s ((s.modTn fn fun x => { x with fn := { x.fn with busMaster := b } }).flushMsix fn) ∧
          Safety.Takes (.configRequest fn (.msixEnable b)) s ((s.modTn fn fun x => { x with fn := { x.fn with msixEn := b } }).flushMsix fn) ∧
          Safety.Takes (.configRequest fn (.functionMask b)) s ((s.modTn fn fun x => { x with fn := { x.fn with msixMask := b } }).flushMsix fn)) ∧
        (∀ n, Safety.Takes (.configRequest fn (.numVfs n)) s
          (if fn = 0 ∧ s.dev.vfEnable = false ∧ n ≤ e.totalVfs then { s with dev := { s.dev with numVfs := n } } else s)) ∧
        (∀ r, ∃ v, Safety.Takes (.configRequest fn (.readReg r)) s { s with out := s.out ++ [.cfgReg fn r v] } ∧
          ((r = .vfOffset ∨ r = .vfStride) → v = if fn = 0 then 1 else 0) ∧ ((r = .interruptPin ∨ r = .deviceControl2) → v = 0) ∧
          (r = .sriovControl → fn = 0 → v = mkw [(0, b2n s.dev.vfEnable), (4, b2n (s.tn 0).fn.ari)]) ∧
          (r = .bar0 → fn = 0 → v = (s.tn 0).fn.bar0 ||| 4) ∧ (r = .aerUncorrectable → v = (s.tn fn).fn.aerUnc.setWidth 64)) ∧
        (∀ r v, ∃ z, Safety.Takes (.configRequest fn (.writeReg r v)) s z ∧ z = { s with tenants := z.tenants } ∧ (∀ u, u ≠ fn → z.tn u = s.tn u) ∧
          z.tn fn = { s.tn fn with fn := (z.tn fn).fn } ∧
          ((r = .vfOffset ∨ r = .vfStride ∨ r = .interruptPin ∨ r = .deviceControl2) → (z.tn fn).fn = (s.tn fn).fn) ∧
          (r = .bar0 → fn = 0 → (z.tn fn).fn = { (s.tn fn).fn with bar0 := v &&& ~~~(0xFFFF : Word) }) ∧
          (r = .aerUncorrectable → (z.tn fn).fn = { (s.tn fn).fn with aerUnc := (s.tn fn).fn.aerUnc &&& ~~~(v.setWidth 32) }) ∧
          (r = .aerCorrectable → (z.tn fn).fn = { (s.tn fn).fn with aerCor := (s.tn fn).fn.aerCor &&& ~~~(v.setWidth 32) })) ∧
        (fn ≠ 0 ∨ s.image.safe = true → ∀ b, Safety.Takes (.configRequest fn (.vfEnable b)) s s) ∧
        (fn = 0 → s.image.safe = false →
          Safety.Settles (.configRequest fn (.vfEnable false)) s s.dropVfs ∧
          ∃ z, Safety.Takes (.configRequest fn (.vfEnable true)) s z ∧ z.dev = { s.dev with vfEnable := true } ∧ z = { s with dev := z.dev, tenants := z.tenants }))))

/-- Device power states (R344, R345, R346, R350; Table 16-6): PS1, PS2 and PS3 are entered one after the other where the policy allows the state, its conditions
hold and have held for their time; a trigger of the next state that arrives while the entry to it is due ends the entry where its step stands, on the way back to PS0 (R350); a trigger of the
state's row begins the exit under its code, and the exit ends in PS0 with Power State raised where the state changes and what was held counted; Set Power Policy replaces the policy, and leaves a state it disables. -/
def Obligations.PowerStatesEnterAndExit : Prop :=
  ∀ (s : State),
    let p := s.pm
    let enter : State → Nat → State := fun s k =>
      ((s.raise evPowerState).modPm fun p => { p with state := k }).modStats fun x => { x with psSeen := x.psSeen ||| 2 ^ k }
    let back : WakeCause → State := fun c => { s with pm := { p with exiting := true, lastWake := wakeCode c, cut := none } }
    (let go : Prop := s.on = true ∧ s.image.loaded = true ∧ p.state = 0 ∧ p.exiting = false ∧ bit s.cfg.pwr0 0 = true ∧ s.ps1Cond = true ∧
       fld s.cfg.pwr0 31 16 ≤ p.idle1
     (go → p.cut = none → Safety.Takes .ps1Entry s (enter s 1)) ∧
     (∀ c, go → p.cut = some c → Safety.Takes .ps1Entry s (back c)) ∧
     (¬ go → Safety.Takes .ps1Entry s s)) ∧
    (let go : Prop := p.state = 1 ∧ p.exiting = false ∧ bit s.cfg.pwr0 1 = true ∧ s.ps1Cond = true ∧ s.ps2Cond = true ∧ fld s.cfg.pwr0 47 32 * 1000 ≤ p.idle2
     (go → p.cut = none → Safety.Takes .ps2Entry s (enter s 2)) ∧
     (∀ c, go → p.cut = some c → Safety.Takes .ps2Entry s (back c)) ∧
     (¬ go → Safety.Takes .ps2Entry s s)) ∧
    (let go : Prop := p.state = 2 ∧ p.exiting = false ∧ bit s.cfg.pwr0 2 = true ∧ s.ps2Cond = true ∧ s.ps3Cond = true ∧ fld s.cfg.pwr0 63 48 * 1000 ≤ p.idle3
     (go → p.cut = none →
        ∃ z, Safety.Takes .ps3Entry s z ∧ z.pm.state = 3 ∧ z.pins.clkreqN = true ∧ (∀ t, t < 8 → z.ready (rdTRANSPORT t) = false) ∧
          ∀ n, s.lanePresent n = true → (z.ln n).state = .down ∧ z.ready (rdLANE n) = false) ∧
     (∀ c, go → p.cut = some c →
        ∃ z, Safety.Takes .ps3Entry s z ∧ z.pm.state = 2 ∧ z.pm.exiting = true ∧ z.pm.lastWake = wakeCode c ∧ z.pm.cut = none ∧
          z.pins = s.pins ∧ z.lanes = s.lanes ∧ z.dev.ready = s.dev.ready) ∧
     (¬ go → Safety.Takes .ps3Entry s s)) ∧
    (∀ cause,
      (wakeValid p.state cause = false → (s.entryDue (p.state + 1) = false ∨ wakeValid (p.state + 1) cause = false) → Safety.Takes (.powerStateExit cause) s s) ∧
      (wakeValid p.state cause = false → s.entryDue (p.state + 1) = true → wakeValid (p.state + 1) cause = true →
        Safety.Takes (.powerStateExit cause) s { s with pm := { p with cut := some cause } }) ∧
      (wakeValid p.state cause = true → Safety.Takes (.powerStateExit cause) s
        { s with pm := { p with exiting := true, lastWake := if p.exiting then p.lastWake else wakeCode cause } })) ∧
    (p.exiting = false → Safety.Takes .powerStateExitDone s s) ∧
    (let z := s.modPm fun p => { p with state := 0, exiting := false, idle1 := 0, idle2 := 0, idle3 := 0, lanesBack := [], cut := none }
     p.state ≠ 3 → s.pins.clkreqN = false → p.exiting = true → p.held = [] → s.gpio.held = [] →
      Safety.Settles .powerStateExitDone s (if p.state = 0 then z else enter z 0)) ∧
    (p.exiting = true →
      ∃ z, Safety.Settles .powerStateExitDone s z ∧ z.pm.state = 0 ∧ z.pm.exiting = false ∧ z.gpio.held = [] ∧ (p.state = 3 → z.pins.clkreqN = false)) ∧
    ∀ c, s.adminCmd 0 0x30 = some c →
      let e := c.entry
      let ok : Prop := e.headOk false false = true ∧ e.noData = true ∧ e.w4 = 0 ∧ e.w7 = 0 ∧ pwrOk e.w5 e.w6 = true
      (¬ ok → Safety.Takes .setPowerPolicy s (s.complete c ⟨0, 2⟩ {})) ∧
      (ok →
        ∃ z, z = (s.modImage fun i => { i with cfg := { i.cfg with pwr0 := e.w5, pwr1 := e.w6 } }).succeed c ∧
          Safety.Takes .setPowerPolicy s
            (if p.state ≠ 0 ∧ bit e.w5 (p.state - 1) = false then
              { z with pm := { z.pm with exiting := true, lastWake := if z.pm.exiting then z.pm.lastWake else 7 } } else z))

/-- The 1 ms clock, epochs and commits (R153, R161, R165, R341, R343, R347, R387): a millisecond counts the power state and what a lane's
FEC corrected (a free number, log 15) and, once pools exist, evaluates each
transport and retries the replay; a transport parked for RELAX_S with no burst due relaxes; a boundary latches the counters and each core's load
and restarts them, and the snapshot becomes readable under its number with Epoch Boundary raised; the commits act only with SACHET. -/
def Obligations.EpochsAndCommitsRunOnTime : Prop :=
  (∀ s : State, (s.on = false → Safety.Takes .pressureEvaluation s s) ∧
    (s.on = true →
      ∃ z, z = ((({ s with msNow := s.msNow + 1 } : State).stat (stDev (12 + s.pm.state)) 1000).each (({ s with msNow := s.msNow + 1 } : State).stat (stDev (12 + s.pm.state)) 1000).tpList fun s t => s.tickTp t).each
          (List.range 8) (fun s n => s.tickLane n) ∧
        ∃ z2, z2 = (z.modPm fun x =>
            { x with idle1 := if z.ps1Cond then x.idle1 + 1 else 0, idle2 := if z.ps2Cond && decide (1 ≤ s.pm.state) then x.idle2 + 1 else 0,
                     idle3 := if z.ps3Cond && decide (2 ≤ s.pm.state) then x.idle3 + 1 else 0 }) ∧
          ((z2.bm.segTotal = 0 ∨ 3 ≤ s.pm.state) → Safety.Takes .pressureEvaluation s z2) ∧
          (0 < z2.bm.segTotal → s.pm.state < 3 → Safety.Takes .pressureEvaluation s (z2.each z2.tpList fun s t => s.evaluate t).replayAll))) ∧
  (∀ (s : State) (t : Nat),
    let lim := fld s.cfg.pwr1 15 0
    let due : Prop := s.tpExists t = true ∧ (s.mot t).state = .parked ∧ lim ≠ 0 ∧ lim * 1000 ≤ (s.mot t).idleMs ∧
      ¬ (s.startDue t = true ∧ s.mayMove t = true ∧ s.writable t = true ∧ (s.tp t).gov.burst = true)
    (due → Safety.Settles (.relaxTimer t) s (s.relax t)) ∧ (¬ due → Safety.Takes (.relaxTimer t) s s)) ∧
  (∀ (s : State) (us : Nat),
    let x := s.stats
    let due : Prop := s.on = true ∧ s.image.loaded = true ∧ s.pm.state ≠ 3 ∧ x.holding = none ∧ x.openUs + x.epochMs * 1000 ≤ us
    (¬ due → Safety.Takes (.epochBoundary us) s s) ∧
    (due →
      ∃ snap : Snapshot, snap.epoch = x.epoch ∧ snap.startUs = x.openUs ∧ snap.lengthUs = us - x.openUs ∧ snap.epochMs = x.epochMs ∧ snap.psSeen = x.psSeen ∧
        snap.counters = (s.stat (stDev (12 + s.pm.state))
          (us - x.openUs - ((List.range 4).map fun k => Tab.get 0 x.counters (stDev (12 + k))).sum)).stats.counters ∧
        Safety.Takes (.epochBoundary us) s
          { s with stats := { x with holding := some snap, counters := [], psSeen := 2 ^ s.pm.state, boundUs := us, openUs := us, epochMs := x.nextMs }
                   cores := s.cores.map fun p =>
                     (p.1, { p.2 with load := BitVec.ofNat 16 (min 65535 (p.2.busy * 10000 / ((us - x.openUs) * 800))), busy := 0 }) })) ∧
  (∀ s : State,
    (s.stats.holding = none → Safety.Takes .snapshotReady s s) ∧
    ∀ h, s.stats.holding = some h →
      ∃ z : State, Safety.Takes .snapshotReady s (z.raise evEpochBoundary) ∧ z.stats.snap = some h ∧ z.stats.holding = none ∧ z.stats.epoch = s.stats.epoch + 1 ∧
        ∀ u, u < 16 → (z.tn u).snapRead = false) ∧
  ∀ s : State,
    (s.ready rdSACHET = false → Safety.Takes .directoryCommit s s ∧ Safety.Takes .crashSnapshot s s ∧ Safety.Takes .lifeCheckpoint s s) ∧
    (s.ready rdSACHET = true →
      Safety.Takes .directoryCommit s s.commitDirs ∧ Safety.Takes .lifeCheckpoint s s.lifeCkpt ∧
      (s.sachet.journal.length < 65536 → Safety.Takes .crashSnapshot s s) ∧ (65536 ≤ s.sachet.journal.length → Safety.Takes .crashSnapshot s (s.snapshot 0)))

/-- Image Write and Image Activate (R69, R70, R72, R73): one waits while the load runs; a field out of range, an unaligned offset or length, or a length over
1 MiB fails with Invalid Field; Image Write programs the bytes of its list into its copy and no others; cut short by PFAIL_N or PERST_N after some pages it leaves
those pages, the rest of the sector in progress erased, and never completes; none runs after that; Image Activate checks its copy and reports NEXT_COPY. -/
def Obligations.ImageCommandsWriteAndCheck : Prop :=
  (∀ (s : State) (h : HostData) (cut : Option Nat), (s.dev.quiesced = 3 ∨ s.dev.quiesced = 4) → Safety.Takes (.imageWrite ⟨h, cut⟩) s s) ∧
  (∀ (s : State) (c : Cmd) (h : HostData) (cut : Option Nat), s.imageCmd 0x28 = some c → s.dev.quiesced ≠ 3 → s.dev.quiesced ≠ 4 →
    let e := c.entry
    let off := fld e.w4 63 32
    let d : Cmd := { c with data := h }
    let ok : Prop := e.headOk false false = true ∧ e.dataOk h = true ∧ fld e.w4 31 1 = 0 ∧ e.w5 = 0 ∧ e.w6 = 0 ∧ e.w7 = 0 ∧ off % 65536 = 0 ∧
      off < 16777216 ∧ e.len % 65536 = 0 ∧ 65536 ≤ e.len ∧ e.len ≤ 1048576 ∧ off + e.len ≤ 16777216
    let at_ := copyBase (bit e.w4 0) + off
    let data := hostBytes e h
    let holds : List Host.Cell → Bytes → Prop := fun m p => Memory.wf s.image.nvm →
      (∀ a, (a < at_ ∨ at_ + p.length ≤ a) → nvmBytes m a 1 = nvmBytes s.image.nvm a 1) ∧ nvmBytes m at_ p.length = p
    (s.loading = true → Safety.Takes (.imageWrite ⟨h, cut⟩) s (s.waitLoad c h)) ∧
    (s.loading = false → ¬ ok → Safety.Settles (.imageWrite ⟨h, cut⟩) s (s.complete d ⟨0, 2⟩ {})) ∧
    (s.loading = false → ok → cut = none →
      ∃ m, Safety.Settles (.imageWrite ⟨h, cut⟩) s ({ s with image := { s.image with nvm := m } }.succeed d) ∧ holds m data) ∧
    (s.loading = false → ok → ∀ k, cut = some k →
      ∃ m, Safety.Settles (.imageWrite ⟨h, cut⟩) s (({ s with image := { s.image with nvm := m } } : State).dropCmd d.id) ∧
        holds m (data.take (256 * k) ++ List.replicate (min data.length (65536 * (k / 256 + 1)) - (data.take (256 * k)).length) 0xFF))) ∧
  ∀ (s : State) (c : Cmd) (fails : List NvmFail), s.imageCmd 0x29 = some c →
    let e := c.entry
    let ok : Prop := e.headOk false false = true ∧ e.noData = true ∧ fld e.w4 63 1 = 0 ∧ e.w5 = 0 ∧ e.w6 = 0 ∧ e.w7 = 0
    let b := bit e.w4 0
    let r := chkCopy s.fuses.keyHash (if s.image.earlyFrom.isSome then some s.image.earlyBytes else none) (failAt fails b) (s.copyBytes b)
    (s.loading = true → Safety.Takes (.imageActivate fails) s (s.waitLoad c ⟨[], []⟩)) ∧
    (s.loading = false → ¬ ok → Safety.Settles (.imageActivate fails) s (s.complete c ⟨0, 2⟩ {})) ∧
    (s.loading = false → ok → ∀ nxt, s.nextLoad fails = some nxt →
      let z := s.modImage fun i => { i with nextCopy := nxt }
      (∀ x, r = .ok x → Safety.Settles (.imageActivate fails) s (z.succeed c (mkw [(8, b2n nxt), (9, b2n x.sigOk)]))) ∧
      ∀ f, r = .error f → Safety.Settles (.imageActivate fails) s
        (z.complete c Status.imageCheckFailed { result := mkw [(0, f.1), (8, b2n nxt), (32, f.2)] })) ∧
    (s.loading = false → ok → s.nextLoad fails = none →
      ∃ nxt, ∃ z, z = s.take.modImage (fun i => { i with nextCopy := nxt }) ∧
        (∀ x, r = .ok x → Safety.Settles (.imageActivate fails) s (z.succeed c (mkw [(8, b2n nxt), (9, b2n x.sigOk)]))) ∧
        ∀ f, r = .error f → Safety.Settles (.imageActivate fails) s
          (z.complete c Status.imageCheckFailed { result := mkw [(0, f.1), (8, b2n nxt), (32, f.2)] }))

/-! ### The writer, the tape and the buffer -/

/-- Blocks and gap entries (R145, R170, R171, R180, R236): the timer cuts the open block under code 1 and an empty one not at all; the codec and the sealer
take the volume's blocks in order, and a fault of one is fatal; a gap entry closes at its time for its tag, and one that waits enters the stream once
a segment can be had. Rows of a failed engine change nothing. -/
def Obligations.BlocksAreCutCompressedAndSealed : Prop :=
  ∀ (s : State) (v : Nat),
    (s.vol? v = none → Safety.Settles (.blockCutTimer v) s s ∧ Safety.Settles (.gapEntryPlace v) s s ∧ ∀ tag, Safety.Settles (.gapEntryTimer v tag) s s) ∧
    (∀ w, s.vol? v = some w →
      (w.opn = [] → Safety.Settles (.blockCutTimer v) s (s.setVol v w)) ∧
      (w.opn ≠ [] → Safety.Settles (.blockCutTimer v) s (s.setVol v
        { w with
          blocks := w.blocks ++ [{ ordinal := w.nextBlock, raw := w.opn, start := w.opnStart, cut := 1, bseq := w.opnSeq, foff := w.opnFoff, isRaw := true,
                                   body := [], iv := [], stored := [], placed := 0, dsns := [], stage := .cut }]
          nextBlock := w.nextBlock + 1, opn := [], opnStart := w.opnStart + w.opn.length, opnFoff := none })) ∧
      (∀ tag : BitVec 16, Tab.has w.gaps tag.toNat = false → Safety.Settles (.gapEntryTimer v tag) s s) ∧
      (∀ tag : BitVec 16, Tab.has w.gaps tag.toNat = true → Safety.Settles (.gapEntryTimer v tag) s (s.closeGap v tag.toNat)) ∧
      (w.gapWait = [] → Safety.Settles (.gapEntryPlace v) s s) ∧
      ∀ g r, w.gapWait = g :: r →
        (s.roomFor v 64 = none → Safety.Settles (.gapEntryPlace v) s s) ∧
        ∀ z, s.roomFor v 64 = some z → Safety.Settles (.gapEntryPlace v) s ((z.modVol v fun w => { w with gapWait := r }).placeGap v g.2)) ∧
    ∀ body fault,
      (s.dev.fatal.getLsbD 3 = true → Safety.Takes (.compressDone v body fault) s s) ∧
      (s.dev.fatal.getLsbD 3 = false → Safety.Settles (.compressDone v body true) s (s.deviceFatal 3 [rdCODEC]) ∧
        Safety.Settles (.compressDone v body false) s (s.compressNext v body false)) ∧
      (s.dev.fatal.getLsbD 4 = true → Safety.Takes (.sealDone v fault) s s) ∧
      (s.dev.fatal.getLsbD 4 = false → Safety.Settles (.sealDone v true) s (s.deviceFatal 4 [rdSEAL]) ∧ Safety.Settles (.sealDone v false) s (s.sealNext v false))

/-- The codec (R171, R172, R176): while four blocks cut earlier wait for a compressor, a block waits, but for one that a reset seals; else the first cut block is stored
under the body that was offered where that is legal for its bytes and saves at least eight of them, or raw; no other block of the volume changes, and nothing but the
volume and the statistics does. -/
def Obligations.CompressionIsLegalOrRaw : Prop :=
  ∀ (s : State) (v : Nat) (body : Option Bytes) (force : Bool) (w : Volume) (b : Block), s.vol? v = some w →
    w.blocks.find? (fun b => b.stage == .cut) = some b →
    (force = false → 4 ≤ s.cutBefore b → s.compressNext v body force = s) ∧
    ((force = true ∨ s.cutBefore b < 4) → (w.blocks.map (·.ordinal)).Nodup →
      ∃ w' : Volume, ∃ b' : Block,
        (s.compressNext v body force).vol? v = some w' ∧ w' = { w with blocks := w.blocks.map fun x => if x.ordinal = b.ordinal then b' else x } ∧
        b' = { b with isRaw := b'.isRaw, body := b'.body, stage := .compressed } ∧
        (b'.isRaw = true → b'.body = b.raw) ∧
        (b'.isRaw = false → body = some b'.body ∧ b'.body.length + 8 ≤ b.raw.length ∧ oaldoLegal b.raw b'.body = true) ∧
        s.compressNext v body force = { s with vols := (s.compressNext v body force).vols, stats := (s.compressNext v body force).stats })

/-- Datasets, intervals and rows (R193, R198, R206, R219, R245, R251, R303): a dataset closes when its user area has no room for one of its volumes, or early for a
Flush or a stop; a separator of a transport that writes opens the gate or writes an interval; a row of an interval of which it is a row is judged, another is not
counted; a directory's row moves the figures of its channel, by what its loop, its framer and its C1 decoder made of the unit. -/
def Obligations.SeparatorsAndRowsDriveTheWriter : Prop :=
  ∀ (s : State) (t : Nat),
    ((s.fmt t).fill = none → Safety.Takes (.datasetClose t) s s) ∧
    (∀ f, (s.fmt t).fill = some f →
      let due : Prop := (∃ r ∈ f.regions, s.userRoom t f r.vidx = 0) ∨ s.closeEarly t = true
      (due → Safety.Settles (.datasetClose t) s (s.closeDataset t)) ∧ (¬ due → Safety.Takes (.datasetClose t) s s)) ∧
    (let writes : Prop := ((s.mot t).state = .streaming ∨ (s.mot t).state = .unloading) ∧ (s.mot t).vel ≠ 0 ∧ (s.fmt t).writing = true ∧
       s.upLanes t ≠ [] ∧ s.dev.quiesced = 0
     (¬ writes → Safety.Takes (.intervalStart t) s s) ∧
     (writes → (s.tp t).gu.gate = true → Safety.Settles (.intervalStart t) s (s.separatorStep t)) ∧
     (writes → (s.tp t).gu.gate = false → (s.tp t).gu.permit = true → (s.tp t).gu.reopen ≤ (s.tp t).gu.validRun →
       Safety.Settles (.intervalStart t) s (s.gateOpen t (s.tp t).link.wbi)) ∧
     (writes → (s.tp t).gu.gate = false → ((s.tp t).gu.permit = false ∨ (s.tp t).gu.validRun < (s.tp t).gu.reopen) →
       Safety.Settles (.intervalStart t) s (s.modGu t fun g => { g with openReq := some (s.tp t).link.wbi }))) ∧
    ∀ r : RowReport,
      (32 ≤ r.track → Safety.Takes (.rowStatus t r) s s) ∧
      (r.track < 32 →
        (∀ g b c, r.kind = .directory g b c →
          let x := readUnit r.track (s.chan t r.track).search (rowHeader 0 2 0 b c 0 g) r.unit
          Safety.Settles (.rowStatus t r) s (s.rowFigures t r.track x (acceptedOf (s.tp t).ld.dirV x.1))) ∧
        (r.kind = .probe →
          let find := (s.fmt t).intervals.find? fun i => i.ord == r.interval && !i.tmask.getLsbD r.track
          (find = none → Safety.Takes (.rowStatus t r) s s) ∧ ∀ i, find = some i → Safety.Settles (.rowStatus t r) s (s.probeRow t i r)) ∧
        ∀ dsn sub row, r.kind = .data dsn sub row →
          let find := (s.fmt t).intervals.find? fun i => i.ord == r.interval && decide (sub < 32) && decide (row < 104)
          (find = none → Safety.Takes (.rowStatus t r) s s) ∧
          ∀ i, find = some i → Safety.Settles (.rowStatus t r) s (s.dataRow t i r dsn sub row))

/-- Buffer errors (R149, R376; Table 08-1): with no pools nothing; a corrected bit is counted; an uncorrectable one retires its segment, counts it, and raises its
event, with Buffer Wear as the retired pass 1 %; records in the segment are lost under cause 1, manager state is fatal, and a segment of a packer, of
staging or of read output loses nothing. -/
def Obligations.BufferErrorsRetireSegments : Prop :=
  ∀ (s : State),
    (s.bm.segTotal = 0 → ∀ target n, Safety.Takes (.bufferUncorrectable target) s s ∧ Safety.Takes (.bufferScrub n) s s) ∧
    (s.bm.segTotal ≠ 0 →
      (∀ n, Safety.Takes (.bufferScrub n) s (({ s with bm := { s.bm with corrected := s.bm.corrected + BitVec.ofNat 32 n } } : State).stat (stDev 0) n)) ∧
      (let retired : Bool → State := fun pool =>
         let z := (({ s with bm := { s.bm with uncorr := min 65535 (s.bm.uncorr + 1), retired := s.bm.retired + 1, shared := s.bm.shared - 1,
                                               sharedFree := if pool then s.bm.sharedFree - 1 else s.bm.sharedFree } } : State).stat (stDev 1) 1).raise evBufferUncorrectable
         if 100 * s.bm.retired ≤ s.bm.segTotal ∧ s.bm.segTotal < 100 * (s.bm.retired + 1) then z.raise evBufferWear else z
       Safety.Takes (.bufferUncorrectable .output) s (retired true) ∧
       (∀ t, (s.tpExists t = true → Safety.Takes (.bufferUncorrectable (.packer t)) s (retired true) ∧
           Safety.Takes (.bufferUncorrectable (.staging t)) s (retired true)) ∧
         (s.tpExists t = false → Safety.Takes (.bufferUncorrectable (.packer t)) s s ∧ Safety.Takes (.bufferUncorrectable (.staging t)) s s)) ∧
       Safety.Settles (.bufferUncorrectable .state) s ((retired true).deviceFatal 1 [rdBUFFER]) ∧
       (∀ v k, s.vol? v = none → Safety.Takes (.bufferUncorrectable (.records v k)) s s) ∧
       ∀ v k w, s.vol? v = some w →
         ((k ∉ w.segs ∨ w.bufPos ≤ 65536 * k) → Safety.Takes (.bufferUncorrectable (.records v k)) s s) ∧
         (k ∈ w.segs → 65536 * k < w.bufPos →
           ∃ z, z = ((retired false).setVol v (w.loseSeg k)).unpin v k ∧
             ∃ z2, z2 = (if (w.loseSeg k).spare < w.claimed then ((z.takeSeg w.tenant).map fun s => s.modVol v fun w => w.addSegs 1).getD z else z) ∧
               Safety.Settles (.bufferUncorrectable (.records v k)) s
                 (z2.loseRecords v 1 false fun r => decide (r.place < 65536 * (k + 1)) && decide (65536 * k < r.place + r.bytes.length)))))

/-- Function Level Resets (R50, R141 to R144, R336; Tables 03-3 and 07-6): of a virtual function, or of the physical one over every tenant together: no command of the
tenant is left, its keys are zeroised, its GEN advances, everything but its Pruning log and snapshot figures is at its reset value, and FUNC returns
where the function exists and HOST is 1; the physical function's also clears VF Enable and NumVFs. One that PERST_N ends while it seals has stopped the tenant's queues
and ended its commands and stands there: FUNC stays 0, no key is zeroised and GEN does not advance. Without a reach to the function nothing changes. -/
def Obligations.FunctionLevelResetsClearTheTenant : Prop :=
  (∀ (s : State) (u : Nat) (held : List (Nat × HostData)) (cut : Option Nat),
    ((u = 0 ∨ 16 ≤ u ∨ s.reach u = false) → Safety.Takes (.vfFlr u ⟨held, cut⟩) s s) ∧
    (0 < u → u < 16 → s.reach u = true →
      (cut = none → ∃ e, Safety.Settles (.vfFlr u ⟨held, cut⟩) s e ∧ (∀ c ∈ e.arb.cmds, c.u ≠ u) ∧
        (∀ v w, e.vol? v = some w → w.tenant = u → w.key = none) ∧
        e.tn u = { gen := (s.tn u).gen + 1, pruneLog := (e.tn u).pruneLog, snapRead := (s.tn u).snapRead, snapLost := (s.tn u).snapLost,
                   func := s.ready rdHOST } ∧
        e.dev.vfEnable = s.dev.vfEnable ∧ ∀ x, x ≠ u → (e.tn x).gen = (s.tn x).gen) ∧
      ∀ n, cut = some n → ∃ e, Safety.Takes (.vfFlr u ⟨held, cut⟩) s e ∧ (∀ c ∈ e.arb.cmds, c.u ≠ u) ∧
        (e.tn u).func = false ∧ (e.tn u).inFlr = true ∧ (e.tn u).cfgEn = false ∧ (e.tn u).rdy = false ∧ (e.tn u).gen = (s.tn u).gen)) ∧
  ∀ (s : State) (held : List (Nat × Nat × HostData)) (cut : Option Nat),
    (s.reach 0 = false → Safety.Takes (.pfFlr ⟨held, cut⟩) s s) ∧
    (s.reach 0 = true →
      (cut = none → ∃ e, Safety.Settles (.pfFlr ⟨held, cut⟩) s e ∧ (∀ c ∈ e.arb.cmds, 16 ≤ c.u) ∧
        (∀ v w, e.vol? v = some w → w.tenant < 16 → w.key = none) ∧
        (∀ u, u < 16 → e.tn u = { gen := (s.tn u).gen + 1, pruneLog := (e.tn u).pruneLog, snapRead := (s.tn u).snapRead, snapLost := (s.tn u).snapLost,
                                  func := (u == 0) && s.ready rdHOST }) ∧
        e.dev.vfEnable = false ∧ e.dev.numVfs = 0) ∧
      ∀ n, cut = some n → ∃ e, Safety.Takes (.pfFlr ⟨held, cut⟩) s e ∧ (∀ c ∈ e.arb.cmds, 16 ≤ c.u) ∧
        (∀ u, u < 16 → (e.tn u).func = false ∧ (e.tn u).inFlr = true ∧ (e.tn u).cfgEn = false ∧ (e.tn u).rdy = false ∧ (e.tn u).gen = (s.tn u).gen) ∧
        e.dev.vfEnable = s.dev.vfEnable ∧ e.dev.numVfs = s.dev.numVfs)
end

