-- ==== Sys2Proof/Laws/Hard.lean ====
section
/-! SUPPORT. One lemma per shared operation: the fuses, the NVM, DV_FATAL and the queue of waiting commands stay as they are (`State.hard`); the
resets clear DV_FATAL, a device fatal error adds its bit. -/

namespace Sys2Proof.Machine

/-- What no command but a reset, a fatal error or an Image Write changes: fuses, NVM, DV_FATAL; and the queue of waiting commands. -/
def State.hard (s : State) : Fuses × List Host.Cell × BitVec 12 × List Instr := (s.fuses, s.image.nvm, s.dev.fatal, s.pending)

@[simp] theorem State.modPins_hard (s : State) (f : Pins → Pins) : (State.modPins s f).hard = s.hard := by
  rfl
@[simp] theorem State.modDev_hard (s : State) (f : Device → Device) (h : ∀ d, (f d).fatal = d.fatal) : (s.modDev f).hard = s.hard := by
  simp [State.hard, State.modDev, h]
@[simp] theorem State.modImage_hard (s : State) (f : Image → Image) (h : ∀ d, (f d).nvm = d.nvm) : (s.modImage f).hard = s.hard := by
  simp [State.hard, State.modImage, h]
@[simp] theorem State.modGpio_hard (s : State) (f : Gpio → Gpio) : (State.modGpio s f).hard = s.hard := by
  rfl
@[simp] theorem State.modTherm_hard (s : State) (f : Thermal → Thermal) : (State.modTherm s f).hard = s.hard := by
  rfl
@[simp] theorem State.modPm_hard (s : State) (f : Power → Power) : (State.modPm s f).hard = s.hard := by
  rfl
@[simp] theorem State.modEv_hard (s : State) (f : Tab EvSource → Tab EvSource) : (State.modEv s f).hard = s.hard := by
  rfl
@[simp] theorem State.modStats_hard (s : State) (f : Stats → Stats) : (State.modStats s f).hard = s.hard := by
  rfl
@[simp] theorem State.modTenants_hard (s : State) (f : Tab Tenant → Tab Tenant) : (State.modTenants s f).hard = s.hard := by
  rfl
@[simp] theorem State.modArb_hard (s : State) (f : Arb → Arb) : (State.modArb s f).hard = s.hard := by
  rfl
@[simp] theorem State.modBm_hard (s : State) (f : Buffer → Buffer) : (State.modBm s f).hard = s.hard := by
  rfl
@[simp] theorem State.modVols_hard (s : State) (f : Tab Volume → Tab Volume) : (State.modVols s f).hard = s.hard := by
  rfl
@[simp] theorem State.modLanes_hard (s : State) (f : Tab Lane → Tab Lane) : (State.modLanes s f).hard = s.hard := by
  rfl
@[simp] theorem State.modTps_hard (s : State) (f : Tab Transport → Tab Transport) : (State.modTps s f).hard = s.hard := by
  rfl
@[simp] theorem State.modCores_hard (s : State) (f : Tab Core → Tab Core) : (State.modCores s f).hard = s.hard := by
  rfl
@[simp] theorem State.modSachet_hard (s : State) (f : Sachet → Sachet) : (State.modSachet s f).hard = s.hard := by
  rfl
@[simp] theorem State.emit_hard (s : State) (o : Output) : (State.emit s o).hard = s.hard := by
  rfl
@[simp] theorem State.take_hard (s : State) : (State.take s).hard = s.hard := by
  rfl
@[simp] theorem State.modTn_hard (s : State) (u : Nat) (f : Tenant → Tenant) : (State.modTn s u f).hard = s.hard := by
  unfold State.modTn
  simp
@[simp] theorem State.modLn_hard (s : State) (n : Nat) (f : Lane → Lane) : (State.modLn s n f).hard = s.hard := by
  unfold State.modLn
  simp
@[simp] theorem State.modTp_hard (s : State) (t : Nat) (f : Transport → Transport) : (State.modTp s t f).hard = s.hard := by
  unfold State.modTp
  simp
@[simp] theorem State.modMot_hard (s : State) (t : Nat) (f : Motion → Motion) : (State.modMot s t f).hard = s.hard := by
  unfold State.modMot
  simp
@[simp] theorem State.modSol_hard (s : State) (t : Nat) (f : Solenoids → Solenoids) : (State.modSol s t f).hard = s.hard := by
  unfold State.modSol
  simp
@[simp] theorem State.modLd_hard (s : State) (t : Nat) (f : Loading → Loading) : (State.modLd s t f).hard = s.hard := by
  unfold State.modLd
  simp
@[simp] theorem State.modFmt_hard (s : State) (t : Nat) (f : Format → Format) : (State.modFmt s t f).hard = s.hard := by
  unfold State.modFmt
  simp
@[simp] theorem State.modGov_hard (s : State) (t : Nat) (f : Governor → Governor) : (State.modGov s t f).hard = s.hard := by
  unfold State.modGov
  simp
@[simp] theorem State.modVfy_hard (s : State) (t : Nat) (f : Verifier → Verifier) : (State.modVfy s t f).hard = s.hard := by
  unfold State.modVfy
  simp
@[simp] theorem State.modRc_hard (s : State) (t : Nat) (f : ReadChannel → ReadChannel) : (State.modRc s t f).hard = s.hard := by
  unfold State.modRc
  simp
@[simp] theorem State.modFe_hard (s : State) (t : Nat) (f : FrontEnd → FrontEnd) : (State.modFe s t f).hard = s.hard := by
  unfold State.modFe
  simp
@[simp] theorem State.modGu_hard (s : State) (t : Nat) (f : Guard → Guard) : (State.modGu s t f).hard = s.hard := by
  unfold State.modGu
  simp
@[simp] theorem State.modLink_hard (s : State) (t : Nat) (f : Link → Link) : (State.modLink s t f).hard = s.hard := by
  unfold State.modLink
  simp
@[simp] theorem State.modSlot_hard (s : State) (t k : Nat) (f : Slot → Slot) : (State.modSlot s t k f).hard = s.hard := by
  unfold State.modSlot
  simp
@[simp] theorem State.modChan_hard (s : State) (t c : Nat) (f : Chan → Chan) : (State.modChan s t c f).hard = s.hard := by
  unfold State.modChan
  simp
@[simp] theorem State.setVol_hard (s : State) (v : Nat) (x : Volume) : (State.setVol s v x).hard = s.hard := by
  unfold State.setVol
  simp
@[simp] theorem State.modVol_hard (s : State) (v : Nat) (f : Volume → Volume) : (State.modVol s v f).hard = s.hard := by
  unfold State.modVol
  split <;> simp
@[simp] theorem State.modQp_hard (s : State) (u q : Nat) (f : QueuePair → QueuePair) : (State.modQp s u q f).hard = s.hard := by
  unfold State.modQp
  split <;> simp
@[simp] theorem State.each_hard {α : Type} (s : State) (l : List α) (f : State → α → State) (h : ∀ s a, (f s a).hard = s.hard) :
    (s.each l f).hard = s.hard := by
  unfold State.each
  induction l generalizing s with
  | nil => rfl
  | cons a r ih => rw [List.foldl_cons, ih, h]
@[simp] theorem State.setReady_hard (s : State) (b : Nat) (v : Bool) : (State.setReady s b v).hard = s.hard := by
  unfold State.setReady
  simp
@[simp] theorem State.stat_hard (s : State) (i n : Nat) : (State.stat s i n).hard = s.hard := by
  unfold State.stat
  simp
@[simp] theorem State.peak_hard (s : State) (i n : Nat) : (State.peak s i n).hard = s.hard := by
  unfold State.peak
  simp
@[simp] theorem State.sendMsix_hard (s : State) (fn vec : Nat) : (State.sendMsix s fn vec).hard = s.hard := by
  unfold State.sendMsix
  simp [apply_ite State.hard]
@[simp] theorem State.flushMsix_hard (s : State) (fn : Nat) : (State.flushMsix s fn).hard = s.hard := by
  unfold State.flushMsix
  simp [apply_ite State.hard]
@[simp] theorem State.modEvSrc_hard (s : State) (e : Nat) (f : EvSource → EvSource) : (State.modEvSrc s e f).hard = s.hard := by
  unfold State.modEvSrc
  simp
@[simp] theorem State.raise_hard (s : State) (e : Nat) : (State.raise s e).hard = s.hard := by
  unfold State.raise
  simp [apply_ite State.hard]
@[simp] theorem State.clearEv_hard (s : State) (e : Nat) : (State.clearEv s e).hard = s.hard := by
  unfold State.clearEv
  simp
@[simp] theorem State.setEna_hard (s : State) (e : Nat) (on : Bool) : (State.setEna s e on).hard = s.hard := by
  unfold State.setEna
  simp [apply_ite State.hard]
@[simp] theorem State.setTpReady_hard (s : State) (t : Nat) (v : Bool) : (State.setTpReady s t v).hard = s.hard := by
  unfold State.setTpReady
  split <;> simp
@[simp] theorem State.discard_hard (s : State) (xid n : Nat) : (State.discard s xid n).hard = s.hard := by
  unfold State.discard
  split <;> simp
@[simp] theorem State.discards_hard (s : State) (ds : Discards) : (State.discards s ds).hard = s.hard := by
  unfold State.discards
  simp
@[simp] theorem State.discardFree_hard (s : State) (xids : List Nat) : (State.discardFree s xids).hard = s.hard := by
  unfold State.discardFree
  simp
@[simp] theorem State.aerFatal_hard (s : State) (fn : Nat) : (State.aerFatal s fn).hard = s.hard := by
  rfl
@[simp] theorem State.aerRead_hard (s : State) (fn : Nat) (e : ReadError) : (State.aerRead s fn e).hard = s.hard := by
  rfl
@[simp] theorem State.logError_hard (s : State) (u : Nat) (st : Status) (i : ErrInfo) : (State.logError s u st i).hard = s.hard := by
  unfold State.logError
  simp [apply_ite State.hard]
@[simp] theorem State.returnSegs_hard (s : State) (u n : Nat) : (State.returnSegs s u n).hard = s.hard := by
  unfold State.returnSegs
  simp
@[simp] theorem State.ungrant_hard (s : State) (u : Nat) (g : Nat × Nat) : (State.ungrant s u g).hard = s.hard := by
  unfold State.ungrant
  simp
@[simp] theorem State.postCqe_hard (s : State) (u q : Nat) (w0 w1 : Word) : (State.postCqe s u q w0 w1).hard = s.hard := by
  unfold State.postCqe
  simp
@[simp] theorem State.signalCq_hard (s : State) (u q : Nat) : (State.signalCq s u q).hard = s.hard := by
  unfold State.signalCq
  simp [apply_ite State.hard]
@[simp] theorem State.giveBack_hard (s : State) (u op vol len : Nat) (segs : Nat × Nat) (bound : Bool) : (State.giveBack s u op vol len segs bound).hard = s.hard := by
  unfold State.giveBack
  (repeat' split) <;> simp
@[simp] theorem State.dropCmd_hard (s : State) (id : Nat) : (State.dropCmd s id).hard = s.hard := by
  unfold State.dropCmd
  split <;> simp
@[simp] theorem State.tryRdy_hard (s : State) (u : Nat) : (State.tryRdy s u).hard = s.hard := by
  unfold State.tryRdy
  simp [apply_ite State.hard]
@[simp] theorem State.rdyDown_hard (s : State) (u : Nat) : (State.rdyDown s u).hard = s.hard := by
  unfold State.rdyDown
  simp [apply_ite State.hard]
@[simp] theorem State.complete_hard (s : State) (c : Cmd) (st : Status) (r : Reply) : (State.complete s c st r).hard = s.hard := by
  unfold State.complete
  simp only [State.rdyDown_hard, apply_ite State.hard, State.signalCq_hard, State.postCqe_hard, ite_self, State.logError_hard, State.stat_hard,
    State.dropCmd_hard]
@[simp] theorem State.succeed_hard (s : State) (c : Cmd) (result : Word) : (State.succeed s c result).hard = s.hard := by
  unfold State.succeed
  simp
@[simp] theorem State.fail_hard (s : State) (c : Cmd) (st : Status) : (State.fail s c st).hard = s.hard := by
  unfold State.fail
  simp
@[simp] theorem State.hostWrite_hard (s : State) (c : Cmd) (data : Bytes) : (State.hostWrite s c data).hard = s.hard := by
  unfold State.hostWrite
  simp
@[simp] theorem State.setStage_hard (s : State) (id : Nat) (st : CmdStage) : (State.setStage s id st).hard = s.hard := by
  unfold State.setStage
  simp
@[simp] theorem State.sachetWrite_hard (s : State) (key n bytes : Nat) : (State.sachetWrite s key n bytes).hard = s.hard := by
  unfold State.sachetWrite
  simp [apply_ite State.hard]
@[simp] theorem State.lifeCkpt_hard (s : State) : (State.lifeCkpt s).hard = s.hard := by
  unfold State.lifeCkpt
  simp
@[simp] theorem State.shadowImage_hard (s : State) (g : Settings) : (State.shadowImage s g).hard = s.hard := by
  unfold State.shadowImage
  simp [apply_ite State.hard]
@[simp] theorem State.newLoss_hard (s : State) : (State.newLoss s).hard = s.hard := by
  unfold State.newLoss
  simp
@[simp] theorem State.putSlot_hard (s : State) (reason : Nat) (vols : List CrashVol) : (State.putSlot s reason vols).hard = s.hard := by
  unfold State.putSlot
  simp
@[simp] theorem State.snapshot_hard (s : State) (reason : Nat) : (State.snapshot s reason).hard = s.hard := by
  unfold State.snapshot
  simp
@[simp] theorem State.journal_hard (s : State) (h : Nat) (isV : Bool) (value : Nat) : (State.journal s h isV value).hard = s.hard := by
  unfold State.journal
  simp only []
  (repeat' split) <;> simp [apply_ite State.hard]
@[simp] theorem State.wholeArea_hard (s : State) (a : Nat) : (State.wholeArea s a).hard = s.hard := by
  unfold State.wholeArea
  simp
@[simp] theorem State.commitDir_hard (s : State) (t : Nat) : (State.commitDir s t).hard = s.hard := by
  unfold State.commitDir
  split <;> simp [apply_ite State.hard]
@[simp] theorem State.commitDirs_hard (s : State) : (State.commitDirs s).hard = s.hard := by
  unfold State.commitDirs
  simp [apply_ite State.hard]
@[simp] theorem State.modDir_hard (s : State) (t : Nat) (f : Directory → Directory) : (State.modDir s t f).hard = s.hard := by
  unfold State.modDir
  simp
@[simp] theorem State.ringDone_hard (s : State) (p : RingEntry → Bool) : (State.ringDone s p).hard = s.hard := by
  unfold State.ringDone
  simp
@[simp] theorem State.ringAppend_hard (s : State) (uuid : BitVec 128) (seq : Nat) (body : Bytes) : (State.ringAppend s uuid seq body).hard = s.hard := by
  unfold State.ringAppend
  simp
@[simp] theorem State.sendWord_hard (s : State) (t ty : Nat) (payload : Word) : (State.sendWord s t ty payload).hard = s.hard := by
  unfold State.sendWord
  simp [apply_ite State.hard]
@[simp] theorem State.sendLink_hard (s : State) (t op lane sn : Nat) : (State.sendLink s t op lane sn).hard = s.hard := by
  unfold State.sendLink
  simp
@[simp] theorem State.sendStop_hard (s : State) (t : Nat) (emergency : Bool) : (State.sendStop s t emergency).hard = s.hard := by
  unfold State.sendStop
  simp
@[simp] theorem State.gateClose_hard (s : State) (t cause : Nat) : (State.gateClose s t cause).hard = s.hard := by
  unfold State.gateClose
  simp [apply_ite State.hard]
@[simp] theorem State.gateOpen_hard (s : State) (t wbi : Nat) : (State.gateOpen s t wbi).hard = s.hard := by
  unfold State.gateOpen
  simp
@[simp] theorem State.sendDrive_hard (s : State) (t : Nat) : (State.sendDrive s t).hard = s.hard := by
  unfold State.sendDrive
  simp
@[simp] theorem State.reelsOff_hard (s : State) (t : Nat) : (State.reelsOff s t).hard = s.hard := by
  unfold State.reelsOff
  simp
@[simp] theorem State.driveOff_hard (s : State) (t : Nat) : (State.driveOff s t).hard = s.hard := by
  unfold State.driveOff
  simp
@[simp] theorem State.sendSol_hard (s : State) (t : Nat) : (State.sendSol s t).hard = s.hard := by
  unfold State.sendSol
  simp
@[simp] theorem State.solPullin_hard (s : State) (t k : Nat) : (State.solPullin s t k).hard = s.hard := by
  unfold State.solPullin
  simp
@[simp] theorem State.solRequest_hard (s : State) (t k : Nat) : (State.solRequest s t k).hard = s.hard := by
  unfold State.solRequest
  simp [apply_ite State.hard]
@[simp] theorem State.solRelease_hard (s : State) (t : Nat) (ks : List Nat) : (State.solRelease s t ks).hard = s.hard := by
  unfold State.solRelease
  simp only []
  (repeat' split) <;> simp [apply_ite State.hard]
@[simp] theorem State.brakesOff_hard (s : State) (t : Nat) : (State.brakesOff s t).hard = s.hard := by
  unfold State.brakesOff
  simp
@[simp] theorem State.brakesOn_hard (s : State) (t : Nat) : (State.brakesOn s t).hard = s.hard := by
  unfold State.brakesOn
  simp
@[simp] theorem State.emitMgmt_hard (s : State) (t : Nat) (r : MgmtReq) : (State.emitMgmt s t r).hard = s.hard := by
  unfold State.emitMgmt
  simp
@[simp] theorem State.mgmtRequest_hard (s : State) (t op : Nat) (arg : Word) (data : Bytes) : (State.mgmtRequest s t op arg data).hard = s.hard := by
  unfold State.mgmtRequest
  simp [apply_ite State.hard]
@[simp] theorem State.mgmtEnd_hard (s : State) (t tag : Nat) : (State.mgmtEnd s t tag).hard = s.hard := by
  unfold State.mgmtEnd
  simp only []
  (repeat' split) <;> simp [apply_ite State.hard]
@[simp] theorem State.writeParams_hard (s : State) (t : Nat) : (State.writeParams s t).hard = s.hard := by
  unfold State.writeParams
  simp
@[simp] theorem State.clearAs_hard (s : State) (t : Nat) : (State.clearAs s t).hard = s.hard := by
  unfold State.clearAs
  split <;> simp
@[simp] theorem State.releaseVol_hard (s : State) (h : Nat) : (State.releaseVol s h).hard = s.hard := by
  unfold State.releaseVol
  split <;> simp
theorem State.takeSeg_hard (s : State) (u : Nat) : ∀ s1, State.takeSeg s u = some s1 → s1.hard = s.hard := by
  unfold State.takeSeg
  simp only []
  (repeat' split) <;> simp [apply_ite State.hard]
theorem State.roomFor_hard (s : State) (h n : Nat) : ∀ s1, State.roomFor s h n = some s1 → s1.hard = s.hard := by
  intro s1 e
  unfold State.roomFor at e
  split at e
  · simp at e
  · split at e
    · simp_all
    · obtain ⟨a, ha, rfl⟩ := Option.map_eq_some_iff.1 e
      simp [State.takeSeg_hard _ _ a ha]
@[simp] theorem State.placeGap_hard (s : State) (h : Nat) (bs : Bytes) : (State.placeGap s h bs).hard = s.hard := by
  unfold State.placeGap
  simp
@[simp] theorem State.gapLog_hard (s : State) (h : Nat) (w : Volume) (tag : Nat) (g : GapOpen) : (State.gapLog s h w tag g).hard = s.hard := by
  unfold State.gapLog
  simp
@[simp] theorem State.dropGaps_hard (s : State) (h : Nat) : (State.dropGaps s h).hard = s.hard := by
  unfold State.dropGaps
  split <;> simp
@[simp] theorem State.closeGap_hard (s : State) (h tag : Nat) : (State.closeGap s h tag).hard = s.hard := by
  unfold State.closeGap
  split
  · rfl
  · split
    · simp only []
      split
      · rename_i s4 e
        split at e
        · simp [State.roomFor_hard _ _ _ _ e]
        · simp at e
      · simp
    · rfl
@[simp] theorem State.closeGaps_hard (s : State) (h : Nat) : (State.closeGaps s h).hard = s.hard := by
  unfold State.closeGaps
  split <;> simp
@[simp] theorem State.cut_hard (s : State) (h code : Nat) : (State.cut s h code).hard = s.hard := by
  unfold State.cut
  simp
@[simp] theorem State.syncDir_hard (s : State) (h : Nat) : (State.syncDir s h).hard = s.hard := by
  unfold State.syncDir
  split <;> simp
@[simp] theorem State.raiseV_hard (s : State) (h : Nat) : (State.raiseV s h).hard = s.hard := by
  unfold State.raiseV
  (repeat' split) <;> simp
@[simp] theorem State.replayCheck_hard (s : State) (h : Nat) : (State.replayCheck s h).hard = s.hard := by
  unfold State.replayCheck
  (repeat' split) <;> simp
@[simp] theorem State.settleVol_hard (s : State) (h : Nat) : (State.settleVol s h).hard = s.hard := by
  unfold State.settleVol
  split <;> simp
@[simp] theorem State.anchor_hard (s : State) (h : Nat) (w : Volume) (kind n last : Nat) (hash : Bytes) : (State.anchor s h w kind n last hash).hard = s.hard := by
  unfold State.anchor
  simp
@[simp] theorem State.regionVerified_hard (s : State) (t dsn : Nat) (r : Region) : (State.regionVerified s t dsn r).hard = s.hard := by
  unfold State.regionVerified
  (repeat' split) <;> simp
@[simp] theorem State.datasetVerified_hard (s : State) (t : Nat) (d : Dataset) : (State.datasetVerified s t d).hard = s.hard := by
  unfold State.datasetVerified
  simp
@[simp] theorem State.addLost_hard (s : State) (t : Nat) (r : LostRange) : (State.addLost s t r).hard = s.hard := by
  unfold State.addLost
  simp
@[simp] theorem State.reportLoss_hard (s : State) (h : Nat) (w : Volume) (cause gen first last : Nat) : (State.reportLoss s h w cause gen first last).hard = s.hard := by
  unfold State.reportLoss
  simp [apply_ite State.hard]
@[simp] theorem State.flushCarries_hard (s : State) (h : Nat) (w : Volume) (rs : List (Nat × Nat × Nat)) :
    (State.flushCarries s h w rs).hard = s.hard := by
  unfold State.flushCarries
  refine State.each_hard _ _ _ fun s c => ?_
  simp only []
  (repeat' split) <;> simp
@[simp] theorem State.loseRecords_hard (s : State) (h cause : Nat) (rep : Bool) (p : BufRec → Bool) : (State.loseRecords s h cause rep p).hard = s.hard := by
  unfold State.loseRecords
  split <;> simp [apply_ite State.hard]
@[simp] theorem State.zeroise_hard (s : State) (h : Nat) : (State.zeroise s h).hard = s.hard := by
  unfold State.zeroise
  simp
@[simp] theorem State.dropVol_hard (s : State) (h : Nat) : (State.dropVol s h).hard = s.hard := by
  unfold State.dropVol
  split <;> simp
@[simp] theorem State.takeDsn_hard (s : State) (t : Nat) : (State.takeDsn s t).2.hard = s.hard := by
  unfold State.takeDsn
  simp only []
  (repeat' split) <;> simp [apply_ite State.hard]
@[simp] theorem State.reuseGroup_hard (s : State) (t g : Nat) : (State.reuseGroup s t g).hard = s.hard := by
  unfold State.reuseGroup
  simp
@[simp] theorem State.halt_hard (s : State) (t : Nat) : (State.halt s t).hard = s.hard := by
  unfold State.halt
  simp [apply_ite State.hard]
@[simp] theorem State.packOn_hard (s : State) (t : Nat) : (State.packOn s t).hard = s.hard := by
  unfold State.packOn
  (repeat' split) <;> simp
@[simp] theorem State.retarget_hard (s : State) (t : Nat) : (State.retarget s t).hard = s.hard := by
  unfold State.retarget
  split <;> simp [apply_ite State.hard]
@[simp] theorem State.closeGroup_hard (s : State) (t : Nat) : (State.closeGroup s t).hard = s.hard := by
  unfold State.closeGroup
  simp only []
  (repeat' split) <;> simp [apply_ite State.hard]
@[simp] theorem State.groupCheck_hard (s : State) (t : Nat) : (State.groupCheck s t).hard = s.hard := by
  unfold State.groupCheck
  simp [apply_ite State.hard]
@[simp] theorem State.closeRegion_hard (s : State) (t off : Nat) (r : Region) : (State.closeRegion s t off r).2.hard = s.hard := by
  unfold State.closeRegion
  split <;> simp
@[simp] theorem State.closeDataset_hard (s : State) (t : Nat) : (State.closeDataset s t).hard = s.hard := by
  have fold : ∀ (l : List Region) (a : List Region × Nat × State), (l.foldl (fun (a : List Region × Nat × State) r =>
      let (r1, s') := a.2.2.closeRegion t a.2.1 r
      (a.1 ++ [r1], a.2.1 + (regionAll r1).length, s')) a).2.2.hard = a.2.2.hard := by
    intro l
    induction l with
    | nil => intro a; rfl
    | cons r l ih => intro a; rw [List.foldl_cons, ih]; simp
  unfold State.closeDataset
  split
  · rfl
  · simp only [State.groupCheck_hard]
    refine (State.each_hard _ _ _ fun s r => ?_).trans ?_
    · split <;> simp
    · simp only [State.modFmt_hard]
      exact fold _ _
theorem State.fillFor_hard (s : State) (t vidx : Nat) (force : Bool) : ∀ s1, State.fillFor s t vidx force = some s1 → s1.hard = s.hard := by
  unfold State.fillFor
  simp only []
  (repeat' split) <;> simp [apply_ite State.hard]
@[simp] theorem State.placeBlock_hard (force : Bool) (n h ord : Nat) (s : State) : (State.placeBlock force n h ord s).hard = s.hard := by
  induction n generalizing s with
  | zero => rfl
  | succ n ih =>
    unfold State.placeBlock
    split
    · rfl
    · split
      · rfl
      · split
        · rfl
        · split
          · rfl
          · rename_i s1 e
            have e1 := State.fillFor_hard _ _ _ _ _ e
            split
            · exact e1
            · simp only [ih]
              split <;> simp [e1]
@[simp] theorem State.placeRest_hard (s : State) (h : Nat) : (State.placeRest s h).hard = s.hard := by
  unfold State.placeRest
  split <;> simp
@[simp] theorem State.sealBlock_hard (s : State) (h : Nat) (w : Volume) (b : Block) (dsn idx : Nat) : (State.sealBlock s h w b dsn idx).hard = s.hard := by
  unfold State.sealBlock
  simp
@[simp] theorem State.sealNext_hard (s : State) (h : Nat) (force : Bool) : (State.sealNext s h force).hard = s.hard := by
  unfold State.sealNext
  simp only []
  split
  · simp
  · split
    · simp
    · split
      · simp
      · split
        · split <;> simp
        · rename_i s1 e
          have e1 : s1.hard = s.hard := by
            split at e
            · rw [State.fillFor_hard _ _ _ _ _ e, State.placeRest_hard]
            · simp at e
          split <;> simp [e1]
@[simp] theorem State.numberCuts_hard (s : State) (h : Nat) : (State.numberCuts s h).hard = s.hard := by
  unfold State.numberCuts
  split <;> simp
@[simp] theorem State.compressNext_hard (s : State) (h : Nat) (body : Option Bytes) (force : Bool) : (State.compressNext s h body force).hard = s.hard := by
  unfold State.compressNext
  simp only []
  (repeat' split) <;> simp [apply_ite State.hard]
@[simp] theorem State.sealAll_hard (s : State) (h : Nat) : (State.sealAll s h).hard = s.hard := by
  unfold State.sealAll
  simp only []
  (repeat' split) <;> simp [apply_ite State.hard]
@[simp] theorem State.openRegion_hard (s : State) (t : Nat) (w : Volume) : (State.openRegion s t w).hard = s.hard := by
  unfold State.openRegion
  split <;> simp [apply_ite State.hard]
@[simp] theorem State.raiseChain_hard (s : State) (h : Nat) (e : ChainEntry) : (State.raiseChain s h e).hard = s.hard := by
  unfold State.raiseChain
  simp only []
  (repeat' split) <;> simp [apply_ite State.hard]
@[simp] theorem State.flushChain_hard (s : State) (h : Nat) : (State.flushChain s h).hard = s.hard := by
  unfold State.flushChain
  split
  · rfl
  · split
    · rfl
    · split
      · rfl
      · rename_i s1 e
        simp [State.fillFor_hard _ _ _ _ _ e]
@[simp] theorem State.modDs_hard (s : State) (t dsn : Nat) (f : DsState → DsState) : (State.modDs s t dsn f).hard = s.hard := by
  unfold State.modDs
  simp
@[simp] theorem State.writeAgain_hard (s : State) (t : Nat) (d : Dataset) (again : Bool) : (State.writeAgain s t d again).hard = s.hard := by
  unfold State.writeAgain
  simp only [State.groupCheck_hard]
  rw [State.each_hard _ _ _ (fun s r => by split <;> simp)]
  simp
@[simp] theorem State.excludeOld_hard (s : State) (t : Nat) (ds : List Dataset) : (State.excludeOld s t ds).hard = s.hard := by
  unfold State.excludeOld
  simp
@[simp] theorem State.moveWrap_hard (s : State) (t : Nat) (ds : List Dataset) (wrap : Nat) : (State.moveWrap s t ds wrap).hard = s.hard := by
  unfold State.moveWrap
  simp
@[simp] theorem State.toPackWrap_hard (s : State) (t : Nat) : (State.toPackWrap s t).hard = s.hard := by
  unfold State.toPackWrap
  simp [apply_ite State.hard]
@[simp] theorem State.unwritable_hard (s : State) (t : Nat) : (State.unwritable s t).hard = s.hard := by
  unfold State.unwritable
  simp
@[simp] theorem State.abandonMove_hard (s : State) (t : Nat) : (State.abandonMove s t).hard = s.hard := by
  unfold State.abandonMove
  simp [apply_ite State.hard]
@[simp] theorem State.leaveRest_hard (s : State) (t : Nat) : (State.leaveRest s t).hard = s.hard := by
  unfold State.leaveRest
  simp [apply_ite State.hard]
@[simp] theorem State.abandonWrap_hard (s : State) (t : Nat) : (State.abandonWrap s t).hard = s.hard := by
  unfold State.abandonWrap
  simp [apply_ite State.hard]
@[simp] theorem State.tryResume_hard (s : State) (t : Nat) : (State.tryResume s t).hard = s.hard := by
  unfold State.tryResume
  simp only []
  (repeat' split) <;> simp [apply_ite State.hard]
@[simp] theorem State.retry_hard (s : State) (t dsn : Nat) (counts : Bool) : (State.retry s t dsn counts).hard = s.hard := by
  unfold State.retry
  (repeat' split) <;> simp
@[simp] theorem State.rowFailed_hard (s : State) (t stop dsn sub row rwc track : Nat) : (State.rowFailed s t stop dsn sub row rwc track).hard = s.hard := by
  unfold State.rowFailed
  simp only []
  (repeat' split) <;> simp [apply_ite State.hard]
@[simp] theorem State.rowAccepted_hard (s : State) (t dsn sub row : Nat) : (State.rowAccepted s t dsn sub row).hard = s.hard := by
  unfold State.rowAccepted
  simp only []
  (repeat' split) <;> simp [apply_ite State.hard]
@[simp] theorem State.cutWrites_hard (s : State) (t : Nat) : (State.cutWrites s t).hard = s.hard := by
  unfold State.cutWrites
  simp only []
  (repeat' split) <;> simp [apply_ite State.hard]
@[simp] theorem State.wake_hard (s : State) (cause : Nat) : (State.wake s cause).hard = s.hard := by
  unfold State.wake
  split <;> simp
@[simp] theorem State.syncReady_hard (s : State) (t : Nat) : (State.syncReady s t).hard = s.hard := by
  unfold State.syncReady
  simp
@[simp] theorem State.setTState_hard (s : State) (t : Nat) (st : TState) : (State.setTState s t st).hard = s.hard := by
  unfold State.setTState
  simp
@[simp] theorem State.aim_hard (s : State) (t : Nat) (g : Target) : (State.aim s t g).hard = s.hard := by
  unfold State.aim
  simp
@[simp] theorem State.startMotion_hard (s : State) (t : Nat) : (State.startMotion s t).hard = s.hard := by
  unfold State.startMotion
  simp [apply_ite State.hard]
@[simp] theorem State.startWrite_hard (s : State) (t : Nat) : (State.startWrite s t).hard = s.hard := by
  unfold State.startWrite
  simp
@[simp] theorem State.failTape_hard (s : State) (t : Nat) (st : Status) : (State.failTape s t st).hard = s.hard := by
  unfold State.failTape
  simp
@[simp] theorem State.enterOos_hard (s : State) (t cause : Nat) : (State.enterOos s t cause).hard = s.hard := by
  unfold State.enterOos
  split <;> simp
@[simp] theorem State.dropExc_hard (s : State) (t : Nat) : (State.dropExc s t).hard = s.hard := by
  unfold State.dropExc
  split
  · rfl
  · rw [State.modMot_hard, State.each_hard _ _ _ (fun s r => by (repeat' split) <;> simp)]
@[simp] theorem State.controlledStop_hard (s : State) (t : Nat) (goal : StopGoal) : (State.controlledStop s t goal).hard = s.hard := by
  unfold State.controlledStop
  (repeat' split) <;> simp [apply_ite State.hard]
@[simp] theorem State.orderedStop_hard (s : State) (t : Nat) (goal : StopGoal) : (State.orderedStop s t goal).hard = s.hard := by
  unfold State.orderedStop
  simp [apply_ite State.hard]
@[simp] theorem State.emergencyStop_hard (s : State) (t cause : Nat) : (State.emergencyStop s t cause).hard = s.hard := by
  unfold State.emergencyStop
  simp
@[simp] theorem State.relax_hard (s : State) (t : Nat) : (State.relax s t).hard = s.hard := by
  unfold State.relax
  simp
@[simp] theorem State.park_hard (s : State) (t : Nat) : (State.park s t).hard = s.hard := by
  unfold State.park
  simp
@[simp] theorem State.trainStart_hard (s : State) (n : Nat) : (State.trainStart s n).hard = s.hard := by
  unfold State.trainStart
  simp
@[simp] theorem State.laneDownBits_hard (s : State) (n : Nat) : (State.laneDownBits s n).hard = s.hard := by
  unfold State.laneDownBits
  simp
@[simp] theorem State.laneEnterUp_hard (s : State) (n : Nat) : (State.laneEnterUp s n).hard = s.hard := by
  unfold State.laneEnterUp
  simp [apply_ite State.hard]
@[simp] theorem State.laneFailCount_hard (s : State) (n : Nat) : (State.laneFailCount s n).hard = s.hard := by
  unfold State.laneFailCount
  simp
@[simp] theorem State.laneLoss_hard (s : State) (t : Nat) : (State.laneLoss s t).hard = s.hard := by
  unfold State.laneLoss
  simp [apply_ite State.hard]
@[simp] theorem State.quarantineLane_hard (s : State) (n : Nat) : (State.quarantineLane s n).hard = s.hard := by
  unfold State.quarantineLane
  simp
@[simp] theorem State.quarantine_hard (s : State) (n : Nat) : (State.quarantine s n).hard = s.hard := by
  unfold State.quarantine
  simp
@[simp] theorem State.rejoined_hard (s : State) (n : Nat) : (State.rejoined s n).hard = s.hard := by
  unfold State.rejoined
  simp
@[simp] theorem State.failLane_hard (s : State) (n : Nat) : (State.failLane s n).hard = s.hard := by
  unfold State.failLane
  (repeat' split) <;> simp
@[simp] theorem State.rxSlot_hard (s : State) (n : Nat) (x : XSlot) : (State.rxSlot s n x).1.hard = s.hard := by
  unfold State.rxSlot
  simp only []
  (repeat' split) <;> simp [apply_ite State.hard]
@[simp] theorem State.accept_hard (s : State) (n ty : Nat) (x : XSlot) : (State.accept s n ty x).1.hard = s.hard := by
  have e := State.rxSlot_hard s n x
  unfold State.accept
  split <;> simp_all
  (repeat' split) <;> simp_all
@[simp] theorem State.failNotReady_hard (s : State) (c : Cmd) (b : Nat) : (State.failNotReady s c b).hard = s.hard := by
  unfold State.failNotReady
  simp
@[simp] theorem State.closeWriter_hard (s : State) (t : Nat) : (State.closeWriter s t).hard = s.hard := by
  unfold State.closeWriter
  simp
@[simp] theorem State.orderStop_hard (s : State) (t : Nat) (goal : StopGoal) : (State.orderStop s t goal).hard = s.hard := by
  unfold State.orderStop
  simp [apply_ite State.hard]
@[simp] theorem State.closeCheck_hard (s : State) (t : Nat) : (State.closeCheck s t).hard = s.hard := by
  unfold State.closeCheck
  simp [apply_ite State.hard]
@[simp] theorem State.haltCheck_hard (s : State) (t : Nat) : (State.haltCheck s t).hard = s.hard := by
  unfold State.haltCheck
  simp [apply_ite State.hard]
@[simp] theorem State.resumeCheck_hard (s : State) (t : Nat) : (State.resumeCheck s t).hard = s.hard := by
  unfold State.resumeCheck
  simp [apply_ite State.hard]
@[simp] theorem State.writeCopy_hard (s : State) (t : Nat) (b : Bool) (d : Directory) : (State.writeCopy s t b d).1.hard = s.hard := by
  simp [State.writeCopy]
@[simp] theorem State.writeTries_hard (t : Nat) (b : Bool) (d : Directory) (n : Nat) (s : State) :
    (State.writeTries t b d n s).1.hard = s.hard := by
  induction n generalizing s with
  | zero => rfl
  | succ n ih =>
    unfold State.writeTries
    simp only []
    split <;> simp [ih]
@[simp] theorem State.writeDir_hard (s : State) (t : Nat) (opn : Bool) : (State.writeDir s t opn).hard = s.hard := by
  unfold State.writeDir
  simp only []
  split <;> simp
@[simp] theorem State.beginUnload_hard (s : State) (t : Nat) (dir : DirRead) (servoOk : Bool) : (State.beginUnload s t dir servoOk).hard = s.hard := by
  unfold State.beginUnload
  simp [apply_ite State.hard]
@[simp] theorem State.unloadVol_hard (s : State) (t h : Nat) : (State.unloadVol s t h).hard = s.hard := by
  unfold State.unloadVol
  (repeat' split) <;> simp
@[simp] theorem State.unloadFinish_hard (s : State) (t : Nat) : (State.unloadFinish s t).hard = s.hard := by
  unfold State.unloadFinish
  simp [apply_ite State.hard]
@[simp] theorem State.unloadCheck_hard (s : State) (t : Nat) : (State.unloadCheck s t).hard = s.hard := by
  unfold State.unloadCheck
  simp [apply_ite State.hard]
@[simp] theorem State.closeFor_hard (s : State) (t vidx : Nat) : (State.closeFor s t vidx).hard = s.hard := by
  unfold State.closeFor
  split <;> simp [apply_ite State.hard]
@[simp] theorem State.finishDelete_hard (s : State) (c : Cmd) : (State.finishDelete s c).hard = s.hard := by
  unfold State.finishDelete
  simp only []
  (repeat' split) <;> simp [apply_ite State.hard]
@[simp] theorem State.finishClear_hard (s : State) (c : Cmd) : (State.finishClear s c).hard = s.hard := by
  unfold State.finishClear
  simp only []
  (repeat' split) <;> simp [apply_ite State.hard]
@[simp] theorem State.settleCmd_hard (s : State) (c : Cmd) : (State.settleCmd s c).hard = s.hard := by
  unfold State.settleCmd
  (repeat' split) <;> simp [apply_ite State.hard]
@[simp] theorem State.settleBlocks_hard (s : State) (h : Nat) : (State.settleBlocks s h).hard = s.hard := by
  unfold State.settleBlocks
  simp
@[simp] theorem State.settle_hard (s : State) : (State.settle s).hard = s.hard := by
  unfold State.settle
  simp [apply_ite State.hard]
@[simp] theorem State.quiesceStep_hard (s : State) (reason k : Nat) : (State.quiesceStep s reason k).hard = s.hard := by
  unfold State.quiesceStep
  split <;> simp [apply_ite State.hard]
@[simp] theorem State.quiesceTo_hard (s : State) (reason upTo : Nat) : (State.quiesceTo s reason upTo).hard = s.hard := by
  unfold State.quiesceTo
  simp only []
  generalize List.range' _ _ = l
  induction l generalizing s with
  | nil => rfl
  | cons k r ih => rw [List.foldl_cons, ih, State.quiesceStep_hard]
@[simp] theorem State.quiesce_hard (s : State) (reason : Nat) : (State.quiesce s reason).hard = s.hard := by
  unfold State.quiesce
  simp [apply_ite State.hard]
@[simp] theorem State.fatalTape_hard (s : State) : (State.fatalTape s).hard = s.hard := by
  unfold State.fatalTape
  simp
@[simp] theorem State.fatalCmds_hard (s : State) (p : Cmd → Bool) : (State.fatalCmds s p).hard = s.hard := by
  unfold State.fatalCmds
  simp
@[simp] theorem State.deviceFatal_hard (s : State) (cause : Nat) (bits : List Nat) :
    (s.deviceFatal cause bits).hard = (s.fuses, s.image.nvm, setBit s.dev.fatal cause true, s.pending) := by
  unfold State.deviceFatal
  simp
  rfl
@[simp] theorem State.run_hard (s : State) (c : Option Cmd) (f : Cmd → State) (h : ∀ c, (f c).hard = s.hard) : (s.run c f).hard = s.hard := by
  unfold State.run; split <;> simp [h]
@[simp] theorem State.loadSlots_hard (s : State) (t : Nat) : (State.loadSlots s t).hard = s.hard := by
  unfold State.loadSlots
  simp
@[simp] theorem State.startLink_hard (s : State) (t : Nat) : (State.startLink s t).hard = s.hard := by
  unfold State.startLink
  simp only [State.modMot_hard, State.loadSlots_hard]
  exact State.each_hard s (s.lanesOf t) (fun s n => (s.modLn n fun x => { x with state := .down }).trainStart n) (fun s n => by simp)
@[simp] theorem State.hostUp_hard (s : State) : (State.hostUp s).hard = s.hard := by
  unfold State.hostUp
  simp [apply_ite State.hard]
@[simp] theorem State.porReset_hard (s : State) : (porReset s).hard = (s.fuses, s.image.nvm, 0, s.pending) := by
  rfl
@[simp] theorem State.warmReset_hard (s : State) (last : Nat) : (warmReset s last).hard = (s.fuses, s.image.nvm, 0, s.pending) := by
  rfl
@[simp] theorem State.coreReset_hard (s : State) (c : Nat) : (s.coreReset c).hard = s.hard := by
  unfold State.coreReset
  simp only [apply_ite State.hard, State.startLink_hard, State.setReady_hard, implies_true, State.each_hard, ite_self]
  rfl
@[simp] theorem State.tlp_hard (s : State) : (State.tlp s).hard = s.hard := by
  unfold State.tlp
  split <;> simp
@[simp] theorem State.endBursts_hard (s : State) : (State.endBursts s).hard = s.hard := by
  unfold State.endBursts
  simp [apply_ite State.hard]
@[simp] theorem State.dispatch_hard (s : State) (c : Cmd) : (State.dispatch s c).hard = s.hard := by
  unfold State.dispatch
  simp only []
  (repeat' split) <;> simp [apply_ite State.hard]
@[simp] theorem State.withdraw_hard (s : State) (u q : Nat) : (State.withdraw s u q).hard = s.hard := by
  unfold State.withdraw
  simp only []
  (repeat' split) <;> simp [apply_ite State.hard]
@[simp] theorem State.closePair_hard (s : State) (u q : Nat) : (State.closePair s u q).hard = s.hard := by
  unfold State.closePair
  simp
@[simp] theorem State.fetch_hard (s : State) (u q : Nat) (cls : QClass) : (State.fetch s u q cls).hard = s.hard := by
  unfold State.fetch
  simp only []
  split
  · split <;> simp
  · simp only [State.dispatch_hard]
    split <;> split <;> simp
@[simp] theorem State.applyClasses_hard (s : State) : (State.applyClasses s).hard = s.hard := by
  unfold State.applyClasses
  refine State.each_hard _ _ _ fun s x => ?_
  simp only []
  (repeat' split) <;> simp
@[simp] theorem State.serveTenant_hard (s : State) (u : Nat) : (State.serveTenant s u).hard = s.hard := by
  unfold State.serveTenant
  simp only []
  (repeat' split) <;> simp
@[simp] theorem State.drrDecision_hard (s : State) : (State.drrDecision s).hard = s.hard := by
  unfold State.drrDecision
  simp [apply_ite State.hard]
@[simp] theorem State.noteRing_hard (s : State) (ring : List (Nat × Nat × Nat)) : (State.noteRing s ring).hard = s.hard := by
  unfold State.noteRing
  simp
@[simp] theorem State.ioDecision_hard (s : State) : (State.ioDecision s).hard = s.hard := by
  unfold State.ioDecision
  simp only []
  (repeat' split) <;> simp [apply_ite State.hard]
@[simp] theorem State.adminDecision_hard (s : State) : (State.adminDecision s).hard = s.hard := by
  unfold State.adminDecision
  split <;> simp
@[simp] theorem State.decideRequest_hard (s : State) (u q : Nat) (e : SubEntry) : (State.decideRequest s u q e).hard = s.hard := by
  unfold State.decideRequest
  simp [apply_ite State.hard]
@[simp] theorem State.allocate_hard (s : State) : (State.allocate s).hard = s.hard := by
  unfold State.allocate
  simp only []
  (repeat' split) <;> simp [apply_ite State.hard]
@[simp] theorem State.doorbellInvalid_hard (s : State) (u q : Nat) : (State.doorbellInvalid s u q).hard = s.hard := by
  unfold State.doorbellInvalid
  simp
@[simp] theorem State.dropVfs_hard (s : State) : (State.dropVfs s).hard = s.hard := by
  unfold State.dropVfs
  simp
@[simp] theorem State.tqEnable_hard (s : State) (u : Nat) : (State.tqEnable s u).hard = s.hard := by
  unfold State.tqEnable
  split <;> simp
@[simp] theorem State.tqDisable_hard (s : State) (u : Nat) : (State.tqDisable s u).hard = s.hard := by
  unfold State.tqDisable
  split <;> simp
@[simp] theorem State.sqTail_hard (s : State) (u q : Nat) (value : BitVec 64) (entries : List SubEntry) : (State.sqTail s u q value entries).hard = s.hard := by
  unfold State.sqTail
  simp [apply_ite State.hard]
@[simp] theorem State.cqHead_hard (s : State) (u q : Nat) (value : BitVec 64) : (State.cqHead s u q value).hard = s.hard := by
  unfold State.cqHead
  simp [apply_ite State.hard]
@[simp] theorem State.offer_hard (s : State) (t n : Nat) : (State.offer s t n).hard = s.hard := by
  unfold State.offer
  simp
@[simp] theorem State.beginWrite_hard (s : State) (t : Nat) : (State.beginWrite s t).hard = s.hard := by
  unfold State.beginWrite
  (repeat' split) <;> simp
@[simp] theorem State.evaluate_hard (s : State) (t : Nat) : (State.evaluate s t).hard = s.hard := by
  unfold State.evaluate
  simp only []
  (repeat' split) <;> simp [apply_ite State.hard]
@[simp] theorem State.tamperEffects_hard (s : State) (pin : Nat) : (State.tamperEffects s pin).hard = s.hard := by
  unfold State.tamperEffects
  simp
@[simp] theorem State.enterSafe_hard (s : State) : (State.enterSafe s).hard = s.hard := by
  unfold State.enterSafe
  simp [apply_ite State.hard]
@[simp] theorem State.deliver_hard (s : State) (g : Settings) : (State.deliver s g).hard = s.hard := by
  unfold State.deliver
  simp [apply_ite State.hard]
@[simp] theorem State.loadImage_hard (s : State) (fails : List NvmFail) : (State.loadImage s fails).hard = s.hard := by
  unfold State.loadImage
  simp only []
  (repeat' split) <;> simp [apply_ite State.hard]
@[simp] theorem State.doImageActivate_hard (s : State) (c : Cmd) (fails : List NvmFail) : (State.doImageActivate s c fails).hard = s.hard := by
  unfold State.doImageActivate
  simp only []
  (repeat' split) <;> simp [apply_ite State.hard]
@[simp] theorem State.waitLoad_hard (s : State) (c : Cmd) (h : HostData) : (State.waitLoad s c h).hard = s.hard := by
  unfold State.waitLoad
  simp
theorem State.grow_hard (s : State) (h n : Nat) : ∀ s1, State.grow s h n = some s1 → s1.hard = s.hard := by
  intro s1 e
  unfold State.grow at e
  split at e
  · simp at e
  · simp only [] at e
    split at e
    · obtain rfl := Option.some.inj e
      simp
    · simp at e
@[simp] theorem State.storeRecord_hard (s : State) (h seq : Nat) (rec : Bytes) (urgent : Bool) : (State.storeRecord s h seq rec urgent).hard = s.hard := by
  unfold State.storeRecord
  simp
@[simp] theorem State.tryReplay_hard (n h : Nat) (s : State) : (State.tryReplay n h s).hard = s.hard := by
  induction n generalizing s with
  | zero => rfl
  | succ n ih =>
    unfold State.tryReplay
    split
    · rfl
    · split
      · rfl
      · split
        · rfl
        · split
          · rfl
          · rename_i s1 e
            simp [ih, State.grow_hard _ _ _ _ e]
@[simp] theorem State.replayAll_hard (s : State) : (State.replayAll s).hard = s.hard := by
  unfold State.replayAll
  simp [apply_ite State.hard]
@[simp] theorem State.logLost_hard (s : State) (p : PendingLoss) (left bad : Nat) : (State.logLost s p left bad).hard = s.hard := by
  unfold State.logLost
  simp
@[simp] theorem State.applyLoss_hard (s : State) (t : Nat) (p : PendingLoss) : (State.applyLoss s t p).hard = s.hard := by
  unfold State.applyLoss
  simp only []
  (repeat' split) <;> simp [apply_ite State.hard]
@[simp] theorem State.applyLosses_hard (s : State) (t : Nat) : (State.applyLosses s t).hard = s.hard := by
  unfold State.applyLosses
  simp
@[simp] theorem State.mgmtSend_hard (s : State) (t op : Nat) (arg : Word) (data : Bytes) : (State.mgmtSend s t op arg data).hard = s.hard := by
  unfold State.mgmtSend
  simp
@[simp] theorem State.loadFailed_hard (s : State) (t : Nat) : (State.loadFailed s t).hard = s.hard := by
  unfold State.loadFailed
  simp [apply_ite State.hard]
@[simp] theorem State.loadSteps_hard (s : State) (t : Nat) (env : LoadEnv) : (State.loadSteps s t env).hard = s.hard := by
  unfold State.loadSteps
  simp [apply_ite State.hard]
@[simp] theorem State.mountWriter_hard (s : State) (t : Nat) (scanned : Bool) : (State.mountWriter s t scanned).hard = s.hard := by
  rfl
@[simp] theorem State.loadDone_hard (s : State) (t : Nat) : (State.loadDone s t).hard = s.hard := by
  unfold State.loadDone
  simp
@[simp] theorem State.freshFigures_hard (s : State) (t : Nat) : (State.freshFigures s t).hard = s.hard := by
  rfl
@[simp] theorem State.mountDir_hard (s : State) (t : Nat) (scanned : Bool) : (State.mountDir s t scanned).hard = s.hard := by
  unfold State.mountDir
  simp
@[simp] theorem State.loadDirectory_hard (s : State) (t : Nat) (env : LoadEnv) : (State.loadDirectory s t env).hard = s.hard := by
  unfold State.loadDirectory
  simp only []
  (repeat' split) <;> simp [apply_ite State.hard]
@[simp] theorem State.formerOffline_hard (s : State) (t : Nat) : (State.formerOffline s t).hard = s.hard := by
  unfold State.formerOffline
  simp [apply_ite State.hard]
@[simp] theorem State.runLoad_hard (s : State) (t : Nat) (env : LoadEnv) : (State.runLoad s t env).hard = s.hard := by
  unfold State.runLoad
  simp [apply_ite State.hard]
@[simp] theorem State.resetTp_hard (s : State) (t : Nat) : (State.resetTp s t).hard = s.hard := by
  unfold State.resetTp
  simp [apply_ite State.hard]
@[simp] theorem State.reload_hard (s : State) (t : Nat) : (State.reload s t).hard = s.hard := by
  unfold State.reload
  split <;> simp
@[simp] theorem State.evStsWrite_hard (s : State) (i : Nat) (value : Word) : (State.evStsWrite s i value).hard = s.hard := by
  unfold State.evStsWrite
  split <;> simp
@[simp] theorem State.tqEvtWrite_hard (s : State) (u : Nat) (value : Word) : (State.tqEvtWrite s u value).hard = s.hard := by
  unfold State.tqEvtWrite
  simp [apply_ite State.hard]
@[simp] theorem State.pmWake_hard (s : State) : (State.pmWake s).hard = s.hard := by
  unfold State.pmWake
  split <;> simp
@[simp] theorem State.releaseReplay_hard (s : State) (h : Nat) (w : Volume) : (State.releaseReplay s h w).hard = s.hard := by
  unfold State.releaseReplay
  simp
@[simp] theorem State.ringRel_hard (s : State) (lossId : Word) : (State.ringRel s lossId).hard = s.hard := by
  unfold State.ringRel
  simp [apply_ite State.hard]
@[simp] theorem State.rearm_hard (s : State) (t : Nat) (codes : List Nat) : (State.rearm s t codes).hard = s.hard := by
  unfold State.rearm
  simp [apply_ite State.hard]
@[simp] theorem State.sendOutput_hard (s : State) (t k : Nat) : (State.sendOutput s t k).hard = s.hard := by
  unfold State.sendOutput
  simp [apply_ite State.hard]
@[simp] theorem State.requestGate_hard (s : State) (t wbi : Nat) : (State.requestGate s t wbi).hard = s.hard := by
  unfold State.requestGate
  simp [apply_ite State.hard]
@[simp] theorem State.permitFalls_hard (s : State) (t cause : Nat) : (State.permitFalls s t cause).hard = s.hard := by
  unfold State.permitFalls
  simp [apply_ite State.hard]
@[simp] theorem State.guardWord_hard (s : State) (t f0 f1 : Nat) : (State.guardWord s t f0 f1).hard = s.hard := by
  unfold State.guardWord
  simp only []
  (repeat' split) <;> simp [apply_ite State.hard]
@[simp] theorem State.resumeServo_hard (s : State) (t : Nat) : (State.resumeServo s t).hard = s.hard := by
  unfold State.resumeServo
  simp
@[simp] theorem State.reelLost_hard (s : State) (t k : Nat) : (State.reelLost s t k).hard = s.hard := by
  unfold State.reelLost
  simp [apply_ite State.hard]
@[simp] theorem State.endSensorless_hard (s : State) (t : Nat) : (State.endSensorless s t).hard = s.hard := by
  unfold State.endSensorless
  split <;> simp
@[simp] theorem State.lostFeedback_hard (s : State) (t k : Nat) : (State.lostFeedback s t k).hard = s.hard := by
  unfold State.lostFeedback
  (repeat' split) <;> simp
@[simp] theorem State.deadlineMissed_hard (s : State) (t k : Nat) : (State.deadlineMissed s t k).hard = s.hard := by
  unfold State.deadlineMissed
  simp [apply_ite State.hard]
@[simp] theorem State.jobRan_hard (s : State) (t k : Nat) : (State.jobRan s t k).hard = s.hard := by
  rfl
@[simp] theorem State.coefCommit_hard (s : State) (t k : Nat) (clrState : Bool) : (State.coefCommit s t k clrState).hard = s.hard := by
  unfold State.coefCommit
  simp only []
  (repeat' split) <;> simp [apply_ite State.hard]
@[simp] theorem State.writeBar0_hard (s : State) (u off : Nat) (value mask : Word) : (State.writeBar0 s u off value mask).hard = s.hard := by
  unfold State.writeBar0
  simp [apply_ite State.hard]
@[simp] theorem State.writeGpio_hard (s : State) (value mask : Word) : (State.writeGpio s value mask).hard = s.hard := by
  unfold State.writeGpio
  simp
@[simp] theorem State.writeDevice_hard (s : State) (off : Nat) (value mask : Word) : (State.writeDevice s off value mask).hard = s.hard := by
  unfold State.writeDevice
  (repeat' split) <;> simp
@[simp] theorem State.writeTp_hard (s : State) (t off : Nat) (value mask : Word) : (State.writeTp s t off value mask).hard = s.hard := by
  unfold State.writeTp
  (repeat' split) <;> simp
@[simp] theorem State.writeCe_hard (s : State) (t off : Nat) (value mask : Word) : (State.writeCe s t off value mask).hard = s.hard := by
  unfold State.writeCe
  simp [apply_ite State.hard]
@[simp] theorem State.writeReg_hard (s : State) (fn bar off : Nat) (value mask : Word) : (State.writeReg s fn bar off value mask).hard = s.hard := by
  unfold State.writeReg
  (repeat' split) <;> simp
@[simp] theorem State.consumeLog_hard (s : State) (u lid : Nat) : (State.consumeLog s u lid).hard = s.hard := by
  unfold State.consumeLog
  (repeat' split) <;> simp
@[simp] theorem State.modCfg_hard (s : State) (f : Settings → Settings) : (State.modCfg s f).hard = s.hard := by
  unfold State.modCfg
  simp
@[simp] theorem State.modTen_hard (s : State) (u : Nat) (f : TenCfg → TenCfg) : (State.modTen s u f).hard = s.hard := by
  unfold State.modTen
  simp
@[simp] theorem State.modTrn_hard (s : State) (t : Nat) (f : TrnCfg → TrnCfg) : (State.modTrn s t f).hard = s.hard := by
  unfold State.modTrn
  simp
theorem State.setFeature_hard (s : State) (fid u t : Nat) (v : Word) : ∀ s1, State.setFeature s fid u t v = some s1 → s1.hard = s.hard := by
  intro s1 e
  unfold State.setFeature at e
  simp only [] at e
  (repeat' split at e) <;> simp at e <;> try (subst e; simp)
  all_goals (obtain ⟨-, rfl⟩ := e; simp)
@[simp] theorem State.recordLosses_hard (s : State) (lossId reason : Nat) (vols : List CrashVol) : (State.recordLosses s lossId reason vols).hard = s.hard := by
  unfold State.recordLosses
  simp
@[simp] theorem State.modInterval_hard (s : State) (t ord : Nat) (f : IntervalRec → IntervalRec) : (State.modInterval s t ord f).hard = s.hard := by
  unfold State.modInterval
  simp
@[simp] theorem State.windowUpdate_hard (s : State) (t ch rows failed : Nat) (energy : Nat × Nat) : (State.windowUpdate s t ch rows failed energy).hard = s.hard := by
  unfold State.windowUpdate
  simp [apply_ite State.hard]
@[simp] theorem State.decideOut_hard (s : State) (t ch : Nat) : (State.decideOut s t ch).hard = s.hard := by
  unfold State.decideOut
  simp [apply_ite State.hard]
@[simp] theorem State.decideOuts_hard (s : State) (t : Nat) : (State.decideOuts s t).hard = s.hard := by
  unfold State.decideOuts
  simp
@[simp] theorem State.expireOne_hard (s : State) (t : Nat) (i : IntervalRec) : (State.expireOne s t i).hard = s.hard := by
  unfold State.expireOne
  simp only []
  rw [State.each_hard]
  · split <;> simp
  · intro s c
    (repeat' split) <;> simp
@[simp] theorem State.expire_hard (s : State) (t : Nat) : (State.expire s t).hard = s.hard := by
  unfold State.expire
  simp
@[simp] theorem State.leaveWrap_hard (s : State) (t : Nat) : (State.leaveWrap s t).hard = s.hard := by
  unfold State.leaveWrap
  simp
@[simp] theorem State.channelOut_hard (s : State) (t ch : Nat) (held : Bool) : (State.channelOut s t ch held).hard = s.hard := by
  unfold State.channelOut
  simp
@[simp] theorem State.channelIn_hard (s : State) (t ch : Nat) : (State.channelIn s t ch).hard = s.hard := by
  unfold State.channelIn
  simp
@[simp] theorem State.channelStep_hard (s : State) (t : Nat) : (State.channelStep s t).hard = s.hard := by
  unfold State.channelStep
  refine State.each_hard _ _ _ (fun s ch => ?_)
  simp only []
  (repeat' split) <;> simp
@[simp] theorem State.settingStep_hard (s : State) (t : Nat) : (State.settingStep s t).hard = s.hard := by
  unfold State.settingStep
  simp [apply_ite State.hard]
@[simp] theorem State.fitRewrites_hard (n t : Nat) (s : State) : (State.fitRewrites n t s).hard = s.hard := by
  induction n generalizing s with
  | zero => rfl
  | succ n ih =>
    unfold State.fitRewrites
    simp only []
    split <;> simp [ih]
@[simp] theorem State.writeInterval_hard (s : State) (t : Nat) : (State.writeInterval s t).hard = s.hard := by
  unfold State.writeInterval
  simp only []
  (repeat' split) <;> simp [apply_ite State.hard]
@[simp] theorem State.endWrap_hard (s : State) (t : Nat) : (State.endWrap s t).hard = s.hard := by
  unfold State.endWrap
  simp [apply_ite State.hard]
@[simp] theorem State.separatorStep_hard (s : State) (t : Nat) : (State.separatorStep s t).hard = s.hard := by
  unfold State.separatorStep
  simp only []
  (repeat' split) <;> simp [apply_ite State.hard]
@[simp] theorem State.searchAfter_hard (s : State) (t ch : Nat) (x : RowResult) : (State.searchAfter s t ch x).hard = s.hard := by
  rfl
@[simp] theorem State.rowFigures_hard (s : State) (t ch : Nat) (u : RowResult × Nat) (ok : Bool) : (State.rowFigures s t ch u ok).hard = s.hard := by
  rfl
@[simp] theorem State.windowRow_hard (s : State) (t ord : Nat) (r : RowReport) (known : List Bool) (ok : Bool) : (State.windowRow s t ord r known ok).hard = s.hard := by
  unfold State.windowRow
  split <;> simp [apply_ite State.hard]
@[simp] theorem State.probeRow_hard (s : State) (t : Nat) (i : IntervalRec) (r : RowReport) : (State.probeRow s t i r).hard = s.hard := by
  unfold State.probeRow
  simp [apply_ite State.hard]
@[simp] theorem State.dataRow_hard (s : State) (t : Nat) (i : IntervalRec) (r : RowReport) (dsn sub row : Nat) : (State.dataRow s t i r dsn sub row).hard = s.hard := by
  unfold State.dataRow
  split <;> simp [apply_ite State.hard]
@[simp] theorem State.directoryRow_hard (s : State) (t : Nat) (r : RowReport) (gpos sub row : Nat) : (State.directoryRow s t r gpos sub row).hard = s.hard := by
  rfl
theorem State.csRun_hard (s : State) (a : Nat) (f : State → Cmd → Nat → Nat → State) (hf : ∀ s c t k, (f s c t k).hard = s.hard) :
    (s.csRun a f).hard = s.hard := by
  unfold State.csRun
  refine State.run_hard _ _ _ fun c => ?_
  split <;> simp [hf]
@[simp] theorem State.csEnd_hard (s : State) (c : Cmd) (t ch : Nat) : (State.csEnd s c t ch).hard = s.hard := by
  unfold State.csEnd
  simp
@[simp] theorem State.retireSegment_hard (s : State) (pool : Bool) : (State.retireSegment s pool).hard = s.hard := by
  unfold State.retireSegment
  simp [apply_ite State.hard]
@[simp] theorem State.unpin_hard (s : State) (v k : Nat) : (State.unpin s v k).hard = s.hard := by
  rfl
@[simp] theorem State.recordsSegment_hard (s : State) (v k : Nat) (w : Volume) : (State.recordsSegment s v k w).hard = s.hard := by
  unfold State.recordsSegment
  simp only [State.loseRecords_hard]
  split
  · cases e : State.takeSeg (((s.retireSegment false).setVol v (w.loseSeg k)).unpin v k) w.tenant with
    | none => simp
    | some s1 => simp [State.takeSeg_hard _ _ _ e]
  · simp
@[simp] theorem State.countRecovery_hard (s : State) (t : Nat) (need : List Dataset) (o : ReadOutcome) : (State.countRecovery s t need o).hard = s.hard := by
  unfold State.countRecovery
  split
  · rfl
  · refine State.each_hard _ _ _ fun s x => ?_
    split <;> simp
@[simp] theorem State.failRead_hard (s : State) (c : Cmd) (t : Nat) (f : ReadFail) : (State.failRead s c t f).hard = s.hard := by
  unfold State.failRead
  simp
@[simp] theorem State.deliverRead_hard (s : State) (c : Cmd) (w : Volume) (recs : List Bytes) (after : List Nat) (fromBuf : Nat) (tape : Bool) : (State.deliverRead s c w recs after fromBuf tape).hard = s.hard := by
  unfold State.deliverRead
  simp [apply_ite State.hard]
@[simp] theorem State.finishRead_hard (s : State) (c : Cmd) (o : ReadOutcome) : (State.finishRead s c o).hard = s.hard := by
  unfold State.finishRead
  simp only []
  (repeat' split) <;> simp [apply_ite State.hard]
@[simp] theorem State.depart_hard (s : State) (t : Nat) (cmds : List Nat) : (State.depart s t cmds).hard = s.hard := by
  unfold State.depart
  split
  · simp only []
    split <;> simp
  · have e := State.each_hard s cmds (fun s k => match s.arb.cmds.find? fun x => x.id == k with
      | some x => if x.stage == .reading false then s.setStage k (.reading true) else s
      | none => s) (fun s k => by (repeat' split) <;> simp)
    unfold State.each at e
    simp only []
    split <;> simp only [State.stat_hard, State.setTState_hard, State.modMot_hard, State.aim_hard, State.startMotion_hard] <;> exact e
@[simp] theorem State.startExcursion_hard (s : State) (t : Nat) (cmds : List Nat) : (State.startExcursion s t cmds).hard = s.hard := by
  unfold State.startExcursion
  (repeat' split) <;> simp [apply_ite State.hard]
theorem State.ioRun_hard (s : State) (u q op : Nat) (h : HostData) (ok : Cmd → Bool) (f : State → Cmd → Volume → State)
    (hf : ∀ s c w, (f s c w).hard = s.hard) : (s.ioRun u q op h ok f).hard = s.hard := by
  unfold State.ioRun
  refine State.run_hard _ _ _ fun c => ?_
  simp only []
  (repeat' split) <;> simp [hf]
@[simp] theorem State.failFull_hard (s : State) (c : Cmd) (t : Nat) : (State.failFull s c t).hard = s.hard := by
  unfold State.failFull
  split <;> simp
@[simp] theorem State.bindCmd_hard (s : State) (c : Cmd) (len more : Nat) : (State.bindCmd s c len more).hard = s.hard := by
  unfold State.bindCmd
  simp
theorem State.roomForWrite_hard (s : State) (c : Cmd) (w : Volume) : ∀ s1, State.roomForWrite s c w = some s1 → s1.hard = s.hard := by
  intro s1 e
  unfold State.roomForWrite at e
  simp only [] at e
  (repeat' split at e) <;> simp at e
  · rw [e]
  · rw [← e]; simp
  · obtain ⟨a, ha, rfl⟩ := e
    simp [State.grow_hard _ _ _ _ ha]
@[simp] theorem State.pruneRecord_hard (s : State) (c : Cmd) (t level : Nat) (r : Bytes) : (State.pruneRecord s c t level r).hard = s.hard := by
  unfold State.pruneRecord
  simp
@[simp] theorem State.takeRecord_hard (s : State) (c : Cmd) (t : Nat) (r : Bytes) : (State.takeRecord s c t r).hard = s.hard := by
  unfold State.takeRecord
  simp only []
  (repeat' split) <;> simp [apply_ite State.hard]
@[simp] theorem State.admitted_hard (s : State) (c : Cmd) : (State.admitted s c).hard = s.hard := by
  unfold State.admitted
  simp only []
  (repeat' split) <;> simp [apply_ite State.hard]
theorem State.putList_hard (s : State) (c : Cmd) (w : Volume) (rs : List Bytes) : ∀ s1, State.putList s c w rs = some s1 → s1.hard = s.hard := by
  intro s1 e
  obtain ⟨s2, e2, rfl⟩ := Option.map_eq_some_iff.1 e
  have h2 := State.roomForWrite_hard _ _ _ _ e2
  simp [apply_ite State.hard, h2]
theorem State.writeList_hard (s : State) (c : Cmd) (w : Volume) (rs : List Bytes) : ∀ s1, State.writeList s c w rs = some s1 → s1.hard = s.hard := by
  intro s1 e
  unfold State.writeList at e
  split at e
  · simp at e
  · obtain ⟨s2, e2, e⟩ := Option.bind_eq_some_iff.1 e
    have h2 := State.putList_hard _ _ _ _ _ e2
    split at e
    · simp at e
      rw [← e]
      simp [h2]
    · simp at e
@[simp] theorem State.writeQuiesced_hard (s : State) (u q : Nat) (h : HostData) : (State.writeQuiesced s u q h).hard = s.hard := by
  unfold State.writeQuiesced
  refine State.run_hard _ _ _ fun c => ?_
  (repeat' split) <;> simp
@[simp] theorem State.placeWaiting_hard (s : State) (h : Nat) : (State.placeWaiting s h).hard = s.hard := by
  unfold State.placeWaiting
  (repeat' split) <;> try rfl
  rename_i s1 e
  simp [State.roomFor_hard _ _ _ _ e]
@[simp] theorem State.flrWrite_hard (s : State) (c0 : Cmd) (h : HostData) : (State.flrWrite s c0 h).hard = s.hard := by
  unfold State.flrWrite
  simp only []
  split
  · rfl
  · split
    · split
      · rfl
      · split
        · rfl
        · rename_i w _ _ _ rs _ _
          cases e : s.putList { c0 with data := h } w rs with
          | none => rfl
          | some s1 => simpa using State.putList_hard _ _ _ _ _ e
    · rfl
theorem State.flrCmd_hard (p : State × List (Nat × Nat × HostData)) (c : Cmd) : (State.flrCmd p c).1.hard = p.1.hard := by
  unfold State.flrCmd
  simp only []
  (repeat' split) <;> simp [apply_ite State.hard]
@[simp] theorem State.orphanDeferred_hard (s : State) (u : Nat) : (State.orphanDeferred s u).hard = s.hard := by
  unfold State.orphanDeferred
  simp
@[simp] theorem State.clearEnables_hard (s : State) (u : Nat) : (State.clearEnables s u).hard = s.hard := by
  unfold State.clearEnables
  simp [apply_ite State.hard]
@[simp] theorem State.flrClear_hard (s : State) (u : Nat) : (State.flrClear s u).hard = s.hard := by
  unfold State.flrClear
  simp
@[simp] theorem State.flrStop_hard (s : State) (us : List Nat) (held : List (Nat × Nat × HostData)) : (State.flrStop s us held).hard = s.hard := by
  have fold : ∀ (l : List Cmd) p, (l.foldl State.flrCmd p).1.hard = p.1.hard := by
    intro l
    induction l with
    | nil => intro p; rfl
    | cons c l ih => intro p; rw [List.foldl_cons, ih, State.flrCmd_hard]
  unfold State.flrStop
  simp [fold]
@[simp] theorem State.flrSeal_hard (s : State) (l : List (Nat × Volume)) : (State.flrSeal s l).hard = s.hard := by
  unfold State.flrSeal
  simp [apply_ite State.hard]
@[simp] theorem State.flrEnd_hard (s : State) (us : List Nat) (pf : Bool) : (State.flrEnd s us pf).hard = s.hard := by
  unfold State.flrEnd
  simp [apply_ite State.hard]
@[simp] theorem State.flr_hard (s : State) (us : List Nat) (held : List (Nat × Nat × HostData)) (cut : Option Nat) (pf : Bool) :
    (State.flr s us held cut pf).hard = s.hard := by
  unfold State.flr
  simp only []
  split <;> simp
@[simp] theorem State.takeFrame_hard (s : State) (n ty : Nat) (f : Frame) : (State.takeFrame s n ty f).1.hard = s.hard := by
  unfold State.takeFrame
  split <;> simp
@[simp] theorem State.takeN_hard (s : State) (n : Nat) : (State.takeN s n).hard = s.hard := by
  rfl
@[simp] theorem State.adapt_hard (s : State) (t : Nat) (f : Frame) : (State.adapt s t f).hard = s.hard := by
  rfl
@[simp] theorem State.notified_hard (s : State) (t : Nat) : (State.notified s t).hard = s.hard := by
  unfold State.notified
  simp [apply_ite State.hard]
@[simp] theorem State.selfStopped_hard (s : State) (t : Nat) : (State.selfStopped s t).hard = s.hard := by
  unfold State.selfStopped
  simp only []
  (repeat' split) <;> simp [apply_ite State.hard]
@[simp] theorem State.continueStart_hard (s : State) (t : Nat) : (State.continueStart s t).hard = s.hard := by
  unfold State.continueStart
  simp only []
  (repeat' split) <;> simp [apply_ite State.hard]
@[simp] theorem State.queueRead_hard (s : State) (c : Cmd) (w : Volume) : (State.queueRead s c w).hard = s.hard := by
  unfold State.queueRead
  simp only []
  (repeat' split) <;> simp [apply_ite State.hard]
@[simp] theorem State.propose_hard (s : State) (n : Nat) : (State.propose s n).hard = s.hard := by
  unfold State.propose
  simp
@[simp] theorem State.stewardQuarantine_hard (s : State) (n : Nat) : (State.stewardQuarantine s n).hard = s.hard := by
  unfold State.stewardQuarantine
  split <;> simp
theorem State.tcRun_hard (s : State) (a : Nat) (ok : State → Nat → Bool) (f : State → Cmd → Nat → State) (hf : ∀ s c t, (f s c t).hard = s.hard) :
    (s.tcRun a ok f).hard = s.hard := by
  unfold State.tcRun
  refine State.run_hard _ _ _ fun c => ?_
  simp only [State.settle_hard]
  split <;> simp [hf]
@[simp] theorem State.tcEnd_hard (s : State) (c : Cmd) : (State.tcEnd s c).hard = s.hard := by
  unfold State.tcEnd
  simp
@[simp] theorem State.tcWait_hard (s : State) (c : Cmd) : (State.tcWait s c).hard = s.hard := by
  unfold State.tcWait
  simp
@[simp] theorem State.rouse_hard (s : State) : (State.rouse s).hard = s.hard := by
  unfold State.rouse
  split <;> simp
@[simp] theorem State.latchFree_hard (s : State) (t : Nat) : (State.latchFree s t).hard = s.hard := by
  unfold State.latchFree
  split <;> simp
@[simp] theorem State.discardVol_hard (s : State) (h : Nat) : (State.discardVol s h).hard = s.hard := by
  unfold State.discardVol
  simp
@[simp] theorem State.endPullin_hard (s : State) (t : Nat) : (State.endPullin s t).hard = s.hard := by
  unfold State.endPullin
  simp only []
  (repeat' split) <;> simp [apply_ite State.hard]
@[simp] theorem State.replaceTarget_hard (s : State) (t : Nat) (e : Excursion) : (State.replaceTarget s t e).hard = s.hard := by
  unfold State.replaceTarget
  (repeat' split) <;> simp [apply_ite State.hard]
@[simp] theorem State.endLocate_hard (s : State) (t : Nat) (e : Excursion) : (State.endLocate s t e).hard = s.hard := by
  unfold State.endLocate
  simp only [State.setTState_hard, State.modMot_hard]
  exact State.each_hard _ _ _ (fun s c => by split <;> simp)
@[simp] theorem State.reachRead_hard (s : State) (t : Nat) (e : Excursion) (o : ReadOutcome) : (State.reachRead s t e o).hard = s.hard := by
  have each := fun (l : List Nat) => State.each_hard s l (fun s k => match s.arb.cmds.find? fun c => c.id == k with
      | some c => s.finishRead c o
      | none => s) (fun s k => by split <;> simp)
  unfold State.each at each
  unfold State.reachRead
  simp only []
  (repeat' split) <;> simp only [State.aim_hard, State.modMot_hard] <;> exact each _
@[simp] theorem State.useSettings_hard (s : State) (t : Nat) : (State.useSettings s t).hard = s.hard := by
  rfl
@[simp] theorem State.tickTp_hard (s : State) (t : Nat) : (State.tickTp s t).hard = s.hard := by
  unfold State.tickTp
  simp only []
  (repeat' split) <;> simp [apply_ite State.hard]
@[simp] theorem State.tickLane_hard (s : State) (n : Nat) : (State.tickLane s n).hard = s.hard := by
  unfold State.tickLane
  simp [apply_ite State.hard]
@[simp] theorem State.snapMissed_hard (s : State) (u : Nat) : (State.snapMissed s u).hard = s.hard := by
  unfold State.snapMissed
  simp [apply_ite State.hard]
@[simp] theorem State.setPower_hard (s : State) (k : Nat) : (State.setPower s k).hard = s.hard := by
  unfold State.setPower
  simp
@[simp] theorem State.enterPower_hard (s : State) (k : Nat) : (State.enterPower s k).hard = s.hard := by
  unfold State.enterPower
  split <;> simp [apply_ite State.hard]
@[simp] theorem State.ps3Step_hard (s : State) (k : Nat) : (State.ps3Step s k).hard = s.hard := by
  unfold State.ps3Step
  split <;> simp [apply_ite State.hard]
@[simp] theorem State.leavePs3_hard (s : State) : (State.leavePs3 s).hard = s.hard := by
  unfold State.leavePs3
  split <;> simp
@[simp] theorem State.clockFatal_hard (s : State) (k : Nat) (ks : List Nat) :
    (State.clockFatal s k ks).hard = (s.fuses, s.image.nvm, setBit s.dev.fatal 0 true, s.pending) := by
  unfold State.clockFatal
  rw [State.deviceFatal_hard]
  rfl
@[simp] theorem State.bringOnline_hard (s : State) (c : Cmd) (h t vidx : Nat) (d : DirVolume) : (State.bringOnline s c h t vidx d).hard = s.hard := by
  unfold State.bringOnline
  simp

/-! ### Rows that run a command of a queue -/


end Sys2Proof.Machine
end

