-- ==== Sys2Proof/Laws/Nvm.lean ====
section
/-! SUPPORT. The NVM's one write keeps the canonical form; a byte reads back what was written to it and every other byte as before. -/

namespace Sys2Proof.Machine

/-- The cells of a byte string are canonical and stand in its range. -/
theorem nvmCells_wf (bs : Bytes) (a : Nat) :
    (nvmCells a bs).Pairwise (fun x y => x.1 < y.1) ∧ (∀ c ∈ nvmCells a bs, c.2 ≠ 0xFF) ∧ ∀ c ∈ nvmCells a bs, a ≤ c.1 ∧ c.1 < a + bs.length := by
  induction bs generalizing a with
  | nil => simp [nvmCells]
  | cons b r ih =>
    obtain ⟨p, q, z⟩ := ih (a + 1)
    unfold nvmCells
    have up : ∀ c ∈ nvmCells (a + 1) r, a ≤ c.1 ∧ c.1 < a + (b :: r).length := fun c hc => by
      have := z c hc
      simp only [List.length_cons]
      omega
    split
    · exact ⟨p, q, up⟩
    · rename_i hb
      refine ⟨List.pairwise_cons.2 ⟨fun c hc => by have := z c hc; omega, p⟩, ?_, ?_⟩
      · intro c hc
        rcases List.mem_cons.1 hc with rfl | hc
        · exact hb
        · exact q c hc
      · intro c hc
        rcases List.mem_cons.1 hc with rfl | hc
        · simp
        · exact up c hc

/-- The NVM's one write keeps its canonical form. -/
theorem nvmWrite_wf (a : Nat) (bs : Bytes) (m : List Host.Cell) (h : Memory.wf m) : Memory.wf (nvmWrite a bs m) := by
  obtain ⟨p, q, z⟩ := nvmCells_wf bs a
  unfold nvmWrite
  refine ⟨?_, ?_⟩
  · rw [List.append_assoc]
    refine List.pairwise_append.2 ⟨h.1.filter _, List.pairwise_append.2 ⟨p, h.1.filter _, ?_⟩, ?_⟩
    · intro x hx y hy
      have h1 := z x hx
      have h2 := of_decide_eq_true (List.mem_filter.1 hy).2
      omega
    · intro x hx y hy
      have h1 := of_decide_eq_true (List.mem_filter.1 hx).2
      rcases List.mem_append.1 hy with hy | hy
      · have h2 := z y hy
        omega
      · have h2 := of_decide_eq_true (List.mem_filter.1 hy).2
        omega
  · intro c hc
    rcases List.mem_append.1 hc with hc | hc
    · rcases List.mem_append.1 hc with hc | hc
      · exact h.2 c (List.mem_filter.1 hc).1
      · exact q c hc
    · exact h.2 c (List.mem_filter.1 hc).1

/-- Nothing below its start is among the cells of a byte string. -/
theorem nvmCells_find_low (bs : Bytes) (a x : Nat) (h : x < a) : (nvmCells a bs).find? (fun c => c.1 == x) = none := by
  induction bs generalizing a with
  | nil => rfl
  | cons b r ih =>
    unfold nvmCells
    split
    · exact ih (a + 1) (by omega)
    · rw [List.find?_cons_of_neg (by simpa using Nat.ne_of_gt h)]
      exact ih (a + 1) (by omega)

/-- A byte of the string reads as that byte from its cells; every other address is not among them. -/
theorem nvmRead_nvmCells (bs : Bytes) (a x : Nat) (h : a ≤ x) : nvmRead (nvmCells a bs) x = bs.getD (x - a) 0xFF := by
  induction bs generalizing a with
  | nil => simp [nvmCells, nvmRead]
  | cons b r ih =>
    by_cases hx : x = a
    · subst hx
      unfold nvmCells
      split
      · subst_vars; simp [nvmRead, nvmCells_find_low]
      · simp [nvmRead]
    · have e : x - a = (x - (a + 1)) + 1 := by omega
      have ih := ih (a + 1) (by omega)
      rw [e, List.getD_cons_succ, ← ih, nvmCells.eq_2]
      split
      · rfl
      · unfold nvmRead
        rw [List.find?_cons_of_neg (by simpa using fun q => hx q.symm)]

/-- Writing `bs` at `a`: the bytes of [a, a + length) read as written, every other byte as before. -/
theorem nvmRead_nvmWrite (a x : Nat) (bs : Bytes) (m : List Host.Cell) :
    nvmRead (nvmWrite a bs m) x = if a ≤ x ∧ x < a + bs.length then bs.getD (x - a) 0xFF else nvmRead m x := by
  obtain ⟨-, -, z⟩ := nvmCells_wf bs a
  have miss : ∀ l : List Host.Cell, (∀ c ∈ l, c.1 ≠ x) → l.find? (fun c => c.1 == x) = none := fun l h =>
    List.find?_eq_none.2 fun c hc => by simpa using h c hc
  have keep : ∀ q : Host.Cell → Bool, (∀ c, c.1 = x → q c = true) → (m.filter q).find? (fun c => c.1 == x) = m.find? fun c => c.1 == x := by
    intro q hq
    rw [List.find?_filter]
    congr 1
    funext c
    by_cases hc : c.1 = x
    · simp [hq c hc, hc]
    · simp [hc]
  have lo : ∀ q : Host.Cell → Bool, (∀ c, c.1 = x → q c = false) → (m.filter q).find? (fun c => c.1 == x) = none := by
    intro q hq
    refine miss _ fun c hc e => ?_
    simp [hq c e] at hc
  unfold nvmWrite
  split
  · rename_i h
    rw [← nvmRead_nvmCells bs a x h.1]
    simp only [nvmRead, List.find?_append]
    rw [lo _ (fun c e => by simp; omega), lo _ (fun c e => by simp; omega)]
    simp
  · rename_i h
    have mid : (nvmCells a bs).find? (fun c => c.1 == x) = none := miss _ fun c hc e => by
      have := z c hc
      omega
    simp only [nvmRead, List.find?_append, mid]
    by_cases hx : x < a
    · rw [keep _ (fun c e => by simp; omega), lo (fun c => decide (a + bs.length ≤ c.1)) (fun c e => by simp; omega)]
      simp
    · rw [lo _ (fun c e => by simp; omega), keep _ (fun c e => by simp; omega)]
      simp

/-- Reading from where a byte string was placed gives its bytes, and the erased value beyond them. -/
theorem nvmTake_nvmCells (n a : Nat) (bs : Bytes) : nvmTake n a (nvmCells a bs) = bs.take n ++ List.replicate (n - bs.length) 0xFF := by
  induction n generalizing a bs with
  | zero => simp [nvmTake]
  | succ n ih =>
    cases bs with
    | nil =>
      have := ih (a + 1) []
      simp only [nvmCells, List.take_nil, List.nil_append, List.length_nil, Nat.sub_zero] at this ⊢
      rw [nvmTake, this, List.replicate_succ]
    | cons b r =>
      have e := ih (a + 1) r
      rw [nvmCells.eq_2]
      split
      · subst_vars
        obtain ⟨-, -, z⟩ := nvmCells_wf r (a + 1)
        generalize nvmCells (a + 1) r = l at e z
        cases l with
        | nil => simp only [nvmTake, e]; simp
        | cons c l =>
          have := z c (by simp)
          rw [nvmTake, if_neg (by omega), e]
          simp
      · simp only [nvmTake, if_true, e]
        simp

/-- The NVM that holds just a byte string from `a` on reads as that string there. -/
theorem nvmBytes_nvmCells (a n : Nat) (bs : Bytes) : nvmBytes (nvmCells a bs) a n = bs.take n ++ List.replicate (n - bs.length) 0xFF := by
  obtain ⟨-, -, z⟩ := nvmCells_wf bs a
  have : (nvmCells a bs).dropWhile (fun c => decide (c.1 < a)) = nvmCells a bs := by
    cases h : nvmCells a bs with
    | nil => rfl
    | cons c l =>
      have := z c (by simp [h])
      rw [List.dropWhile_cons_of_neg (by simp; omega)]
  rw [nvmBytes, this, nvmTake_nvmCells]

/-- The NVM of the machine after reset has the canonical form. -/
theorem reset_nvm_wf : Memory.wf State.reset.image.nvm := by decide

end Sys2Proof.Machine
end

