-- ==== Sys2Proof/Laws/HardRows.lean ====
section
/-! SUPPORT. One lemma per row of the table: it takes a next state, and the fuses, the NVM, DV_FATAL and the queue of waiting commands are as
before, but for the rows named. -/

namespace Sys2Proof.Machine

theorem commit_hard (s x : State) (h : x.hard = s.hard) : ∃ t, commit s x = .next t ∧ t.hard = s.hard := by
  refine ⟨_, rfl, ?_⟩
  simp only [State.hard, Prod.mk.injEq] at h ⊢
  exact ⟨h.1, h.2.1, h.2.2.1, trivial⟩

theorem execTqCfgEnable_hard (u : Nat) (s : State) : ∃ z, execTqCfgEnable u s = .next z ∧ z.hard = s.hard := by
  unfold execTqCfgEnable
  (repeat' split) <;> exact commit_hard _ _ (by simp)
theorem execTqCfgDisable_hard (u : Nat) (s : State) : ∃ z, execTqCfgDisable u s = .next z ∧ z.hard = s.hard := by
  unfold execTqCfgDisable
  (repeat' split) <;> exact commit_hard _ _ (by simp)
theorem execSqTailDoorbell_hard (u q : Nat) (value : BitVec 64) (entries : List SubEntry) (s : State) : ∃ z, execSqTailDoorbell u q value entries s = .next z ∧ z.hard = s.hard := by
  unfold execSqTailDoorbell
  (repeat' split) <;> exact commit_hard _ _ (by simp)
theorem execCqHeadDoorbell_hard (u q : Nat) (value : BitVec 64) (s : State) : ∃ z, execCqHeadDoorbell u q value s = .next z ∧ z.hard = s.hard := by
  unfold execCqHeadDoorbell
  (repeat' split) <;> exact commit_hard _ _ (by simp)
theorem execArbitrationDecision_hard (a : ArbInput) (s : State) : ∃ z, execArbitrationDecision a s = .next z ∧ z.hard = s.hard := by
  unfold execArbitrationDecision
  (repeat' split) <;> exact commit_hard _ _ (by simp)
theorem execRingAccessError_hard (u q : Nat) (err : ReadError) (s : State) : ∃ z, execRingAccessError u q err s = .next z ∧ z.hard = s.hard := by
  unfold execRingAccessError
  simp only []
  (repeat' split) <;> exact commit_hard _ _ (by simp [apply_ite State.hard])
theorem execHostDataError_hard (u q : Nat) (err : ReadError) (addr : Word) (s : State) : ∃ z, execHostDataError u q err addr s = .next z ∧ z.hard = s.hard := by
  unfold execHostDataError
  (repeat' split) <;> exact commit_hard _ _ (by simp)
theorem execCqAggTimer_hard (u q : Nat) (s : State) : ∃ z, execCqAggTimer u q s = .next z ∧ z.hard = s.hard := by
  unfold execCqAggTimer
  simp only []
  (repeat' split) <;> exact commit_hard _ _ (by simp [apply_ite State.hard])
theorem execAllocatorDecision_hard (s : State) : ∃ z, execAllocatorDecision s = .next z ∧ z.hard = s.hard := by
  unfold execAllocatorDecision
  (repeat' split) <;> exact commit_hard _ _ (by simp)
theorem execCreateQueuePair_hard (u : Nat) (s : State) : ∃ z, execCreateQueuePair u s = .next z ∧ z.hard = s.hard := by
  unfold execCreateQueuePair
  exact commit_hard _ _ (by simp [apply_ite State.hard])
theorem execDeleteQueuePair_hard (u : Nat) (s : State) : ∃ z, execDeleteQueuePair u s = .next z ∧ z.hard = s.hard := by
  unfold execDeleteQueuePair
  exact commit_hard _ _ (by simp [apply_ite State.hard])
theorem execSetQueueClass_hard (u : Nat) (s : State) : ∃ z, execSetQueueClass u s = .next z ∧ z.hard = s.hard := by
  unfold execSetQueueClass
  exact commit_hard _ _ (by simp [apply_ite State.hard])
theorem execRestartQueues_hard (u : Nat) (s : State) : ∃ z, execRestartQueues u s = .next z ∧ z.hard = s.hard := by
  unfold execRestartQueues
  exact commit_hard _ _ (by simp [apply_ite State.hard])
theorem execConfigRequest_hard (fn : Nat) (op : ConfigOp) (s : State) : ∃ z, execConfigRequest fn op s = .next z ∧ z.hard = s.hard := by
  unfold execConfigRequest
  simp only []
  (repeat' split) <;> exact commit_hard _ _ (by simp [apply_ite State.hard])
theorem execDieTempMeasure_hard (sensors rails : List (BitVec 16)) (s : State) : ∃ z, execDieTempMeasure sensors rails s = .next z ∧ z.hard = s.hard := by
  unfold execDieTempMeasure
  (repeat' split) <;> exact commit_hard _ _ (by simp [apply_ite State.hard])
theorem execGpioInputChange_hard (pin : Nat) (level : Bool) (heldMs : Nat) (s : State) : ∃ z, execGpioInputChange pin level heldMs s = .next z ∧ z.hard = s.hard := by
  unfold execGpioInputChange
  simp only []
  (repeat' split) <;> exact commit_hard _ _ (by simp [apply_ite State.hard])
theorem execTamper_hard (pin : Nat) (s : State) : ∃ z, execTamper pin s = .next z ∧ z.hard = s.hard := by
  unfold execTamper
  simp only []
  (repeat' split) <;> exact commit_hard _ _ (by simp [apply_ite State.hard])
theorem execSmbReadTemperature_hard (s : State) : ∃ z, execSmbReadTemperature s = .next z ∧ z.hard = s.hard := by
  unfold execSmbReadTemperature
  (repeat' split) <;> exact commit_hard _ _ (by simp)
theorem execSmbReadPowerState_hard (s : State) : ∃ z, execSmbReadPowerState s = .next z ∧ z.hard = s.hard := by
  unfold execSmbReadPowerState
  (repeat' split) <;> exact commit_hard _ _ (by simp)
theorem execSmbReadReady_hard (s : State) : ∃ z, execSmbReadReady s = .next z ∧ z.hard = s.hard := by
  unfold execSmbReadReady
  (repeat' split) <;> exact commit_hard _ _ (by simp)
theorem execSmbNack_hard (command : Byte) (write : Bool) (s : State) : ∃ z, execSmbNack command write s = .next z ∧ z.hard = s.hard := by
  unfold execSmbNack
  (repeat' split) <;> exact commit_hard _ _ (by simp)
theorem execEvStsClear_hard (i : Nat) (value : Word) (s : State) : ∃ z, execEvStsClear i value s = .next z ∧ z.hard = s.hard := by
  unfold execEvStsClear
  (repeat' split) <;> exact commit_hard _ _ (by simp)
theorem execTqEvtClr_hard (u : Nat) (value : Word) (s : State) : ∃ z, execTqEvtClr u value s = .next z ∧ z.hard = s.hard := by
  unfold execTqEvtClr
  (repeat' split) <;> exact commit_hard _ _ (by simp)
theorem execPmCtlWake_hard (s : State) : ∃ z, execPmCtlWake s = .next z ∧ z.hard = s.hard := by
  unfold execPmCtlWake
  (repeat' split) <;> exact commit_hard _ _ (by simp)
theorem execScRingRel_hard (lossId : Word) (s : State) : ∃ z, execScRingRel lossId s = .next z ∧ z.hard = s.hard := by
  unfold execScRingRel
  (repeat' split) <;> exact commit_hard _ _ (by simp)
theorem execSlotRelease_hard (t k : Nat) (s : State) : ∃ z, execSlotRelease t k s = .next z ∧ z.hard = s.hard := by
  unfold execSlotRelease
  (repeat' split) <;> refine commit_hard _ _ ?_ <;> simp [apply_ite State.hard]
theorem execSlotJob_hard (t k : Nat) (s : State) : ∃ z, execSlotJob t k s = .next z ∧ z.hard = s.hard := by
  unfold execSlotJob
  lift_lets
  intro z code src z1 x32 m s1 r s2 f s3 z2 z3 s4
  have h1 : s1.hard = s.hard := by simp only [s1]; split <;> simp
  have h2 : s2.hard = s.hard := by simp only [s2]; split <;> simp [h1]
  have h3 : s3.hard = s.hard := by simp only [s3]; split <;> simp [h2]
  have h4 : s4.hard = s.hard := by
    simp only [s4, State.rearm_hard, State.jobRan_hard, State.sendOutput_hard, State.modSlot_hard, h3]
  clear_value s4
  split
  · exact commit_hard _ _ rfl
  · refine commit_hard _ _ ?_
    split
    · rw [State.settle_hard, State.endSensorless_hard, h4]
    · exact h4
theorem execDeadlineMiss_hard (t k : Nat) (s : State) : ∃ z, execDeadlineMiss t k s = .next z ∧ z.hard = s.hard := by
  unfold execDeadlineMiss
  (repeat' split) <;> refine commit_hard _ _ ?_ <;> simp [apply_ite State.hard]
theorem execStaleDetect_hard (t k : Nat) (kind : StaleKind) (s : State) : ∃ z, execStaleDetect t k kind s = .next z ∧ z.hard = s.hard := by
  unfold execStaleDetect
  simp only []
  (repeat' split) <;> refine commit_hard _ _ ?_ <;> simp [apply_ite State.hard]
theorem execServoHoldTimeout_hard (t : Nat) (s : State) : ∃ z, execServoHoldTimeout t s = .next z ∧ z.hard = s.hard := by
  unfold execServoHoldTimeout
  simp only []
  (repeat' split) <;> refine commit_hard _ _ ?_ <;> simp [apply_ite State.hard]
theorem execServoTimeout_hard (t : Nat) (s : State) : ∃ z, execServoTimeout t s = .next z ∧ z.hard = s.hard := by
  unfold execServoTimeout
  (repeat' split) <;> refine commit_hard _ _ ?_ <;> simp [apply_ite State.hard]
theorem execSensorlessStopLimit_hard (t : Nat) (s : State) : ∃ z, execSensorlessStopLimit t s = .next z ∧ z.hard = s.hard := by
  unfold execSensorlessStopLimit
  simp only []
  (repeat' split) <;> refine commit_hard _ _ ?_ <;> simp [apply_ite State.hard]
theorem execCoefCommit_hard (t k : Nat) (clrState : Bool) (s : State) : ∃ z, execCoefCommit t k clrState s = .next z ∧ z.hard = s.hard := by
  unfold execCoefCommit
  (repeat' split) <;> refine commit_hard _ _ ?_ <;> simp [apply_ite State.hard]
theorem execRegisterWrite_hard (w : RegWrite) (s : State) : ∃ z, execRegisterWrite w s = .next z ∧ z.hard = s.hard := by
  unfold execRegisterWrite
  (repeat' split) <;> exact commit_hard _ _ (by simp)
theorem execIdentify_hard (u : Nat) (h : HostData) (s : State) : ∃ z, execIdentify u h s = .next z ∧ z.hard = s.hard := by
  unfold execIdentify
  exact commit_hard _ _ (by simp [apply_ite State.hard])
theorem execGetLog_hard (u : Nat) (h : HostData) (s : State) : ∃ z, execGetLog u h s = .next z ∧ z.hard = s.hard := by
  unfold execGetLog
  refine commit_hard _ _ (State.run_hard _ _ _ fun c => ?_)
  simp only []
  (repeat' split) <;> simp [apply_ite State.hard]
theorem execSetFeatures_hard (u : Nat) (s : State) : ∃ z, execSetFeatures u s = .next z ∧ z.hard = s.hard := by
  unfold execSetFeatures
  refine commit_hard _ _ (State.run_hard _ _ _ fun c => ?_)
  simp only []
  split
  · simp
  · split
    · simp
    · rename_i s1 e
      simp [State.setFeature_hard _ _ _ _ _ _ e]
theorem execGetFeatures_hard (u : Nat) (s : State) : ∃ z, execGetFeatures u s = .next z ∧ z.hard = s.hard := by
  unfold execGetFeatures
  exact commit_hard _ _ (by simp [apply_ite State.hard])
theorem execBufferInitDone_hard (trained : Bool) (s : State) : ∃ z, execBufferInitDone trained s = .next z ∧ z.hard = s.hard := by
  unfold execBufferInitDone
  (repeat' split) <;> exact commit_hard _ _ (by simp)

theorem execImageActivate_hard (fails : List NvmFail) (s : State) : ∃ z, execImageActivate fails s = .next z ∧ z.hard = s.hard := by
  unfold execImageActivate
  (repeat' split) <;> exact commit_hard _ _ (by simp)
theorem execCsQuery_hard (s : State) : ∃ z, execCsQuery s = .next z ∧ z.hard = s.hard := by
  unfold execCsQuery
  refine commit_hard _ _ (by
    rw [State.settle_hard]
    refine State.csRun_hard _ _ _ fun s c t k => ?_
    simp)
theorem execCsTakeOut_hard (s : State) : ∃ z, execCsTakeOut s = .next z ∧ z.hard = s.hard := by
  unfold execCsTakeOut
  refine commit_hard _ _ (by
    rw [State.settle_hard]
    refine State.csRun_hard _ _ _ fun s c t k => ?_
    (repeat' split) <;> simp [apply_ite State.hard])
theorem execCsReturn_hard (s : State) : ∃ z, execCsReturn s = .next z ∧ z.hard = s.hard := by
  unfold execCsReturn
  refine commit_hard _ _ (by
    rw [State.settle_hard]
    refine State.csRun_hard _ _ _ fun s c t k => ?_
    (repeat' split) <;> simp [apply_ite State.hard])
theorem execCsResetAdaptation_hard (s : State) : ∃ z, execCsResetAdaptation s = .next z ∧ z.hard = s.hard := by
  unfold execCsResetAdaptation
  refine commit_hard _ _ (by
    rw [State.settle_hard]
    refine State.csRun_hard _ _ _ fun s c t k => ?_
    (repeat' split) <;> simp [apply_ite State.hard])
theorem execBufferScrub_hard (corrected : Nat) (s : State) : ∃ z, execBufferScrub corrected s = .next z ∧ z.hard = s.hard := by
  unfold execBufferScrub
  (repeat' split) <;> exact commit_hard _ _ (by simp)
theorem execWriteRecords_hard (u q : Nat) (h : HostData) (s : State) : ∃ z, execWriteRecords u q h s = .next z ∧ z.hard = s.hard := by
  unfold execWriteRecords
  split
  · exact commit_hard _ _ (by simp)
  · refine commit_hard _ _ ((State.settle_hard _).trans (State.ioRun_hard _ _ _ _ _ _ _ fun s c w => ?_))
    split
    · simp
    · split
      · simp
      · rename_i rs _
        (repeat' split) <;> try simp
        rcases e : s.writeList c w rs with _ | s1
        · rfl
        · exact State.writeList_hard _ _ _ _ _ e
theorem execWriteMark_hard (u q : Nat) (s : State) : ∃ z, execWriteMark u q s = .next z ∧ z.hard = s.hard := by
  unfold execWriteMark
  split
  · exact commit_hard _ _ rfl
  · refine commit_hard _ _ ((State.settle_hard _).trans (State.ioRun_hard _ _ _ _ _ _ _ fun s c w => ?_))
    simp only []
    split
    · simp
    · split
      · rfl
      · split
        · rfl
        · rename_i s2 e
          have e2 := State.roomFor_hard _ _ _ _ e
          split
          · simp [e2]
          · rfl
theorem execFlush_hard (u q : Nat) (s : State) : ∃ z, execFlush u q s = .next z ∧ z.hard = s.hard := by
  unfold execFlush
  refine commit_hard _ _ ((State.settle_hard _).trans (State.ioRun_hard _ _ _ _ _ _ _ fun s c w => ?_))
  simp only []
  (repeat' split) <;> simp [apply_ite State.hard]
theorem execBlockCutTimer_hard (v : Nat) (s : State) : ∃ z, execBlockCutTimer v s = .next z ∧ z.hard = s.hard := by
  unfold execBlockCutTimer
  (repeat' split) <;> exact commit_hard _ _ (by simp)
theorem execGapEntryTimer_hard (v : Nat) (tag : BitVec 16) (s : State) : ∃ z, execGapEntryTimer v tag s = .next z ∧ z.hard = s.hard := by
  unfold execGapEntryTimer
  (repeat' split) <;> exact commit_hard _ _ (by simp)
theorem execGapEntryPlace_hard (v : Nat) (s : State) : ∃ z, execGapEntryPlace v s = .next z ∧ z.hard = s.hard := by
  unfold execGapEntryPlace
  (repeat' split) <;> exact commit_hard _ _ (by simp)
theorem execVfFlr_hard (u : Nat) (x : VfReset) (s : State) : ∃ z, execVfFlr u x s = .next z ∧ z.hard = s.hard := by
  unfold execVfFlr
  (repeat' split) <;> exact commit_hard _ _ (by simp)
theorem execPfFlr_hard (x : PfReset) (s : State) : ∃ z, execPfFlr x s = .next z ∧ z.hard = s.hard := by
  unfold execPfFlr
  (repeat' split) <;> exact commit_hard _ _ (by simp)
theorem execSampleFrame_hard (n : Nat) (f : Frame) (s : State) : ∃ z, execSampleFrame n f s = .next z ∧ z.hard = s.hard := by
  unfold execSampleFrame
  have e := State.takeFrame_hard s n 1 f
  split
  · exact commit_hard _ _ rfl
  · split
    · rename_i s1 h
      rw [h] at e
      exact commit_hard _ _ e
    · rename_i s1 h
      rw [h] at e
      refine commit_hard _ _ ?_
      have e : s1.hard = s.hard := e
      simp only [apply_ite State.hard, State.settle_hard, State.adapt_hard, State.rejoined_hard, State.modLink_hard, ite_self, e]
theorem execResendRequest_hard (t sn : Nat) (s : State) : ∃ z, execResendRequest t sn s = .next z ∧ z.hard = s.hard := by
  unfold execResendRequest
  simp only []
  (repeat' split) <;> refine commit_hard _ _ ?_ <;> simp [apply_ite State.hard]
theorem execSampleFrameLost_hard (t sn : Nat) (s : State) : ∃ z, execSampleFrameLost t sn s = .next z ∧ z.hard = s.hard := by
  unfold execSampleFrameLost
  simp only []
  (repeat' split) <;> refine commit_hard _ _ ?_ <;> simp [apply_ite State.hard]
theorem execControlFrame_hard (n : Nat) (f : Frame) (sinceMs : Nat) (s : State) : ∃ z, execControlFrame n f sinceMs s = .next z ∧ z.hard = s.hard := by
  unfold execControlFrame
  have e := State.takeFrame_hard s n 3 f
  split
  · exact commit_hard _ _ rfl
  · split
    · rename_i s1 h
      rw [h] at e
      exact commit_hard _ _ e
    · rename_i s1 h
      rw [h] at e
      simp only []
      (repeat' split) <;> exact commit_hard _ _ (by simp_all [apply_ite State.hard])
theorem execManagementResponse_hard (n : Nat) (f : Frame) (s : State) : ∃ z, execManagementResponse n f s = .next z ∧ z.hard = s.hard := by
  unfold execManagementResponse
  have e := State.takeFrame_hard s n 4 f
  split
  · exact commit_hard _ _ rfl
  · split
    · rename_i s1 h
      rw [h] at e
      exact commit_hard _ _ e
    · rename_i s1 h
      rw [h] at e
      simp only []
      (repeat' split) <;> exact commit_hard _ _ (by simp_all [apply_ite State.hard])
theorem execManagementTimeout_hard (t tag : Nat) (s : State) : ∃ z, execManagementTimeout t tag s = .next z ∧ z.hard = s.hard := by
  unfold execManagementTimeout
  (repeat' split) <;> refine commit_hard _ _ ?_ <;> simp [apply_ite State.hard]
theorem execAutonomousStop_hard (t : Nat) (s : State) : ∃ z, execAutonomousStop t s = .next z ∧ z.hard = s.hard := by
  unfold execAutonomousStop
  (repeat' split) <;> refine commit_hard _ _ ?_ <;> simp [apply_ite State.hard]
theorem execPowerStageFault_hard (t : Nat) (s : State) : ∃ z, execPowerStageFault t s = .next z ∧ z.hard = s.hard := by
  unfold execPowerStageFault
  simp only []
  (repeat' split) <;> refine commit_hard _ _ ?_ <;> simp [apply_ite State.hard]
theorem execServoWord_hard (n : Nat) (slot : XSlot) (s : State) : ∃ z, execServoWord n slot s = .next z ∧ z.hard = s.hard := by
  unfold execServoWord
  have e := State.accept_hard s n 1 slot
  split
  · rename_i s1 h
    rw [h] at e
    exact commit_hard _ _ (by simpa using e)
  · rename_i s1 p h
    rw [h] at e
    refine commit_hard _ _ ?_
    simp only [State.settle_hard, State.guardWord_hard, State.rearm_hard, apply_ite State.hard, State.modSlot_hard, State.modMot_hard,
      State.resumeServo_hard, State.modFe_hard, ite_self]
    exact e
theorem execTachWord_hard (n : Nat) (slot : XSlot) (s : State) : ∃ z, execTachWord n slot s = .next z ∧ z.hard = s.hard := by
  unfold execTachWord
  have e := State.accept_hard s n 2 slot
  split
  · rename_i s1 h
    rw [h] at e
    exact commit_hard _ _ (by simpa using e)
  · rename_i s1 p h
    rw [h] at e
    simp only []
    (repeat' split) <;> exact commit_hard _ _ (by simp_all [apply_ite State.hard])
theorem execSenseWord_hard (n : Nat) (slot : XSlot) (s : State) : ∃ z, execSenseWord n slot s = .next z ∧ z.hard = s.hard := by
  unfold execSenseWord
  have e := State.accept_hard s n 3 slot
  split
  · rename_i s1 h
    rw [h] at e
    exact commit_hard _ _ (by simpa using e)
  · rename_i s1 p h
    rw [h] at e
    simp only []
    (repeat' split) <;> exact commit_hard _ _ (by simp_all [apply_ite State.hard])
theorem execStatusWord_hard (n : Nat) (slot : XSlot) (s : State) : ∃ z, execStatusWord n slot s = .next z ∧ z.hard = s.hard := by
  unfold execStatusWord
  have e := State.accept_hard s n 4 slot
  split
  · rename_i s1 h
    rw [h] at e
    exact commit_hard _ _ (by simpa using e)
  · rename_i s1 p h
    rw [h] at e
    simp only []
    (repeat' split) <;> exact commit_hard _ _ (by simp_all [apply_ite State.hard])
theorem execReadRecords_hard (u q : Nat) (h : HostData) (s : State) : ∃ z, execReadRecords u q h s = .next z ∧ z.hard = s.hard := by
  unfold execReadRecords
  refine commit_hard _ _ ((State.settle_hard _).trans (State.ioRun_hard _ _ _ _ _ _ _ fun s c w => ?_))
  simp only []
  (repeat' split) <;> simp [apply_ite State.hard]
theorem execVerifyRange_hard (u q : Nat) (s : State) : ∃ z, execVerifyRange u q s = .next z ∧ z.hard = s.hard := by
  unfold execVerifyRange
  refine commit_hard _ _ ((State.settle_hard _).trans (State.ioRun_hard _ _ _ _ _ _ _ fun s c w => ?_))
  simp only []
  (repeat' split) <;> simp [apply_ite State.hard]
theorem execLocate_hard (u q : Nat) (s : State) : ∃ z, execLocate u q s = .next z ∧ z.hard = s.hard := by
  unfold execLocate
  refine commit_hard _ _ ((State.settle_hard _).trans (State.ioRun_hard _ _ _ _ _ _ _ fun s c w => ?_))
  simp only []
  (repeat' split) <;> simp [apply_ite State.hard]
theorem execReadPosition_hard (u q : Nat) (h : HostData) (s : State) : ∃ z, execReadPosition u q h s = .next z ∧ z.hard = s.hard := by
  unfold execReadPosition
  refine commit_hard _ _ ((State.settle_hard _).trans (State.ioRun_hard _ _ _ _ _ _ _ fun s c w => ?_))
  simp
theorem execTrainingTimeout_hard (n : Nat) (s : State) : ∃ z, execTrainingTimeout n s = .next z ∧ z.hard = s.hard := by
  unfold execTrainingTimeout
  (repeat' split) <;> exact commit_hard _ _ (by simp)
theorem execTrainingRetry_hard (n : Nat) (s : State) : ∃ z, execTrainingRetry n s = .next z ∧ z.hard = s.hard := by
  unfold execTrainingRetry
  simp only []
  (repeat' split) <;> exact commit_hard _ _ (by simp [apply_ite State.hard])
theorem execTrainWord_hard (n : Nat) (slot : XSlot) (s : State) : ∃ z, execTrainWord n slot s = .next z ∧ z.hard = s.hard := by
  unfold execTrainWord
  split
  · exact commit_hard _ _ rfl
  · simp only []
    split
    · rename_i s1 h
      have h2 := congrArg (fun p => p.1.hard) h
      simp only [State.rxSlot_hard, apply_ite State.hard, State.modLn_hard, ite_self] at h2
      exact commit_hard _ _ h2.symm
    · rename_i s1 w h
      have h2 := congrArg (fun p => p.1.hard) h
      simp only [State.rxSlot_hard, apply_ite State.hard, State.modLn_hard, ite_self] at h2
      split <;> exact commit_hard _ _ (by simp [← h2])
theorem execIdent_hard (n : Nat) (w0 w1 w2 _w3 : Word) (s : State) : ∃ z, execIdent n w0 w1 w2 _w3 s = .next z ∧ z.hard = s.hard := by
  unfold execIdent
  simp only []
  (repeat' split) <;> exact commit_hard _ _ (by simp [apply_ite State.hard])
theorem execLaneUp_hard (n : Nat) (s : State) : ∃ z, execLaneUp n s = .next z ∧ z.hard = s.hard := by
  unfold execLaneUp
  simp only []
  (repeat' split) <;> exact commit_hard _ _ (by simp [apply_ite State.hard])
theorem execUncorrectableCodeword_hard (n : Nat) (x : BadCodeword) (s : State) : ∃ z, execUncorrectableCodeword n x s = .next z ∧ z.hard = s.hard := by
  unfold execUncorrectableCodeword
  (repeat' split) <;> exact commit_hard _ _ (by simp [apply_ite State.hard])
theorem execSlotLockLoss_hard (x : LockLoss) (s : State) : ∃ z, execSlotLockLoss x s = .next z ∧ z.hard = s.hard := by
  unfold execSlotLockLoss
  (repeat' split) <;> exact commit_hard _ _ (by simp)
theorem execLinkQuarantineRx_hard (n : Nat) (slot : XSlot) (s : State) : ∃ z, execLinkQuarantineRx n slot s = .next z ∧ z.hard = s.hard := by
  unfold execLinkQuarantineRx
  have e := State.accept_hard s n xtLink slot
  split
  · rename_i s1 h
    rw [h] at e
    exact commit_hard _ _ (by simpa using e)
  · rename_i s1 p h
    rw [h] at e
    simp only []
    (repeat' split) <;> exact commit_hard _ _ (by simp_all [apply_ite State.hard])
theorem execRejoinStart_hard (n : Nat) (s : State) : ∃ z, execRejoinStart n s = .next z ∧ z.hard = s.hard := by
  unfold execRejoinStart
  simp only []
  (repeat' split) <;> exact commit_hard _ _ (by simp [apply_ite State.hard])
theorem execLinkAck_hard (n : Nat) (slot : XSlot) (s : State) : ∃ z, execLinkAck n slot s = .next z ∧ z.hard = s.hard := by
  unfold execLinkAck
  have e := State.accept_hard s n xtLink slot
  split
  · rename_i s1 h
    rw [h] at e
    exact commit_hard _ _ (by simpa using e)
  · rename_i s1 p h
    rw [h] at e
    (repeat' split) <;> exact commit_hard _ _ (by simp_all [apply_ite State.hard])
theorem execProposeTimeout_hard (n : Nat) (s : State) : ∃ z, execProposeTimeout n s = .next z ∧ z.hard = s.hard := by
  unfold execProposeTimeout
  simp only []
  (repeat' split) <;> exact commit_hard _ _ (by simp [apply_ite State.hard])
theorem execLaneResetTimeout_hard (n : Nat) (s : State) : ∃ z, execLaneResetTimeout n s = .next z ∧ z.hard = s.hard := by
  unfold execLaneResetTimeout
  (repeat' split) <;> exact commit_hard _ _ (by simp)
theorem execLsQuery_hard (s : State) : ∃ z, execLsQuery s = .next z ∧ z.hard = s.hard := by
  unfold execLsQuery
  exact commit_hard _ _ (by simp [apply_ite State.hard])
theorem execLsQuarantine_hard (s : State) : ∃ z, execLsQuarantine s = .next z ∧ z.hard = s.hard := by
  unfold execLsQuarantine
  exact commit_hard _ _ (by simp [apply_ite State.hard])
theorem execLsQuarantineHeld_hard (s : State) : ∃ z, execLsQuarantineHeld s = .next z ∧ z.hard = s.hard := by
  unfold execLsQuarantineHeld
  exact commit_hard _ _ (by simp [apply_ite State.hard])
theorem execLsRelease_hard (s : State) : ∃ z, execLsRelease s = .next z ∧ z.hard = s.hard := by
  unfold execLsRelease
  exact commit_hard _ _ (by simp [apply_ite State.hard])
theorem execLsReset_hard (s : State) : ∃ z, execLsReset s = .next z ∧ z.hard = s.hard := by
  unfold execLsReset
  exact commit_hard _ _ (by simp [apply_ite State.hard])
theorem execWclkSend_hard (t : Nat) (s : State) : ∃ z, execWclkSend t s = .next z ∧ z.hard = s.hard := by
  unfold execWclkSend
  simp only []
  (repeat' split) <;> exact commit_hard _ _ (by simp [apply_ite State.hard])
theorem execTcQuery_hard (s : State) : ∃ z, execTcQuery s = .next z ∧ z.hard = s.hard := by
  unfold execTcQuery
  refine commit_hard _ _ (State.run_hard _ _ _ fun c => ?_)
  simp [apply_ite State.hard]
theorem execTcLoad_hard (env : LoadEnv) (s : State) : ∃ z, execTcLoad env s = .next z ∧ z.hard = s.hard := by
  unfold execTcLoad
  refine commit_hard _ _ (State.run_hard _ _ _ fun c => ?_)
  simp [apply_ite State.hard]
theorem execLoadStepTimeout_hard (t : Nat) (s : State) : ∃ z, execLoadStepTimeout t s = .next z ∧ z.hard = s.hard := by
  unfold execLoadStepTimeout
  (repeat' split) <;> exact commit_hard _ _ (by simp)
theorem execScanComplete_hard (t : Nat) (s : State) : ∃ z, execScanComplete t s = .next z ∧ z.hard = s.hard := by
  unfold execScanComplete
  (repeat' split) <;> exact commit_hard _ _ (by simp)
theorem execTcUnload_hard (x : UnloadEnv) (s : State) : ∃ z, execTcUnload x s = .next z ∧ z.hard = s.hard := by
  unfold execTcUnload
  refine commit_hard _ _ (State.run_hard _ _ _ fun c => ?_)
  simp [apply_ite State.hard]
theorem execLatchRelease_hard (t : Nat) (s : State) : ∃ z, execLatchRelease t s = .next z ∧ z.hard = s.hard := by
  unfold execLatchRelease
  (repeat' split) <;> exact commit_hard _ _ (by simp)
theorem execTcPark_hard (s : State) : ∃ z, execTcPark s = .next z ∧ z.hard = s.hard := by
  unfold execTcPark
  refine commit_hard _ _ (State.run_hard _ _ _ fun c => ?_)
  simp [apply_ite State.hard]
theorem execTcRelax_hard (s : State) : ∃ z, execTcRelax s = .next z ∧ z.hard = s.hard := by
  unfold execTcRelax
  refine commit_hard _ _ (State.run_hard _ _ _ fun c => ?_)
  simp [apply_ite State.hard]
theorem execTcOutOfService_hard (s : State) : ∃ z, execTcOutOfService s = .next z ∧ z.hard = s.hard := by
  unfold execTcOutOfService
  refine commit_hard _ _ (State.run_hard _ _ _ fun c => ?_)
  simp [apply_ite State.hard]
theorem execTcReturnToService_hard (s : State) : ∃ z, execTcReturnToService s = .next z ∧ z.hard = s.hard := by
  unfold execTcReturnToService
  refine commit_hard _ _ (State.run_hard _ _ _ fun c => ?_)
  simp [apply_ite State.hard]
theorem execTcReset_hard (x : ResetEnv) (s : State) : ∃ z, execTcReset x s = .next z ∧ z.hard = s.hard := by
  unfold execTcReset
  refine commit_hard _ _ (State.run_hard _ _ _ fun c => ?_)
  simp only [State.settle_hard]
  split
  · split <;> simp
  · simp
theorem execTcEmergencyStop_hard (s : State) : ∃ z, execTcEmergencyStop s = .next z ∧ z.hard = s.hard := by
  unfold execTcEmergencyStop
  refine commit_hard _ _ (State.run_hard _ _ _ fun c => ?_)
  simp [apply_ite State.hard]
theorem execTcDiscardPending_hard (s : State) : ∃ z, execTcDiscardPending s = .next z ∧ z.hard = s.hard := by
  unfold execTcDiscardPending
  refine commit_hard _ _ (State.run_hard _ _ _ fun c => ?_)
  simp [apply_ite State.hard]
theorem execTcReplacedMechanism_hard (s : State) : ∃ z, execTcReplacedMechanism s = .next z ∧ z.hard = s.hard := by
  unfold execTcReplacedMechanism
  refine commit_hard _ _ (State.run_hard _ _ _ fun c => ?_)
  simp [apply_ite State.hard]
theorem execCartridgeInserted_hard (t : Nat) (env : LoadEnv) (s : State) : ∃ z, execCartridgeInserted t env s = .next z ∧ z.hard = s.hard := by
  unfold execCartridgeInserted
  (repeat' split) <;> exact commit_hard _ _ (by simp)
theorem execCartridgeRemoved_hard (t : Nat) (s : State) : ∃ z, execCartridgeRemoved t s = .next z ∧ z.hard = s.hard := by
  unfold execCartridgeRemoved
  (repeat' split) <;> exact commit_hard _ _ (by simp)
theorem execUnloadTimer_hard (t : Nat) (dir : DirRead) (s : State) : ∃ z, execUnloadTimer t dir s = .next z ∧ z.hard = s.hard := by
  unfold execUnloadTimer
  simp only []
  (repeat' split) <;> exact commit_hard _ _ (by simp [apply_ite State.hard])
theorem execSolRestate_hard (t : Nat) (s : State) : ∃ z, execSolRestate t s = .next z ∧ z.hard = s.hard := by
  unfold execSolRestate
  (repeat' split) <;> exact commit_hard _ _ (by simp)
theorem execPullinEnd_hard (t : Nat) (s : State) : ∃ z, execPullinEnd t s = .next z ∧ z.hard = s.hard := by
  unfold execPullinEnd
  (repeat' split) <;> exact commit_hard _ _ (by simp)
theorem execBrakeFault_hard (t brake : Nat) (s : State) : ∃ z, execBrakeFault t brake s = .next z ∧ z.hard = s.hard := by
  unfold execBrakeFault
  simp only []
  (repeat' split) <;> exact commit_hard _ _ (by simp [apply_ite State.hard])
theorem execServoAcquireFail_hard (t : Nat) (s : State) : ∃ z, execServoAcquireFail t s = .next z ∧ z.hard = s.hard := by
  unfold execServoAcquireFail
  simp only []
  (repeat' split) <;> exact commit_hard _ _ (by simp [apply_ite State.hard])
theorem execBurstStart_hard (t : Nat) (s : State) : ∃ z, execBurstStart t s = .next z ∧ z.hard = s.hard := by
  unfold execBurstStart
  simp only []
  (repeat' split) <;> exact commit_hard _ _ (by simp [apply_ite State.hard])
theorem execBurstStop_hard (t : Nat) (s : State) : ∃ z, execBurstStop t s = .next z ∧ z.hard = s.hard := by
  unfold execBurstStop
  simp only []
  (repeat' split) <;> exact commit_hard _ _ (by simp [apply_ite State.hard])
theorem execExcursionStart_hard (t : Nat) (s : State) : ∃ z, execExcursionStart t s = .next z ∧ z.hard = s.hard := by
  unfold execExcursionStart
  simp only []
  (repeat' split) <;> exact commit_hard _ _ (by simp [apply_ite State.hard])
theorem execTargetReached_hard (t : Nat) (o : ReadOutcome) (s : State) : ∃ z, execTargetReached t o s = .next z ∧ z.hard = s.hard := by
  unfold execTargetReached
  (repeat' split) <;> exact commit_hard _ _ (by simp)
theorem execExcursionEnd_hard (t : Nat) (s : State) : ∃ z, execExcursionEnd t s = .next z ∧ z.hard = s.hard := by
  unfold execExcursionEnd
  simp only []
  (repeat' split) <;> exact commit_hard _ _ (by simp [apply_ite State.hard])
theorem execStopComplete_hard (t : Nat) (s : State) : ∃ z, execStopComplete t s = .next z ∧ z.hard = s.hard := by
  unfold execStopComplete
  simp only []
  (repeat' split) <;> exact commit_hard _ _ (by simp [apply_ite State.hard])
theorem execEnvelopeExit_hard (t : Nat) (s : State) : ∃ z, execEnvelopeExit t s = .next z ∧ z.hard = s.hard := by
  unfold execEnvelopeExit
  simp only []
  (repeat' split) <;> exact commit_hard _ _ (by simp [apply_ite State.hard])
theorem execTurnaround_hard (t : Nat) (s : State) : ∃ z, execTurnaround t s = .next z ∧ z.hard = s.hard := by
  unfold execTurnaround
  simp only []
  (repeat' split) <;> exact commit_hard _ _ (by simp [apply_ite State.hard])
theorem execPressureEvaluation_hard (s : State) : ∃ z, execPressureEvaluation s = .next z ∧ z.hard = s.hard := by
  unfold execPressureEvaluation
  split
  · exact commit_hard _ _ rfl
  · refine commit_hard _ _ ?_
    have tick : ({ s with msNow := s.msNow + 1 } : State).hard = s.hard := rfl
    simp [apply_ite State.hard, tick]
theorem execRelaxTimer_hard (t : Nat) (s : State) : ∃ z, execRelaxTimer t s = .next z ∧ z.hard = s.hard := by
  unfold execRelaxTimer
  simp only []
  (repeat' split) <;> exact commit_hard _ _ (by simp [apply_ite State.hard])
theorem execEpochBoundary_hard (us : Nat) (s : State) : ∃ z, execEpochBoundary us s = .next z ∧ z.hard = s.hard := by
  unfold execEpochBoundary
  (repeat' split) <;> exact commit_hard _ _ (by simp)
theorem execSnapshotReady_hard (s : State) : ∃ z, execSnapshotReady s = .next z ∧ z.hard = s.hard := by
  unfold execSnapshotReady
  (repeat' split) <;> exact commit_hard _ _ (by simp)
theorem execDirectoryCommit_hard (s : State) : ∃ z, execDirectoryCommit s = .next z ∧ z.hard = s.hard := by
  unfold execDirectoryCommit
  (repeat' split) <;> exact commit_hard _ _ (by simp)
theorem execCrashSnapshot_hard (s : State) : ∃ z, execCrashSnapshot s = .next z ∧ z.hard = s.hard := by
  unfold execCrashSnapshot
  (repeat' split) <;> exact commit_hard _ _ (by simp)
theorem execLifeCheckpoint_hard (s : State) : ∃ z, execLifeCheckpoint s = .next z ∧ z.hard = s.hard := by
  unfold execLifeCheckpoint
  (repeat' split) <;> exact commit_hard _ _ (by simp)
theorem execPs1Entry_hard (s : State) : ∃ z, execPs1Entry s = .next z ∧ z.hard = s.hard := by
  unfold execPs1Entry
  (repeat' split) <;> exact commit_hard _ _ (by simp)
theorem execPs2Entry_hard (s : State) : ∃ z, execPs2Entry s = .next z ∧ z.hard = s.hard := by
  unfold execPs2Entry
  (repeat' split) <;> exact commit_hard _ _ (by simp)
theorem ps3Steps_hard (l : List Nat) (s : State) : (l.foldl State.ps3Step s).hard = s.hard := by
  induction l generalizing s with
  | nil => rfl
  | cons k r ih => rw [List.foldl_cons, ih, State.ps3Step_hard]

theorem execPs3Entry_hard (s : State) : ∃ z, execPs3Entry s = .next z ∧ z.hard = s.hard := by
  unfold execPs3Entry
  split
  · split
    · exact commit_hard _ _ (by simp only [State.enterPower_hard, ps3Steps_hard])
    · exact commit_hard _ _ (by simp only [State.enterPower_hard, ps3Steps_hard, State.take_hard])
  · exact commit_hard _ _ rfl
theorem execPowerStateExit_hard (cause : WakeCause) (s : State) : ∃ z, execPowerStateExit cause s = .next z ∧ z.hard = s.hard := by
  unfold execPowerStateExit
  exact commit_hard _ _ (by simp [apply_ite State.hard])
theorem execPowerStateExitDone_hard (s : State) : ∃ z, execPowerStateExitDone s = .next z ∧ z.hard = s.hard := by
  unfold execPowerStateExitDone
  (repeat' split) <;> exact commit_hard _ _ (by simp)
theorem execSetPowerPolicy_hard (s : State) : ∃ z, execSetPowerPolicy s = .next z ∧ z.hard = s.hard := by
  unfold execSetPowerPolicy
  exact commit_hard _ _ (by simp [apply_ite State.hard])
theorem execPorNRelease_hard (straps : BitVec 3) (s : State) : ∃ z, execPorNRelease straps s = .next z ∧ z.hard = s.hard := by
  unfold execPorNRelease
  (repeat' split) <;> exact commit_hard _ _ (by simp)
theorem execSupplyMonitorRelease_hard (s : State) : ∃ z, execSupplyMonitorRelease s = .next z ∧ z.hard = s.hard := by
  unfold execSupplyMonitorRelease
  (repeat' split) <;> exact commit_hard _ _ (by simp)
theorem execPerstNRise_hard (s : State) : ∃ z, execPerstNRise s = .next z ∧ z.hard = s.hard := by
  unfold execPerstNRise
  (repeat' split) <;> exact commit_hard _ _ (by simp)
theorem execCtlCoreWarmReset_hard (c : Nat) (after3s : Bool) (s : State) : ∃ z, execCtlCoreWarmReset c after3s s = .next z ∧ z.hard = s.hard := by
  unfold execCtlCoreWarmReset
  (repeat' split) <;> exact commit_hard _ _ (by simp)
theorem execPowerFail_hard (p : PfailLow) (s : State) : ∃ z, execPowerFail p s = .next z ∧ z.hard = s.hard := by
  unfold execPowerFail
  (repeat' split) <;> exact commit_hard _ _ (by simp)
theorem execDatasetClose_hard (t : Nat) (s : State) : ∃ z, execDatasetClose t s = .next z ∧ z.hard = s.hard := by
  unfold execDatasetClose
  (repeat' split) <;> exact commit_hard _ _ (by simp [apply_ite State.hard])
theorem execIntervalStart_hard (t : Nat) (s : State) : ∃ z, execIntervalStart t s = .next z ∧ z.hard = s.hard := by
  unfold execIntervalStart
  simp only []
  (repeat' split) <;> exact commit_hard _ _ (by simp [apply_ite State.hard])
theorem execRowStatus_hard (t : Nat) (r : RowReport) (s : State) : ∃ z, execRowStatus t r s = .next z ∧ z.hard = s.hard := by
  unfold execRowStatus
  (repeat' split) <;> exact commit_hard _ _ (by simp)
theorem execCreateVolume_hard (u : Nat) (s : State) : ∃ z, execCreateVolume u s = .next z ∧ z.hard = s.hard := by
  unfold execCreateVolume
  refine commit_hard _ _ (State.run_hard _ _ _ fun c => ?_)
  simp only []
  (repeat' split) <;> simp [apply_ite State.hard]
theorem execDeleteVolume_hard (u : Nat) (s : State) : ∃ z, execDeleteVolume u s = .next z ∧ z.hard = s.hard := by
  unfold execDeleteVolume
  refine commit_hard _ _ (State.run_hard _ _ _ fun c => ?_)
  simp only []
  (repeat' split) <;> simp [apply_ite State.hard]
theorem execSetVolumeHold_hard (u : Nat) (s : State) : ∃ z, execSetVolumeHold u s = .next z ∧ z.hard = s.hard := by
  unfold execSetVolumeHold
  refine commit_hard _ _ (State.run_hard _ _ _ fun c => ?_)
  simp only []
  (repeat' split) <;> simp [apply_ite State.hard]
theorem execLoadKey_hard (u : Nat) (h : HostData) (s : State) : ∃ z, execLoadKey u h s = .next z ∧ z.hard = s.hard := by
  unfold execLoadKey
  refine commit_hard _ _ (State.run_hard _ _ _ fun c => ?_)
  simp only []
  (repeat' split) <;> simp [apply_ite State.hard]
theorem execClearKey_hard (u : Nat) (s : State) : ∃ z, execClearKey u s = .next z ∧ z.hard = s.hard := by
  unfold execClearKey
  refine commit_hard _ _ (State.run_hard _ _ _ fun c => ?_)
  simp only []
  (repeat' split) <;> simp [apply_ite State.hard]

/-! ### Rows that clear or set DV_FATAL, or write the NVM -/

/-- A next state with the fuses and the NVM as before. -/
def State.romKept (s : State) (o : Host.Outcome State Fault Refusal) : Prop :=
  ∃ z, o = .next z ∧ z.fuses = s.fuses ∧ z.image.nvm = s.image.nvm ∧ z.pending = s.pending

theorem romKept_of_hard {s : State} {o : Host.Outcome State Fault Refusal} (h : ∃ z, o = .next z ∧ z.hard = s.hard) : s.romKept o := by
  obtain ⟨z, e, h⟩ := h
  simp only [State.hard, Prod.mk.injEq] at h
  exact ⟨z, e, h.1, h.2.1, h.2.2.2⟩

/-- DV_FATAL keeps every bit that is set. -/
def State.fatalKept (s : State) (o : Host.Outcome State Fault Refusal) : Prop :=
  ∃ z, o = .next z ∧ ∀ k, s.dev.fatal.getLsbD k = true → z.dev.fatal.getLsbD k = true

theorem fatalKept_of_hard {s : State} {o : Host.Outcome State Fault Refusal} (h : ∃ z, o = .next z ∧ z.hard = s.hard) : s.fatalKept o := by
  obtain ⟨z, e, h⟩ := h
  simp only [State.hard, Prod.mk.injEq] at h
  exact ⟨z, e, fun k hk => by rw [h.2.2.1]; exact hk⟩

theorem setBit_keeps {n : Nat} (x : BitVec n) (i k : Nat) (h : x.getLsbD k = true) : (setBit x i true).getLsbD k = true := by
  unfold setBit
  simp [h, BitVec.lt_of_getLsbD h]

theorem commit_fatal (s x : State) (c : Nat) (h : x.hard = (s.fuses, s.image.nvm, setBit s.dev.fatal c true, s.pending)) :
    s.romKept (commit s x) ∧ s.fatalKept (commit s x) := by
  simp only [State.hard, Prod.mk.injEq] at h
  exact ⟨⟨_, rfl, h.1, h.2.1, rfl⟩, ⟨_, rfl, fun k hk => by show x.dev.fatal.getLsbD k = true; rw [h.2.2.1]; exact setBit_keeps _ _ _ hk⟩⟩

theorem commit_same (s x : State) (h : x.hard = s.hard) : s.romKept (commit s x) ∧ s.fatalKept (commit s x) :=
  ⟨romKept_of_hard (commit_hard s x h), fatalKept_of_hard (commit_hard s x h)⟩



theorem execClockLoss_kept (clk : Clk) (s : State) : s.romKept (execClockLoss clk s) ∧ s.fatalKept (execClockLoss clk s) := by
  unfold execClockLoss
  split
  · exact commit_same _ _ rfl
  · split
    · exact commit_same _ _ (by split <;> simp)
    · exact commit_fatal _ _ 0 (by rw [State.settle_hard, State.clockFatal_hard])

theorem execCrystalStop_kept (us : Nat) (s : State) : s.romKept (execCrystalStop us s) ∧ s.fatalKept (execCrystalStop us s) := by
  unfold execCrystalStop
  split
  · simp only []
    refine commit_fatal _ _ 0 ?_
    rw [State.settle_hard, State.clockFatal_hard]
    split <;> rfl
  · exact commit_same _ _ rfl

theorem execSachetMounted_kept (m : MountFinding) (s : State) :
    s.romKept (execSachetMounted m s) ∧ s.fatalKept (execSachetMounted m s) := by
  unfold execSachetMounted
  split
  · exact commit_same _ _ rfl
  · split
    · exact commit_fatal _ _ 2 (by rw [State.settle_hard, State.deviceFatal_hard])
    · simp only []
      (repeat' split) <;> exact commit_same _ _ (by simp [apply_ite State.hard])

theorem execUnitSelfTestDone_kept (unit : SelfTest) (pass : Bool) (s : State) :
    s.romKept (execUnitSelfTestDone unit pass s) ∧ s.fatalKept (execUnitSelfTestDone unit pass s) := by
  unfold execUnitSelfTestDone
  simp only []
  split
  · exact commit_same _ _ rfl
  · split
    · exact commit_same _ _ (by simp)
    · exact commit_fatal _ _ _ (by rw [State.settle_hard, State.deviceFatal_hard])

theorem execCompressDone_kept (v : Nat) (body : Option Bytes) (fault : Bool) (s : State) :
    s.romKept (execCompressDone v body fault s) ∧ s.fatalKept (execCompressDone v body fault s) := by
  unfold execCompressDone
  split
  · exact commit_same _ _ rfl
  · split
    · exact commit_fatal _ _ 3 (by rw [State.settle_hard, State.deviceFatal_hard])
    · exact commit_same _ _ (by simp)

theorem execSealDone_kept (v : Nat) (fault : Bool) (s : State) : s.romKept (execSealDone v fault s) ∧ s.fatalKept (execSealDone v fault s) := by
  unfold execSealDone
  split
  · exact commit_same _ _ rfl
  · split
    · exact commit_fatal _ _ 4 (by rw [State.settle_hard, State.deviceFatal_hard])
    · exact commit_same _ _ (by simp)

theorem execBufferUncorrectable_kept (target : EccTarget) (s : State) :
    s.romKept (execBufferUncorrectable target s) ∧ s.fatalKept (execBufferUncorrectable target s) := by
  unfold execBufferUncorrectable
  split
  · exact commit_same _ _ rfl
  · split
    · (repeat' split) <;> exact commit_same _ _ (by simp)
    · split <;> exact commit_same _ _ (by simp)
    · split <;> exact commit_same _ _ (by simp)
    · exact commit_same _ _ (by simp)
    · refine commit_fatal _ _ 1 ?_
      have e := State.retireSegment_hard s true
      simp only [State.hard, Prod.mk.injEq] at e
      rw [State.settle_hard, State.deviceFatal_hard, e.1, e.2.1, e.2.2.1, e.2.2.2]

theorem execPorNAssert_rom (s : State) : s.romKept (execPorNAssert s) := ⟨_, rfl, rfl, rfl, rfl⟩

theorem execSupplyMonitorReset_rom (rail : Rail) (mv us : Nat) (s : State) : s.romKept (execSupplyMonitorReset rail mv us s) := by
  unfold execSupplyMonitorReset
  split <;> exact ⟨_, rfl, rfl, rfl, rfl⟩

theorem romKept_commit (s x : State) (h : x.fuses = s.fuses) (k : x.image.nvm = s.image.nvm) : s.romKept (commit s x) := ⟨_, rfl, h, k, rfl⟩

theorem State.discards_rom (s : State) (ds : Discards) : (s.discards ds).fuses = s.fuses ∧ (s.discards ds).image.nvm = s.image.nvm := by
  have e := State.discards_hard s ds
  simp only [State.hard, Prod.mk.injEq] at e
  exact ⟨e.1, e.2.1⟩

theorem execPerstNFall_rom (p : PerstLow) (s : State) : s.romKept (execPerstNFall p s) := by
  unfold execPerstNFall
  split
  · exact ⟨_, rfl, rfl, rfl, rfl⟩
  · lift_lets
    intro s0 s1 s2
    have h1 : s1.hard = s.hard := by simp only [s1, s0]; split <;> simp
    clear_value s1
    simp only [s2]
    have q := fun r => (State.quiesceTo_hard s1 r p.upTo).trans h1
    simp only [State.hard, Prod.mk.injEq] at q h1
    by_cases g : (s.on && decide (200 ≤ p.ns)) = true
    · rw [if_pos g]
      have e := q (if s.dev.quiesced = 0 then 4 else s.dev.quiesced)
      generalize State.quiesceTo s1 _ p.upTo = s2 at e
      by_cases k : s2.dev.qstep < 4
      · rw [if_pos k]
        exact romKept_commit _ _ e.1 e.2.1
      · rw [if_neg k]
        exact romKept_commit _ _ ((State.discards_rom _ _).1.trans e.1) ((State.discards_rom _ _).2.trans e.2.1)
    · rw [if_neg g]
      exact romKept_commit _ _ h1.1 h1.2.1

/-! ### Image Write -/

/-- Image Write programs the NVM, in the canonical form where it stood in it; DV_FATAL and the fuses stay. -/
def State.nvmKept (s t : State) : Prop :=
  (Memory.wf s.image.nvm → Memory.wf t.image.nvm) ∧ t.fuses = s.fuses ∧ t.dev.fatal = s.dev.fatal

theorem nvmKept_refl (s : State) : s.nvmKept s := ⟨id, rfl, rfl⟩
theorem nvmKept_trans {a b c : State} (h : a.nvmKept b) (k : b.nvmKept c) : a.nvmKept c :=
  ⟨fun w => k.1 (h.1 w), k.2.1.trans h.2.1, k.2.2.trans h.2.2⟩
theorem nvmKept_of_hard {s t : State} (h : t.hard = s.hard) : s.nvmKept t := by
  simp only [State.hard, Prod.mk.injEq] at h
  exact ⟨fun w => by rw [h.2.1]; exact w, h.1, h.2.2.1⟩

theorem State.doImageWrite_kept (s : State) (c : Cmd) (cut : Option Nat) : s.nvmKept (s.doImageWrite c cut) := by
  have w : ∀ (a : Nat) (bs : Bytes), s.nvmKept (s.modImage fun i => { i with nvm := nvmWrite a bs i.nvm }) := fun a bs =>
    ⟨fun w => nvmWrite_wf _ _ _ w, rfl, rfl⟩
  unfold State.doImageWrite
  simp only []
  split
  · exact nvmKept_of_hard (State.fail_hard _ _ _)
  · split
    · exact nvmKept_trans (w _ _) (nvmKept_of_hard (State.succeed_hard _ _ _))
    · exact nvmKept_trans (w _ _) (nvmKept_of_hard (State.dropCmd_hard _ _))

theorem State.runAfterLoad_kept (s : State) (fails : List NvmFail) : s.nvmKept (s.runAfterLoad fails) := by
  unfold State.runAfterLoad State.each
  generalize s.cmdsWhere _ = l
  induction l generalizing s with
  | nil => exact nvmKept_refl s
  | cons c r ih =>
    rw [List.foldl_cons]
    refine nvmKept_trans ?_ (ih _)
    split
    · exact State.doImageWrite_kept _ _ _
    · exact nvmKept_of_hard (State.doImageActivate_hard _ _ _)

theorem commit_nvmKept (s x : State) (h : s.nvmKept x) : ∃ z, commit s x = .next z ∧ s.nvmKept z ∧ z.pending = s.pending := ⟨_, rfl, h, rfl⟩

theorem execImageWrite_kept (x : ImageInput) (s : State) :
    ∃ z, execImageWrite x s = .next z ∧ s.nvmKept z ∧ z.pending = s.pending := by
  unfold execImageWrite
  split
  · exact commit_nvmKept _ _ (nvmKept_refl s)
  · refine commit_nvmKept _ _ ?_
    unfold State.run
    split
    · split
      · exact nvmKept_of_hard (State.waitLoad_hard _ _ _)
      · exact nvmKept_trans (State.doImageWrite_kept _ _ _) (nvmKept_of_hard (State.settle_hard _))
    · exact nvmKept_refl s

theorem execEarlyBlockLoaded_kept (fails : List NvmFail) (s : State) :
    ∃ z, execEarlyBlockLoaded fails s = .next z ∧ s.nvmKept z ∧ z.pending = s.pending := by
  unfold execEarlyBlockLoaded
  split
  · exact commit_nvmKept _ _ (nvmKept_refl s)
  · simp only []
    refine commit_nvmKept _ _ ?_
    have e : ∀ x : State, x.hard = s.hard → s.nvmKept (if x.image.safe then x.runAfterLoad fails else x) := fun x hx => by
      split
      · exact nvmKept_trans (nvmKept_of_hard hx) (State.runAfterLoad_kept _ _)
      · exact nvmKept_of_hard hx
    refine e _ ?_
    (repeat' split) <;> simp

theorem execImageLoadComplete_kept (fails : List NvmFail) (s : State) :
    ∃ z, execImageLoadComplete fails s = .next z ∧ s.nvmKept z ∧ z.pending = s.pending := by
  unfold execImageLoadComplete
  split
  · exact commit_nvmKept _ _ (nvmKept_refl s)
  · refine commit_nvmKept _ _ (nvmKept_trans (nvmKept_of_hard ?_) (State.runAfterLoad_kept _ _))
    simp [apply_ite State.hard]

end Sys2Proof.Machine
end

