-- ==== Sys2Proof/Laws/State.lean ====
section
/-! SUPPORT. What each named update of the state does to each field: one lemma per field per update, and reading a table
after it is written. -/

namespace Sys2Proof

/-! ### Tables -/

/-- A key reads back what was written to it; every other key reads as before. -/
theorem Tab.get_set {α : Type} (d : α) (k j : Nat) (v : α) (m : Tab α) :
    Tab.get d (Tab.set k v m) j = if j = k then v else Tab.get d m j := by
  induction m with
  | nil => by_cases h : k = j <;> simp [Tab.set, Tab.get, h, eq_comm]
  | cons p r ih =>
    obtain ⟨i, w⟩ := p
    by_cases hk : j = k
    · subst hk
      rw [if_pos rfl] at ih ⊢
      by_cases hi : i = j
      · simp [Tab.set, Tab.get, hi]
      · by_cases hlt : j < i <;> simp [Tab.set, Tab.get, hi, hlt, ih]
    · rw [if_neg hk] at ih ⊢
      have hk' : k ≠ j := fun e => hk e.symm
      by_cases hi : i = k
      · subst hi; simp [Tab.set, Tab.get, hk']
      · by_cases hlt : k < i <;> simp [Tab.set, Tab.get, hi, hlt, ih, hk']

@[simp] theorem Tab.get_set_same {α : Type} (d : α) (k : Nat) (v : α) (m : Tab α) : Tab.get d (Tab.set k v m) k = v := by
  simp [Tab.get_set]

theorem Tab.get_set_other {α : Type} (d : α) {k j : Nat} (v : α) (m : Tab α) (h : j ≠ k) :
    Tab.get d (Tab.set k v m) j = Tab.get d m j := by simp [Tab.get_set, h]

/-- Writing a key lists it and no other. -/
@[simp] theorem Tab.has_set {α : Type} (k j : Nat) (v : α) (m : Tab α) : Tab.has (Tab.set k v m) j = (j == k || Tab.has m j) := by
  induction m with
  | nil => simp [Tab.set, Tab.has, Bool.beq_comm]
  | cons p r ih =>
    obtain ⟨i, w⟩ := p
    by_cases hi : i = k
    · subst hi; simp [Tab.set, Tab.has, Bool.beq_comm]
    · by_cases hlt : k < i
      · simp [Tab.set, Tab.has, hi, hlt, Bool.beq_comm]
      · simp [Tab.set, Tab.has, hi, hlt, ih, Bool.or_left_comm]

/-- A later write to the same key takes an earlier one's place. -/
@[simp] theorem Tab.set_set {α : Type} (k : Nat) (v w : α) (m : Tab α) : Tab.set k v (Tab.set k w m) = Tab.set k v m := by
  induction m with
  | nil => simp [Tab.set]
  | cons p r ih =>
    obtain ⟨i, x⟩ := p
    simp only [Tab.set]
    split
    · simp [Tab.set]
    · split
      · simp [Tab.set]
      · simp only [Tab.set]; simp_all

/-- An erased key reads its default, every other key as before. -/
theorem Tab.get_erase {α : Type} (d : α) (k j : Nat) (m : Tab α) : Tab.get d (Tab.erase k m) j = if j = k then d else Tab.get d m j := by
  induction m with
  | nil => simp [Tab.erase, Tab.get]
  | cons p r ih =>
    obtain ⟨i, x⟩ := p
    simp only [Tab.erase]
    split
    · subst_vars; rw [ih]; split
      · rfl
      · simp only [Tab.get]; split
        · subst_vars; contradiction
        · rfl
    · simp only [Tab.get, ih]; split <;> split <;> simp_all

namespace Machine


/-! ### modPins -/

@[simp] theorem State.modPins_pending (s : State) (f : Pins → Pins) : (s.modPins f).pending = s.pending := rfl
@[simp] theorem State.modPins_out (s : State) (f : Pins → Pins) : (s.modPins f).out = s.out := rfl
@[simp] theorem State.modPins_freeCtr (s : State) (f : Pins → Pins) : (s.modPins f).freeCtr = s.freeCtr := rfl
@[simp] theorem State.modPins_msNow (s : State) (f : Pins → Pins) : (s.modPins f).msNow = s.msNow := rfl
@[simp] theorem State.modPins_fuses (s : State) (f : Pins → Pins) : (s.modPins f).fuses = s.fuses := rfl
@[simp] theorem State.modPins_pins (s : State) (f : Pins → Pins) : (s.modPins f).pins = f s.pins := rfl
@[simp] theorem State.modPins_dev (s : State) (f : Pins → Pins) : (s.modPins f).dev = s.dev := rfl
@[simp] theorem State.modPins_image (s : State) (f : Pins → Pins) : (s.modPins f).image = s.image := rfl
@[simp] theorem State.modPins_gpio (s : State) (f : Pins → Pins) : (s.modPins f).gpio = s.gpio := rfl
@[simp] theorem State.modPins_therm (s : State) (f : Pins → Pins) : (s.modPins f).therm = s.therm := rfl
@[simp] theorem State.modPins_pm (s : State) (f : Pins → Pins) : (s.modPins f).pm = s.pm := rfl
@[simp] theorem State.modPins_ev (s : State) (f : Pins → Pins) : (s.modPins f).ev = s.ev := rfl
@[simp] theorem State.modPins_stats (s : State) (f : Pins → Pins) : (s.modPins f).stats = s.stats := rfl
@[simp] theorem State.modPins_tenants (s : State) (f : Pins → Pins) : (s.modPins f).tenants = s.tenants := rfl
@[simp] theorem State.modPins_arb (s : State) (f : Pins → Pins) : (s.modPins f).arb = s.arb := rfl
@[simp] theorem State.modPins_bm (s : State) (f : Pins → Pins) : (s.modPins f).bm = s.bm := rfl
@[simp] theorem State.modPins_vols (s : State) (f : Pins → Pins) : (s.modPins f).vols = s.vols := rfl
@[simp] theorem State.modPins_lanes (s : State) (f : Pins → Pins) : (s.modPins f).lanes = s.lanes := rfl
@[simp] theorem State.modPins_tps (s : State) (f : Pins → Pins) : (s.modPins f).tps = s.tps := rfl
@[simp] theorem State.modPins_cores (s : State) (f : Pins → Pins) : (s.modPins f).cores = s.cores := rfl
@[simp] theorem State.modPins_sachet (s : State) (f : Pins → Pins) : (s.modPins f).sachet = s.sachet := rfl

/-! ### modDev -/

@[simp] theorem State.modDev_pending (s : State) (f : Device → Device) : (s.modDev f).pending = s.pending := rfl
@[simp] theorem State.modDev_out (s : State) (f : Device → Device) : (s.modDev f).out = s.out := rfl
@[simp] theorem State.modDev_freeCtr (s : State) (f : Device → Device) : (s.modDev f).freeCtr = s.freeCtr := rfl
@[simp] theorem State.modDev_msNow (s : State) (f : Device → Device) : (s.modDev f).msNow = s.msNow := rfl
@[simp] theorem State.modDev_fuses (s : State) (f : Device → Device) : (s.modDev f).fuses = s.fuses := rfl
@[simp] theorem State.modDev_pins (s : State) (f : Device → Device) : (s.modDev f).pins = s.pins := rfl
@[simp] theorem State.modDev_dev (s : State) (f : Device → Device) : (s.modDev f).dev = f s.dev := rfl
@[simp] theorem State.modDev_image (s : State) (f : Device → Device) : (s.modDev f).image = s.image := rfl
@[simp] theorem State.modDev_gpio (s : State) (f : Device → Device) : (s.modDev f).gpio = s.gpio := rfl
@[simp] theorem State.modDev_therm (s : State) (f : Device → Device) : (s.modDev f).therm = s.therm := rfl
@[simp] theorem State.modDev_pm (s : State) (f : Device → Device) : (s.modDev f).pm = s.pm := rfl
@[simp] theorem State.modDev_ev (s : State) (f : Device → Device) : (s.modDev f).ev = s.ev := rfl
@[simp] theorem State.modDev_stats (s : State) (f : Device → Device) : (s.modDev f).stats = s.stats := rfl
@[simp] theorem State.modDev_tenants (s : State) (f : Device → Device) : (s.modDev f).tenants = s.tenants := rfl
@[simp] theorem State.modDev_arb (s : State) (f : Device → Device) : (s.modDev f).arb = s.arb := rfl
@[simp] theorem State.modDev_bm (s : State) (f : Device → Device) : (s.modDev f).bm = s.bm := rfl
@[simp] theorem State.modDev_vols (s : State) (f : Device → Device) : (s.modDev f).vols = s.vols := rfl
@[simp] theorem State.modDev_lanes (s : State) (f : Device → Device) : (s.modDev f).lanes = s.lanes := rfl
@[simp] theorem State.modDev_tps (s : State) (f : Device → Device) : (s.modDev f).tps = s.tps := rfl
@[simp] theorem State.modDev_cores (s : State) (f : Device → Device) : (s.modDev f).cores = s.cores := rfl
@[simp] theorem State.modDev_sachet (s : State) (f : Device → Device) : (s.modDev f).sachet = s.sachet := rfl

/-! ### modImage -/

@[simp] theorem State.modImage_pending (s : State) (f : Image → Image) : (s.modImage f).pending = s.pending := rfl
@[simp] theorem State.modImage_out (s : State) (f : Image → Image) : (s.modImage f).out = s.out := rfl
@[simp] theorem State.modImage_freeCtr (s : State) (f : Image → Image) : (s.modImage f).freeCtr = s.freeCtr := rfl
@[simp] theorem State.modImage_msNow (s : State) (f : Image → Image) : (s.modImage f).msNow = s.msNow := rfl
@[simp] theorem State.modImage_fuses (s : State) (f : Image → Image) : (s.modImage f).fuses = s.fuses := rfl
@[simp] theorem State.modImage_pins (s : State) (f : Image → Image) : (s.modImage f).pins = s.pins := rfl
@[simp] theorem State.modImage_dev (s : State) (f : Image → Image) : (s.modImage f).dev = s.dev := rfl
@[simp] theorem State.modImage_image (s : State) (f : Image → Image) : (s.modImage f).image = f s.image := rfl
@[simp] theorem State.modImage_gpio (s : State) (f : Image → Image) : (s.modImage f).gpio = s.gpio := rfl
@[simp] theorem State.modImage_therm (s : State) (f : Image → Image) : (s.modImage f).therm = s.therm := rfl
@[simp] theorem State.modImage_pm (s : State) (f : Image → Image) : (s.modImage f).pm = s.pm := rfl
@[simp] theorem State.modImage_ev (s : State) (f : Image → Image) : (s.modImage f).ev = s.ev := rfl
@[simp] theorem State.modImage_stats (s : State) (f : Image → Image) : (s.modImage f).stats = s.stats := rfl
@[simp] theorem State.modImage_tenants (s : State) (f : Image → Image) : (s.modImage f).tenants = s.tenants := rfl
@[simp] theorem State.modImage_arb (s : State) (f : Image → Image) : (s.modImage f).arb = s.arb := rfl
@[simp] theorem State.modImage_bm (s : State) (f : Image → Image) : (s.modImage f).bm = s.bm := rfl
@[simp] theorem State.modImage_vols (s : State) (f : Image → Image) : (s.modImage f).vols = s.vols := rfl
@[simp] theorem State.modImage_lanes (s : State) (f : Image → Image) : (s.modImage f).lanes = s.lanes := rfl
@[simp] theorem State.modImage_tps (s : State) (f : Image → Image) : (s.modImage f).tps = s.tps := rfl
@[simp] theorem State.modImage_cores (s : State) (f : Image → Image) : (s.modImage f).cores = s.cores := rfl
@[simp] theorem State.modImage_sachet (s : State) (f : Image → Image) : (s.modImage f).sachet = s.sachet := rfl

/-! ### modGpio -/

@[simp] theorem State.modGpio_pending (s : State) (f : Gpio → Gpio) : (s.modGpio f).pending = s.pending := rfl
@[simp] theorem State.modGpio_out (s : State) (f : Gpio → Gpio) : (s.modGpio f).out = s.out := rfl
@[simp] theorem State.modGpio_freeCtr (s : State) (f : Gpio → Gpio) : (s.modGpio f).freeCtr = s.freeCtr := rfl
@[simp] theorem State.modGpio_msNow (s : State) (f : Gpio → Gpio) : (s.modGpio f).msNow = s.msNow := rfl
@[simp] theorem State.modGpio_fuses (s : State) (f : Gpio → Gpio) : (s.modGpio f).fuses = s.fuses := rfl
@[simp] theorem State.modGpio_pins (s : State) (f : Gpio → Gpio) : (s.modGpio f).pins = s.pins := rfl
@[simp] theorem State.modGpio_dev (s : State) (f : Gpio → Gpio) : (s.modGpio f).dev = s.dev := rfl
@[simp] theorem State.modGpio_image (s : State) (f : Gpio → Gpio) : (s.modGpio f).image = s.image := rfl
@[simp] theorem State.modGpio_gpio (s : State) (f : Gpio → Gpio) : (s.modGpio f).gpio = f s.gpio := rfl
@[simp] theorem State.modGpio_therm (s : State) (f : Gpio → Gpio) : (s.modGpio f).therm = s.therm := rfl
@[simp] theorem State.modGpio_pm (s : State) (f : Gpio → Gpio) : (s.modGpio f).pm = s.pm := rfl
@[simp] theorem State.modGpio_ev (s : State) (f : Gpio → Gpio) : (s.modGpio f).ev = s.ev := rfl
@[simp] theorem State.modGpio_stats (s : State) (f : Gpio → Gpio) : (s.modGpio f).stats = s.stats := rfl
@[simp] theorem State.modGpio_tenants (s : State) (f : Gpio → Gpio) : (s.modGpio f).tenants = s.tenants := rfl
@[simp] theorem State.modGpio_arb (s : State) (f : Gpio → Gpio) : (s.modGpio f).arb = s.arb := rfl
@[simp] theorem State.modGpio_bm (s : State) (f : Gpio → Gpio) : (s.modGpio f).bm = s.bm := rfl
@[simp] theorem State.modGpio_vols (s : State) (f : Gpio → Gpio) : (s.modGpio f).vols = s.vols := rfl
@[simp] theorem State.modGpio_lanes (s : State) (f : Gpio → Gpio) : (s.modGpio f).lanes = s.lanes := rfl
@[simp] theorem State.modGpio_tps (s : State) (f : Gpio → Gpio) : (s.modGpio f).tps = s.tps := rfl
@[simp] theorem State.modGpio_cores (s : State) (f : Gpio → Gpio) : (s.modGpio f).cores = s.cores := rfl
@[simp] theorem State.modGpio_sachet (s : State) (f : Gpio → Gpio) : (s.modGpio f).sachet = s.sachet := rfl

/-! ### modTherm -/

@[simp] theorem State.modTherm_pending (s : State) (f : Thermal → Thermal) : (s.modTherm f).pending = s.pending := rfl
@[simp] theorem State.modTherm_out (s : State) (f : Thermal → Thermal) : (s.modTherm f).out = s.out := rfl
@[simp] theorem State.modTherm_freeCtr (s : State) (f : Thermal → Thermal) : (s.modTherm f).freeCtr = s.freeCtr := rfl
@[simp] theorem State.modTherm_msNow (s : State) (f : Thermal → Thermal) : (s.modTherm f).msNow = s.msNow := rfl
@[simp] theorem State.modTherm_fuses (s : State) (f : Thermal → Thermal) : (s.modTherm f).fuses = s.fuses := rfl
@[simp] theorem State.modTherm_pins (s : State) (f : Thermal → Thermal) : (s.modTherm f).pins = s.pins := rfl
@[simp] theorem State.modTherm_dev (s : State) (f : Thermal → Thermal) : (s.modTherm f).dev = s.dev := rfl
@[simp] theorem State.modTherm_image (s : State) (f : Thermal → Thermal) : (s.modTherm f).image = s.image := rfl
@[simp] theorem State.modTherm_gpio (s : State) (f : Thermal → Thermal) : (s.modTherm f).gpio = s.gpio := rfl
@[simp] theorem State.modTherm_therm (s : State) (f : Thermal → Thermal) : (s.modTherm f).therm = f s.therm := rfl
@[simp] theorem State.modTherm_pm (s : State) (f : Thermal → Thermal) : (s.modTherm f).pm = s.pm := rfl
@[simp] theorem State.modTherm_ev (s : State) (f : Thermal → Thermal) : (s.modTherm f).ev = s.ev := rfl
@[simp] theorem State.modTherm_stats (s : State) (f : Thermal → Thermal) : (s.modTherm f).stats = s.stats := rfl
@[simp] theorem State.modTherm_tenants (s : State) (f : Thermal → Thermal) : (s.modTherm f).tenants = s.tenants := rfl
@[simp] theorem State.modTherm_arb (s : State) (f : Thermal → Thermal) : (s.modTherm f).arb = s.arb := rfl
@[simp] theorem State.modTherm_bm (s : State) (f : Thermal → Thermal) : (s.modTherm f).bm = s.bm := rfl
@[simp] theorem State.modTherm_vols (s : State) (f : Thermal → Thermal) : (s.modTherm f).vols = s.vols := rfl
@[simp] theorem State.modTherm_lanes (s : State) (f : Thermal → Thermal) : (s.modTherm f).lanes = s.lanes := rfl
@[simp] theorem State.modTherm_tps (s : State) (f : Thermal → Thermal) : (s.modTherm f).tps = s.tps := rfl
@[simp] theorem State.modTherm_cores (s : State) (f : Thermal → Thermal) : (s.modTherm f).cores = s.cores := rfl
@[simp] theorem State.modTherm_sachet (s : State) (f : Thermal → Thermal) : (s.modTherm f).sachet = s.sachet := rfl

/-! ### modPm -/

@[simp] theorem State.modPm_pending (s : State) (f : Power → Power) : (s.modPm f).pending = s.pending := rfl
@[simp] theorem State.modPm_out (s : State) (f : Power → Power) : (s.modPm f).out = s.out := rfl
@[simp] theorem State.modPm_freeCtr (s : State) (f : Power → Power) : (s.modPm f).freeCtr = s.freeCtr := rfl
@[simp] theorem State.modPm_msNow (s : State) (f : Power → Power) : (s.modPm f).msNow = s.msNow := rfl
@[simp] theorem State.modPm_fuses (s : State) (f : Power → Power) : (s.modPm f).fuses = s.fuses := rfl
@[simp] theorem State.modPm_pins (s : State) (f : Power → Power) : (s.modPm f).pins = s.pins := rfl
@[simp] theorem State.modPm_dev (s : State) (f : Power → Power) : (s.modPm f).dev = s.dev := rfl
@[simp] theorem State.modPm_image (s : State) (f : Power → Power) : (s.modPm f).image = s.image := rfl
@[simp] theorem State.modPm_gpio (s : State) (f : Power → Power) : (s.modPm f).gpio = s.gpio := rfl
@[simp] theorem State.modPm_therm (s : State) (f : Power → Power) : (s.modPm f).therm = s.therm := rfl
@[simp] theorem State.modPm_pm (s : State) (f : Power → Power) : (s.modPm f).pm = f s.pm := rfl
@[simp] theorem State.modPm_ev (s : State) (f : Power → Power) : (s.modPm f).ev = s.ev := rfl
@[simp] theorem State.modPm_stats (s : State) (f : Power → Power) : (s.modPm f).stats = s.stats := rfl
@[simp] theorem State.modPm_tenants (s : State) (f : Power → Power) : (s.modPm f).tenants = s.tenants := rfl
@[simp] theorem State.modPm_arb (s : State) (f : Power → Power) : (s.modPm f).arb = s.arb := rfl
@[simp] theorem State.modPm_bm (s : State) (f : Power → Power) : (s.modPm f).bm = s.bm := rfl
@[simp] theorem State.modPm_vols (s : State) (f : Power → Power) : (s.modPm f).vols = s.vols := rfl
@[simp] theorem State.modPm_lanes (s : State) (f : Power → Power) : (s.modPm f).lanes = s.lanes := rfl
@[simp] theorem State.modPm_tps (s : State) (f : Power → Power) : (s.modPm f).tps = s.tps := rfl
@[simp] theorem State.modPm_cores (s : State) (f : Power → Power) : (s.modPm f).cores = s.cores := rfl
@[simp] theorem State.modPm_sachet (s : State) (f : Power → Power) : (s.modPm f).sachet = s.sachet := rfl

/-! ### modEv -/

@[simp] theorem State.modEv_pending (s : State) (f : Tab EvSource → Tab EvSource) : (s.modEv f).pending = s.pending := rfl
@[simp] theorem State.modEv_out (s : State) (f : Tab EvSource → Tab EvSource) : (s.modEv f).out = s.out := rfl
@[simp] theorem State.modEv_freeCtr (s : State) (f : Tab EvSource → Tab EvSource) : (s.modEv f).freeCtr = s.freeCtr := rfl
@[simp] theorem State.modEv_msNow (s : State) (f : Tab EvSource → Tab EvSource) : (s.modEv f).msNow = s.msNow := rfl
@[simp] theorem State.modEv_fuses (s : State) (f : Tab EvSource → Tab EvSource) : (s.modEv f).fuses = s.fuses := rfl
@[simp] theorem State.modEv_pins (s : State) (f : Tab EvSource → Tab EvSource) : (s.modEv f).pins = s.pins := rfl
@[simp] theorem State.modEv_dev (s : State) (f : Tab EvSource → Tab EvSource) : (s.modEv f).dev = s.dev := rfl
@[simp] theorem State.modEv_image (s : State) (f : Tab EvSource → Tab EvSource) : (s.modEv f).image = s.image := rfl
@[simp] theorem State.modEv_gpio (s : State) (f : Tab EvSource → Tab EvSource) : (s.modEv f).gpio = s.gpio := rfl
@[simp] theorem State.modEv_therm (s : State) (f : Tab EvSource → Tab EvSource) : (s.modEv f).therm = s.therm := rfl
@[simp] theorem State.modEv_pm (s : State) (f : Tab EvSource → Tab EvSource) : (s.modEv f).pm = s.pm := rfl
@[simp] theorem State.modEv_ev (s : State) (f : Tab EvSource → Tab EvSource) : (s.modEv f).ev = f s.ev := rfl
@[simp] theorem State.modEv_stats (s : State) (f : Tab EvSource → Tab EvSource) : (s.modEv f).stats = s.stats := rfl
@[simp] theorem State.modEv_tenants (s : State) (f : Tab EvSource → Tab EvSource) : (s.modEv f).tenants = s.tenants := rfl
@[simp] theorem State.modEv_arb (s : State) (f : Tab EvSource → Tab EvSource) : (s.modEv f).arb = s.arb := rfl
@[simp] theorem State.modEv_bm (s : State) (f : Tab EvSource → Tab EvSource) : (s.modEv f).bm = s.bm := rfl
@[simp] theorem State.modEv_vols (s : State) (f : Tab EvSource → Tab EvSource) : (s.modEv f).vols = s.vols := rfl
@[simp] theorem State.modEv_lanes (s : State) (f : Tab EvSource → Tab EvSource) : (s.modEv f).lanes = s.lanes := rfl
@[simp] theorem State.modEv_tps (s : State) (f : Tab EvSource → Tab EvSource) : (s.modEv f).tps = s.tps := rfl
@[simp] theorem State.modEv_cores (s : State) (f : Tab EvSource → Tab EvSource) : (s.modEv f).cores = s.cores := rfl
@[simp] theorem State.modEv_sachet (s : State) (f : Tab EvSource → Tab EvSource) : (s.modEv f).sachet = s.sachet := rfl

/-! ### modStats -/

@[simp] theorem State.modStats_pending (s : State) (f : Stats → Stats) : (s.modStats f).pending = s.pending := rfl
@[simp] theorem State.modStats_out (s : State) (f : Stats → Stats) : (s.modStats f).out = s.out := rfl
@[simp] theorem State.modStats_freeCtr (s : State) (f : Stats → Stats) : (s.modStats f).freeCtr = s.freeCtr := rfl
@[simp] theorem State.modStats_msNow (s : State) (f : Stats → Stats) : (s.modStats f).msNow = s.msNow := rfl
@[simp] theorem State.modStats_fuses (s : State) (f : Stats → Stats) : (s.modStats f).fuses = s.fuses := rfl
@[simp] theorem State.modStats_pins (s : State) (f : Stats → Stats) : (s.modStats f).pins = s.pins := rfl
@[simp] theorem State.modStats_dev (s : State) (f : Stats → Stats) : (s.modStats f).dev = s.dev := rfl
@[simp] theorem State.modStats_image (s : State) (f : Stats → Stats) : (s.modStats f).image = s.image := rfl
@[simp] theorem State.modStats_gpio (s : State) (f : Stats → Stats) : (s.modStats f).gpio = s.gpio := rfl
@[simp] theorem State.modStats_therm (s : State) (f : Stats → Stats) : (s.modStats f).therm = s.therm := rfl
@[simp] theorem State.modStats_pm (s : State) (f : Stats → Stats) : (s.modStats f).pm = s.pm := rfl
@[simp] theorem State.modStats_ev (s : State) (f : Stats → Stats) : (s.modStats f).ev = s.ev := rfl
@[simp] theorem State.modStats_stats (s : State) (f : Stats → Stats) : (s.modStats f).stats = f s.stats := rfl
@[simp] theorem State.modStats_tenants (s : State) (f : Stats → Stats) : (s.modStats f).tenants = s.tenants := rfl
@[simp] theorem State.modStats_arb (s : State) (f : Stats → Stats) : (s.modStats f).arb = s.arb := rfl
@[simp] theorem State.modStats_bm (s : State) (f : Stats → Stats) : (s.modStats f).bm = s.bm := rfl
@[simp] theorem State.modStats_vols (s : State) (f : Stats → Stats) : (s.modStats f).vols = s.vols := rfl
@[simp] theorem State.modStats_lanes (s : State) (f : Stats → Stats) : (s.modStats f).lanes = s.lanes := rfl
@[simp] theorem State.modStats_tps (s : State) (f : Stats → Stats) : (s.modStats f).tps = s.tps := rfl
@[simp] theorem State.modStats_cores (s : State) (f : Stats → Stats) : (s.modStats f).cores = s.cores := rfl
@[simp] theorem State.modStats_sachet (s : State) (f : Stats → Stats) : (s.modStats f).sachet = s.sachet := rfl

/-! ### modTenants -/

@[simp] theorem State.modTenants_pending (s : State) (f : Tab Tenant → Tab Tenant) : (s.modTenants f).pending = s.pending := rfl
@[simp] theorem State.modTenants_out (s : State) (f : Tab Tenant → Tab Tenant) : (s.modTenants f).out = s.out := rfl
@[simp] theorem State.modTenants_freeCtr (s : State) (f : Tab Tenant → Tab Tenant) : (s.modTenants f).freeCtr = s.freeCtr := rfl
@[simp] theorem State.modTenants_msNow (s : State) (f : Tab Tenant → Tab Tenant) : (s.modTenants f).msNow = s.msNow := rfl
@[simp] theorem State.modTenants_fuses (s : State) (f : Tab Tenant → Tab Tenant) : (s.modTenants f).fuses = s.fuses := rfl
@[simp] theorem State.modTenants_pins (s : State) (f : Tab Tenant → Tab Tenant) : (s.modTenants f).pins = s.pins := rfl
@[simp] theorem State.modTenants_dev (s : State) (f : Tab Tenant → Tab Tenant) : (s.modTenants f).dev = s.dev := rfl
@[simp] theorem State.modTenants_image (s : State) (f : Tab Tenant → Tab Tenant) : (s.modTenants f).image = s.image := rfl
@[simp] theorem State.modTenants_gpio (s : State) (f : Tab Tenant → Tab Tenant) : (s.modTenants f).gpio = s.gpio := rfl
@[simp] theorem State.modTenants_therm (s : State) (f : Tab Tenant → Tab Tenant) : (s.modTenants f).therm = s.therm := rfl
@[simp] theorem State.modTenants_pm (s : State) (f : Tab Tenant → Tab Tenant) : (s.modTenants f).pm = s.pm := rfl
@[simp] theorem State.modTenants_ev (s : State) (f : Tab Tenant → Tab Tenant) : (s.modTenants f).ev = s.ev := rfl
@[simp] theorem State.modTenants_stats (s : State) (f : Tab Tenant → Tab Tenant) : (s.modTenants f).stats = s.stats := rfl
@[simp] theorem State.modTenants_tenants (s : State) (f : Tab Tenant → Tab Tenant) : (s.modTenants f).tenants = f s.tenants := rfl
@[simp] theorem State.modTenants_arb (s : State) (f : Tab Tenant → Tab Tenant) : (s.modTenants f).arb = s.arb := rfl
@[simp] theorem State.modTenants_bm (s : State) (f : Tab Tenant → Tab Tenant) : (s.modTenants f).bm = s.bm := rfl
@[simp] theorem State.modTenants_vols (s : State) (f : Tab Tenant → Tab Tenant) : (s.modTenants f).vols = s.vols := rfl
@[simp] theorem State.modTenants_lanes (s : State) (f : Tab Tenant → Tab Tenant) : (s.modTenants f).lanes = s.lanes := rfl
@[simp] theorem State.modTenants_tps (s : State) (f : Tab Tenant → Tab Tenant) : (s.modTenants f).tps = s.tps := rfl
@[simp] theorem State.modTenants_cores (s : State) (f : Tab Tenant → Tab Tenant) : (s.modTenants f).cores = s.cores := rfl
@[simp] theorem State.modTenants_sachet (s : State) (f : Tab Tenant → Tab Tenant) : (s.modTenants f).sachet = s.sachet := rfl

/-! ### modArb -/

@[simp] theorem State.modArb_pending (s : State) (f : Arb → Arb) : (s.modArb f).pending = s.pending := rfl
@[simp] theorem State.modArb_out (s : State) (f : Arb → Arb) : (s.modArb f).out = s.out := rfl
@[simp] theorem State.modArb_freeCtr (s : State) (f : Arb → Arb) : (s.modArb f).freeCtr = s.freeCtr := rfl
@[simp] theorem State.modArb_msNow (s : State) (f : Arb → Arb) : (s.modArb f).msNow = s.msNow := rfl
@[simp] theorem State.modArb_fuses (s : State) (f : Arb → Arb) : (s.modArb f).fuses = s.fuses := rfl
@[simp] theorem State.modArb_pins (s : State) (f : Arb → Arb) : (s.modArb f).pins = s.pins := rfl
@[simp] theorem State.modArb_dev (s : State) (f : Arb → Arb) : (s.modArb f).dev = s.dev := rfl
@[simp] theorem State.modArb_image (s : State) (f : Arb → Arb) : (s.modArb f).image = s.image := rfl
@[simp] theorem State.modArb_gpio (s : State) (f : Arb → Arb) : (s.modArb f).gpio = s.gpio := rfl
@[simp] theorem State.modArb_therm (s : State) (f : Arb → Arb) : (s.modArb f).therm = s.therm := rfl
@[simp] theorem State.modArb_pm (s : State) (f : Arb → Arb) : (s.modArb f).pm = s.pm := rfl
@[simp] theorem State.modArb_ev (s : State) (f : Arb → Arb) : (s.modArb f).ev = s.ev := rfl
@[simp] theorem State.modArb_stats (s : State) (f : Arb → Arb) : (s.modArb f).stats = s.stats := rfl
@[simp] theorem State.modArb_tenants (s : State) (f : Arb → Arb) : (s.modArb f).tenants = s.tenants := rfl
@[simp] theorem State.modArb_arb (s : State) (f : Arb → Arb) : (s.modArb f).arb = f s.arb := rfl
@[simp] theorem State.modArb_bm (s : State) (f : Arb → Arb) : (s.modArb f).bm = s.bm := rfl
@[simp] theorem State.modArb_vols (s : State) (f : Arb → Arb) : (s.modArb f).vols = s.vols := rfl
@[simp] theorem State.modArb_lanes (s : State) (f : Arb → Arb) : (s.modArb f).lanes = s.lanes := rfl
@[simp] theorem State.modArb_tps (s : State) (f : Arb → Arb) : (s.modArb f).tps = s.tps := rfl
@[simp] theorem State.modArb_cores (s : State) (f : Arb → Arb) : (s.modArb f).cores = s.cores := rfl
@[simp] theorem State.modArb_sachet (s : State) (f : Arb → Arb) : (s.modArb f).sachet = s.sachet := rfl

/-! ### modBm -/

@[simp] theorem State.modBm_pending (s : State) (f : Buffer → Buffer) : (s.modBm f).pending = s.pending := rfl
@[simp] theorem State.modBm_out (s : State) (f : Buffer → Buffer) : (s.modBm f).out = s.out := rfl
@[simp] theorem State.modBm_freeCtr (s : State) (f : Buffer → Buffer) : (s.modBm f).freeCtr = s.freeCtr := rfl
@[simp] theorem State.modBm_msNow (s : State) (f : Buffer → Buffer) : (s.modBm f).msNow = s.msNow := rfl
@[simp] theorem State.modBm_fuses (s : State) (f : Buffer → Buffer) : (s.modBm f).fuses = s.fuses := rfl
@[simp] theorem State.modBm_pins (s : State) (f : Buffer → Buffer) : (s.modBm f).pins = s.pins := rfl
@[simp] theorem State.modBm_dev (s : State) (f : Buffer → Buffer) : (s.modBm f).dev = s.dev := rfl
@[simp] theorem State.modBm_image (s : State) (f : Buffer → Buffer) : (s.modBm f).image = s.image := rfl
@[simp] theorem State.modBm_gpio (s : State) (f : Buffer → Buffer) : (s.modBm f).gpio = s.gpio := rfl
@[simp] theorem State.modBm_therm (s : State) (f : Buffer → Buffer) : (s.modBm f).therm = s.therm := rfl
@[simp] theorem State.modBm_pm (s : State) (f : Buffer → Buffer) : (s.modBm f).pm = s.pm := rfl
@[simp] theorem State.modBm_ev (s : State) (f : Buffer → Buffer) : (s.modBm f).ev = s.ev := rfl
@[simp] theorem State.modBm_stats (s : State) (f : Buffer → Buffer) : (s.modBm f).stats = s.stats := rfl
@[simp] theorem State.modBm_tenants (s : State) (f : Buffer → Buffer) : (s.modBm f).tenants = s.tenants := rfl
@[simp] theorem State.modBm_arb (s : State) (f : Buffer → Buffer) : (s.modBm f).arb = s.arb := rfl
@[simp] theorem State.modBm_bm (s : State) (f : Buffer → Buffer) : (s.modBm f).bm = f s.bm := rfl
@[simp] theorem State.modBm_vols (s : State) (f : Buffer → Buffer) : (s.modBm f).vols = s.vols := rfl
@[simp] theorem State.modBm_lanes (s : State) (f : Buffer → Buffer) : (s.modBm f).lanes = s.lanes := rfl
@[simp] theorem State.modBm_tps (s : State) (f : Buffer → Buffer) : (s.modBm f).tps = s.tps := rfl
@[simp] theorem State.modBm_cores (s : State) (f : Buffer → Buffer) : (s.modBm f).cores = s.cores := rfl
@[simp] theorem State.modBm_sachet (s : State) (f : Buffer → Buffer) : (s.modBm f).sachet = s.sachet := rfl

/-! ### modVols -/

@[simp] theorem State.modVols_pending (s : State) (f : Tab Volume → Tab Volume) : (s.modVols f).pending = s.pending := rfl
@[simp] theorem State.modVols_out (s : State) (f : Tab Volume → Tab Volume) : (s.modVols f).out = s.out := rfl
@[simp] theorem State.modVols_freeCtr (s : State) (f : Tab Volume → Tab Volume) : (s.modVols f).freeCtr = s.freeCtr := rfl
@[simp] theorem State.modVols_msNow (s : State) (f : Tab Volume → Tab Volume) : (s.modVols f).msNow = s.msNow := rfl
@[simp] theorem State.modVols_fuses (s : State) (f : Tab Volume → Tab Volume) : (s.modVols f).fuses = s.fuses := rfl
@[simp] theorem State.modVols_pins (s : State) (f : Tab Volume → Tab Volume) : (s.modVols f).pins = s.pins := rfl
@[simp] theorem State.modVols_dev (s : State) (f : Tab Volume → Tab Volume) : (s.modVols f).dev = s.dev := rfl
@[simp] theorem State.modVols_image (s : State) (f : Tab Volume → Tab Volume) : (s.modVols f).image = s.image := rfl
@[simp] theorem State.modVols_gpio (s : State) (f : Tab Volume → Tab Volume) : (s.modVols f).gpio = s.gpio := rfl
@[simp] theorem State.modVols_therm (s : State) (f : Tab Volume → Tab Volume) : (s.modVols f).therm = s.therm := rfl
@[simp] theorem State.modVols_pm (s : State) (f : Tab Volume → Tab Volume) : (s.modVols f).pm = s.pm := rfl
@[simp] theorem State.modVols_ev (s : State) (f : Tab Volume → Tab Volume) : (s.modVols f).ev = s.ev := rfl
@[simp] theorem State.modVols_stats (s : State) (f : Tab Volume → Tab Volume) : (s.modVols f).stats = s.stats := rfl
@[simp] theorem State.modVols_tenants (s : State) (f : Tab Volume → Tab Volume) : (s.modVols f).tenants = s.tenants := rfl
@[simp] theorem State.modVols_arb (s : State) (f : Tab Volume → Tab Volume) : (s.modVols f).arb = s.arb := rfl
@[simp] theorem State.modVols_bm (s : State) (f : Tab Volume → Tab Volume) : (s.modVols f).bm = s.bm := rfl
@[simp] theorem State.modVols_vols (s : State) (f : Tab Volume → Tab Volume) : (s.modVols f).vols = f s.vols := rfl
@[simp] theorem State.modVols_lanes (s : State) (f : Tab Volume → Tab Volume) : (s.modVols f).lanes = s.lanes := rfl
@[simp] theorem State.modVols_tps (s : State) (f : Tab Volume → Tab Volume) : (s.modVols f).tps = s.tps := rfl
@[simp] theorem State.modVols_cores (s : State) (f : Tab Volume → Tab Volume) : (s.modVols f).cores = s.cores := rfl
@[simp] theorem State.modVols_sachet (s : State) (f : Tab Volume → Tab Volume) : (s.modVols f).sachet = s.sachet := rfl

/-! ### modLanes -/

@[simp] theorem State.modLanes_pending (s : State) (f : Tab Lane → Tab Lane) : (s.modLanes f).pending = s.pending := rfl
@[simp] theorem State.modLanes_out (s : State) (f : Tab Lane → Tab Lane) : (s.modLanes f).out = s.out := rfl
@[simp] theorem State.modLanes_freeCtr (s : State) (f : Tab Lane → Tab Lane) : (s.modLanes f).freeCtr = s.freeCtr := rfl
@[simp] theorem State.modLanes_msNow (s : State) (f : Tab Lane → Tab Lane) : (s.modLanes f).msNow = s.msNow := rfl
@[simp] theorem State.modLanes_fuses (s : State) (f : Tab Lane → Tab Lane) : (s.modLanes f).fuses = s.fuses := rfl
@[simp] theorem State.modLanes_pins (s : State) (f : Tab Lane → Tab Lane) : (s.modLanes f).pins = s.pins := rfl
@[simp] theorem State.modLanes_dev (s : State) (f : Tab Lane → Tab Lane) : (s.modLanes f).dev = s.dev := rfl
@[simp] theorem State.modLanes_image (s : State) (f : Tab Lane → Tab Lane) : (s.modLanes f).image = s.image := rfl
@[simp] theorem State.modLanes_gpio (s : State) (f : Tab Lane → Tab Lane) : (s.modLanes f).gpio = s.gpio := rfl
@[simp] theorem State.modLanes_therm (s : State) (f : Tab Lane → Tab Lane) : (s.modLanes f).therm = s.therm := rfl
@[simp] theorem State.modLanes_pm (s : State) (f : Tab Lane → Tab Lane) : (s.modLanes f).pm = s.pm := rfl
@[simp] theorem State.modLanes_ev (s : State) (f : Tab Lane → Tab Lane) : (s.modLanes f).ev = s.ev := rfl
@[simp] theorem State.modLanes_stats (s : State) (f : Tab Lane → Tab Lane) : (s.modLanes f).stats = s.stats := rfl
@[simp] theorem State.modLanes_tenants (s : State) (f : Tab Lane → Tab Lane) : (s.modLanes f).tenants = s.tenants := rfl
@[simp] theorem State.modLanes_arb (s : State) (f : Tab Lane → Tab Lane) : (s.modLanes f).arb = s.arb := rfl
@[simp] theorem State.modLanes_bm (s : State) (f : Tab Lane → Tab Lane) : (s.modLanes f).bm = s.bm := rfl
@[simp] theorem State.modLanes_vols (s : State) (f : Tab Lane → Tab Lane) : (s.modLanes f).vols = s.vols := rfl
@[simp] theorem State.modLanes_lanes (s : State) (f : Tab Lane → Tab Lane) : (s.modLanes f).lanes = f s.lanes := rfl
@[simp] theorem State.modLanes_tps (s : State) (f : Tab Lane → Tab Lane) : (s.modLanes f).tps = s.tps := rfl
@[simp] theorem State.modLanes_cores (s : State) (f : Tab Lane → Tab Lane) : (s.modLanes f).cores = s.cores := rfl
@[simp] theorem State.modLanes_sachet (s : State) (f : Tab Lane → Tab Lane) : (s.modLanes f).sachet = s.sachet := rfl

/-! ### modTps -/

@[simp] theorem State.modTps_pending (s : State) (f : Tab Transport → Tab Transport) : (s.modTps f).pending = s.pending := rfl
@[simp] theorem State.modTps_out (s : State) (f : Tab Transport → Tab Transport) : (s.modTps f).out = s.out := rfl
@[simp] theorem State.modTps_freeCtr (s : State) (f : Tab Transport → Tab Transport) : (s.modTps f).freeCtr = s.freeCtr := rfl
@[simp] theorem State.modTps_msNow (s : State) (f : Tab Transport → Tab Transport) : (s.modTps f).msNow = s.msNow := rfl
@[simp] theorem State.modTps_fuses (s : State) (f : Tab Transport → Tab Transport) : (s.modTps f).fuses = s.fuses := rfl
@[simp] theorem State.modTps_pins (s : State) (f : Tab Transport → Tab Transport) : (s.modTps f).pins = s.pins := rfl
@[simp] theorem State.modTps_dev (s : State) (f : Tab Transport → Tab Transport) : (s.modTps f).dev = s.dev := rfl
@[simp] theorem State.modTps_image (s : State) (f : Tab Transport → Tab Transport) : (s.modTps f).image = s.image := rfl
@[simp] theorem State.modTps_gpio (s : State) (f : Tab Transport → Tab Transport) : (s.modTps f).gpio = s.gpio := rfl
@[simp] theorem State.modTps_therm (s : State) (f : Tab Transport → Tab Transport) : (s.modTps f).therm = s.therm := rfl
@[simp] theorem State.modTps_pm (s : State) (f : Tab Transport → Tab Transport) : (s.modTps f).pm = s.pm := rfl
@[simp] theorem State.modTps_ev (s : State) (f : Tab Transport → Tab Transport) : (s.modTps f).ev = s.ev := rfl
@[simp] theorem State.modTps_stats (s : State) (f : Tab Transport → Tab Transport) : (s.modTps f).stats = s.stats := rfl
@[simp] theorem State.modTps_tenants (s : State) (f : Tab Transport → Tab Transport) : (s.modTps f).tenants = s.tenants := rfl
@[simp] theorem State.modTps_arb (s : State) (f : Tab Transport → Tab Transport) : (s.modTps f).arb = s.arb := rfl
@[simp] theorem State.modTps_bm (s : State) (f : Tab Transport → Tab Transport) : (s.modTps f).bm = s.bm := rfl
@[simp] theorem State.modTps_vols (s : State) (f : Tab Transport → Tab Transport) : (s.modTps f).vols = s.vols := rfl
@[simp] theorem State.modTps_lanes (s : State) (f : Tab Transport → Tab Transport) : (s.modTps f).lanes = s.lanes := rfl
@[simp] theorem State.modTps_tps (s : State) (f : Tab Transport → Tab Transport) : (s.modTps f).tps = f s.tps := rfl
@[simp] theorem State.modTps_cores (s : State) (f : Tab Transport → Tab Transport) : (s.modTps f).cores = s.cores := rfl
@[simp] theorem State.modTps_sachet (s : State) (f : Tab Transport → Tab Transport) : (s.modTps f).sachet = s.sachet := rfl

/-! ### modCores -/

@[simp] theorem State.modCores_pending (s : State) (f : Tab Core → Tab Core) : (s.modCores f).pending = s.pending := rfl
@[simp] theorem State.modCores_out (s : State) (f : Tab Core → Tab Core) : (s.modCores f).out = s.out := rfl
@[simp] theorem State.modCores_freeCtr (s : State) (f : Tab Core → Tab Core) : (s.modCores f).freeCtr = s.freeCtr := rfl
@[simp] theorem State.modCores_msNow (s : State) (f : Tab Core → Tab Core) : (s.modCores f).msNow = s.msNow := rfl
@[simp] theorem State.modCores_fuses (s : State) (f : Tab Core → Tab Core) : (s.modCores f).fuses = s.fuses := rfl
@[simp] theorem State.modCores_pins (s : State) (f : Tab Core → Tab Core) : (s.modCores f).pins = s.pins := rfl
@[simp] theorem State.modCores_dev (s : State) (f : Tab Core → Tab Core) : (s.modCores f).dev = s.dev := rfl
@[simp] theorem State.modCores_image (s : State) (f : Tab Core → Tab Core) : (s.modCores f).image = s.image := rfl
@[simp] theorem State.modCores_gpio (s : State) (f : Tab Core → Tab Core) : (s.modCores f).gpio = s.gpio := rfl
@[simp] theorem State.modCores_therm (s : State) (f : Tab Core → Tab Core) : (s.modCores f).therm = s.therm := rfl
@[simp] theorem State.modCores_pm (s : State) (f : Tab Core → Tab Core) : (s.modCores f).pm = s.pm := rfl
@[simp] theorem State.modCores_ev (s : State) (f : Tab Core → Tab Core) : (s.modCores f).ev = s.ev := rfl
@[simp] theorem State.modCores_stats (s : State) (f : Tab Core → Tab Core) : (s.modCores f).stats = s.stats := rfl
@[simp] theorem State.modCores_tenants (s : State) (f : Tab Core → Tab Core) : (s.modCores f).tenants = s.tenants := rfl
@[simp] theorem State.modCores_arb (s : State) (f : Tab Core → Tab Core) : (s.modCores f).arb = s.arb := rfl
@[simp] theorem State.modCores_bm (s : State) (f : Tab Core → Tab Core) : (s.modCores f).bm = s.bm := rfl
@[simp] theorem State.modCores_vols (s : State) (f : Tab Core → Tab Core) : (s.modCores f).vols = s.vols := rfl
@[simp] theorem State.modCores_lanes (s : State) (f : Tab Core → Tab Core) : (s.modCores f).lanes = s.lanes := rfl
@[simp] theorem State.modCores_tps (s : State) (f : Tab Core → Tab Core) : (s.modCores f).tps = s.tps := rfl
@[simp] theorem State.modCores_cores (s : State) (f : Tab Core → Tab Core) : (s.modCores f).cores = f s.cores := rfl
@[simp] theorem State.modCores_sachet (s : State) (f : Tab Core → Tab Core) : (s.modCores f).sachet = s.sachet := rfl

/-! ### modSachet -/

@[simp] theorem State.modSachet_pending (s : State) (f : Sachet → Sachet) : (s.modSachet f).pending = s.pending := rfl
@[simp] theorem State.modSachet_out (s : State) (f : Sachet → Sachet) : (s.modSachet f).out = s.out := rfl
@[simp] theorem State.modSachet_freeCtr (s : State) (f : Sachet → Sachet) : (s.modSachet f).freeCtr = s.freeCtr := rfl
@[simp] theorem State.modSachet_msNow (s : State) (f : Sachet → Sachet) : (s.modSachet f).msNow = s.msNow := rfl
@[simp] theorem State.modSachet_fuses (s : State) (f : Sachet → Sachet) : (s.modSachet f).fuses = s.fuses := rfl
@[simp] theorem State.modSachet_pins (s : State) (f : Sachet → Sachet) : (s.modSachet f).pins = s.pins := rfl
@[simp] theorem State.modSachet_dev (s : State) (f : Sachet → Sachet) : (s.modSachet f).dev = s.dev := rfl
@[simp] theorem State.modSachet_image (s : State) (f : Sachet → Sachet) : (s.modSachet f).image = s.image := rfl
@[simp] theorem State.modSachet_gpio (s : State) (f : Sachet → Sachet) : (s.modSachet f).gpio = s.gpio := rfl
@[simp] theorem State.modSachet_therm (s : State) (f : Sachet → Sachet) : (s.modSachet f).therm = s.therm := rfl
@[simp] theorem State.modSachet_pm (s : State) (f : Sachet → Sachet) : (s.modSachet f).pm = s.pm := rfl
@[simp] theorem State.modSachet_ev (s : State) (f : Sachet → Sachet) : (s.modSachet f).ev = s.ev := rfl
@[simp] theorem State.modSachet_stats (s : State) (f : Sachet → Sachet) : (s.modSachet f).stats = s.stats := rfl
@[simp] theorem State.modSachet_tenants (s : State) (f : Sachet → Sachet) : (s.modSachet f).tenants = s.tenants := rfl
@[simp] theorem State.modSachet_arb (s : State) (f : Sachet → Sachet) : (s.modSachet f).arb = s.arb := rfl
@[simp] theorem State.modSachet_bm (s : State) (f : Sachet → Sachet) : (s.modSachet f).bm = s.bm := rfl
@[simp] theorem State.modSachet_vols (s : State) (f : Sachet → Sachet) : (s.modSachet f).vols = s.vols := rfl
@[simp] theorem State.modSachet_lanes (s : State) (f : Sachet → Sachet) : (s.modSachet f).lanes = s.lanes := rfl
@[simp] theorem State.modSachet_tps (s : State) (f : Sachet → Sachet) : (s.modSachet f).tps = s.tps := rfl
@[simp] theorem State.modSachet_cores (s : State) (f : Sachet → Sachet) : (s.modSachet f).cores = s.cores := rfl
@[simp] theorem State.modSachet_sachet (s : State) (f : Sachet → Sachet) : (s.modSachet f).sachet = f s.sachet := rfl

/-! ### emit, take -/

@[simp] theorem State.emit_pending (s : State) (o : Output) : (s.emit o).pending = s.pending := rfl
@[simp] theorem State.emit_out (s : State) (o : Output) : (s.emit o).out = s.out ++ [o] := rfl
@[simp] theorem State.emit_freeCtr (s : State) (o : Output) : (s.emit o).freeCtr = s.freeCtr := rfl
@[simp] theorem State.emit_msNow (s : State) (o : Output) : (s.emit o).msNow = s.msNow := rfl
@[simp] theorem State.emit_fuses (s : State) (o : Output) : (s.emit o).fuses = s.fuses := rfl
@[simp] theorem State.emit_pins (s : State) (o : Output) : (s.emit o).pins = s.pins := rfl
@[simp] theorem State.emit_dev (s : State) (o : Output) : (s.emit o).dev = s.dev := rfl
@[simp] theorem State.emit_image (s : State) (o : Output) : (s.emit o).image = s.image := rfl
@[simp] theorem State.emit_gpio (s : State) (o : Output) : (s.emit o).gpio = s.gpio := rfl
@[simp] theorem State.emit_therm (s : State) (o : Output) : (s.emit o).therm = s.therm := rfl
@[simp] theorem State.emit_pm (s : State) (o : Output) : (s.emit o).pm = s.pm := rfl
@[simp] theorem State.emit_ev (s : State) (o : Output) : (s.emit o).ev = s.ev := rfl
@[simp] theorem State.emit_stats (s : State) (o : Output) : (s.emit o).stats = s.stats := rfl
@[simp] theorem State.emit_tenants (s : State) (o : Output) : (s.emit o).tenants = s.tenants := rfl
@[simp] theorem State.emit_arb (s : State) (o : Output) : (s.emit o).arb = s.arb := rfl
@[simp] theorem State.emit_bm (s : State) (o : Output) : (s.emit o).bm = s.bm := rfl
@[simp] theorem State.emit_vols (s : State) (o : Output) : (s.emit o).vols = s.vols := rfl
@[simp] theorem State.emit_lanes (s : State) (o : Output) : (s.emit o).lanes = s.lanes := rfl
@[simp] theorem State.emit_tps (s : State) (o : Output) : (s.emit o).tps = s.tps := rfl
@[simp] theorem State.emit_cores (s : State) (o : Output) : (s.emit o).cores = s.cores := rfl
@[simp] theorem State.emit_sachet (s : State) (o : Output) : (s.emit o).sachet = s.sachet := rfl
@[simp] theorem State.take_pending (s : State) : (s.take).pending = s.pending := rfl
@[simp] theorem State.take_out (s : State) : (s.take).out = s.out := rfl
@[simp] theorem State.take_freeCtr (s : State) : (s.take).freeCtr = s.freeCtr + 1 := rfl
@[simp] theorem State.take_msNow (s : State) : (s.take).msNow = s.msNow := rfl
@[simp] theorem State.take_fuses (s : State) : (s.take).fuses = s.fuses := rfl
@[simp] theorem State.take_pins (s : State) : (s.take).pins = s.pins := rfl
@[simp] theorem State.take_dev (s : State) : (s.take).dev = s.dev := rfl
@[simp] theorem State.take_image (s : State) : (s.take).image = s.image := rfl
@[simp] theorem State.take_gpio (s : State) : (s.take).gpio = s.gpio := rfl
@[simp] theorem State.take_therm (s : State) : (s.take).therm = s.therm := rfl
@[simp] theorem State.take_pm (s : State) : (s.take).pm = s.pm := rfl
@[simp] theorem State.take_ev (s : State) : (s.take).ev = s.ev := rfl
@[simp] theorem State.take_stats (s : State) : (s.take).stats = s.stats := rfl
@[simp] theorem State.take_tenants (s : State) : (s.take).tenants = s.tenants := rfl
@[simp] theorem State.take_arb (s : State) : (s.take).arb = s.arb := rfl
@[simp] theorem State.take_bm (s : State) : (s.take).bm = s.bm := rfl
@[simp] theorem State.take_vols (s : State) : (s.take).vols = s.vols := rfl
@[simp] theorem State.take_lanes (s : State) : (s.take).lanes = s.lanes := rfl
@[simp] theorem State.take_tps (s : State) : (s.take).tps = s.tps := rfl
@[simp] theorem State.take_cores (s : State) : (s.take).cores = s.cores := rfl
@[simp] theorem State.take_sachet (s : State) : (s.take).sachet = s.sachet := rfl

/-! ### One unit of a table -/

/-- Updating tenant `u` gives `u` the new value and leaves every other tenant. -/
theorem State.tn_modTn (s : State) (u v : Nat) (f : Tenant → Tenant) : (s.modTn u f).tn v = if v = u then f (s.tn u) else s.tn v := by
  simp [State.modTn, State.tn, Tab.get_set]
/-- Updating transport `t` gives `t` the new value and leaves every other transport. -/
theorem State.tp_modTp (s : State) (t v : Nat) (f : Transport → Transport) : (s.modTp t f).tp v = if v = t then f (s.tp t) else s.tp v := by
  simp [State.modTp, State.tp, Tab.get_set]
/-- Updating lane `n` gives `n` the new value and leaves every other lane. -/
theorem State.ln_modLn (s : State) (n m : Nat) (f : Lane → Lane) : (s.modLn n f).ln m = if m = n then f (s.ln n) else s.ln m := by
  simp [State.modLn, State.ln, Tab.get_set]
/-- Updating an event source gives it the new value and leaves every other source. -/
theorem State.evSrc_modEvSrc (s : State) (e e2 : Nat) (f : EvSource → EvSource) :
    (s.modEvSrc e f).evSrc e2 = if e2 = e then f (s.evSrc e) else s.evSrc e2 := by
  by_cases h : e2 = e
  · subst h; simp [State.modEvSrc, State.evSrc]
  · simp [State.modEvSrc, State.evSrc, Tab.get_set, h]
/-- Updating an existing queue pair gives it the new value and leaves every other pair; a pair that does not exist stays
unborn. -/
theorem State.qp_modQp (s : State) (u q v p : Nat) (f : QueuePair → QueuePair) (h : s.hasQp u q = true) :
    (s.modQp u q f).qp v p = if v = u ∧ p = q then f (s.qp u q) else s.qp v p := by
  simp only [State.modQp, h, if_true, State.qp, State.tn_modTn]
  by_cases hv : v = u
  · subst hv; by_cases hp : p = q <;> simp [Tab.get_set, hp]
  · simp [hv]
@[simp] theorem State.modQp_absent (s : State) (u q : Nat) (f : QueuePair → QueuePair) (h : s.hasQp u q = false) : s.modQp u q f = s := by
  simp [State.modQp, h]
/-- Updating loop slot `k` of transport `t` leaves every other slot. -/
theorem State.slot_modSlot (s : State) (t k v j : Nat) (f : Slot → Slot) :
    (s.modSlot t k f).slot v j = if v = t ∧ j = k then f (s.slot t k) else s.slot v j := by
  simp only [State.modSlot, State.slot, State.tp_modTp]
  by_cases hv : v = t
  · subst hv; by_cases hj : j = k <;> simp [Tab.get_set, hj]
  · simp [hv]
/-- Updating a track channel leaves every other channel. -/
theorem State.chan_modChan (s : State) (t c v d : Nat) (f : Chan → Chan) :
    (s.modChan t c f).chan v d = if v = t ∧ d = c then f (s.chan t c) else s.chan v d := by
  simp only [State.modChan, State.chan, State.modRc, State.tp_modTp]
  by_cases hv : v = t
  · subst hv; by_cases hj : d = c <;> simp [Tab.get_set, hj]
  · simp [hv]

end Machine

end Sys2Proof
end

