-- ==== Sys2Proof/Laws/Ops.lean ====
section
/-! SUPPORT. What each shared operation leaves as it is, field by field: everything but the fields named with it. -/

namespace Sys2Proof.Machine


/-! ### modTn: changes tenants.  -/

@[simp] theorem State.modTn_pending (s : State) (u : Nat) (f : Tenant → Tenant) : (s.modTn u f).pending = s.pending := rfl
@[simp] theorem State.modTn_out (s : State) (u : Nat) (f : Tenant → Tenant) : (s.modTn u f).out = s.out := rfl
@[simp] theorem State.modTn_freeCtr (s : State) (u : Nat) (f : Tenant → Tenant) : (s.modTn u f).freeCtr = s.freeCtr := rfl
@[simp] theorem State.modTn_msNow (s : State) (u : Nat) (f : Tenant → Tenant) : (s.modTn u f).msNow = s.msNow := rfl
@[simp] theorem State.modTn_fuses (s : State) (u : Nat) (f : Tenant → Tenant) : (s.modTn u f).fuses = s.fuses := rfl
@[simp] theorem State.modTn_pins (s : State) (u : Nat) (f : Tenant → Tenant) : (s.modTn u f).pins = s.pins := rfl
@[simp] theorem State.modTn_dev (s : State) (u : Nat) (f : Tenant → Tenant) : (s.modTn u f).dev = s.dev := rfl
@[simp] theorem State.modTn_image (s : State) (u : Nat) (f : Tenant → Tenant) : (s.modTn u f).image = s.image := rfl
@[simp] theorem State.modTn_gpio (s : State) (u : Nat) (f : Tenant → Tenant) : (s.modTn u f).gpio = s.gpio := rfl
@[simp] theorem State.modTn_therm (s : State) (u : Nat) (f : Tenant → Tenant) : (s.modTn u f).therm = s.therm := rfl
@[simp] theorem State.modTn_pm (s : State) (u : Nat) (f : Tenant → Tenant) : (s.modTn u f).pm = s.pm := rfl
@[simp] theorem State.modTn_ev (s : State) (u : Nat) (f : Tenant → Tenant) : (s.modTn u f).ev = s.ev := rfl
@[simp] theorem State.modTn_stats (s : State) (u : Nat) (f : Tenant → Tenant) : (s.modTn u f).stats = s.stats := rfl
@[simp] theorem State.modTn_arb (s : State) (u : Nat) (f : Tenant → Tenant) : (s.modTn u f).arb = s.arb := rfl
@[simp] theorem State.modTn_bm (s : State) (u : Nat) (f : Tenant → Tenant) : (s.modTn u f).bm = s.bm := rfl
@[simp] theorem State.modTn_vols (s : State) (u : Nat) (f : Tenant → Tenant) : (s.modTn u f).vols = s.vols := rfl
@[simp] theorem State.modTn_lanes (s : State) (u : Nat) (f : Tenant → Tenant) : (s.modTn u f).lanes = s.lanes := rfl
@[simp] theorem State.modTn_tps (s : State) (u : Nat) (f : Tenant → Tenant) : (s.modTn u f).tps = s.tps := rfl
@[simp] theorem State.modTn_cores (s : State) (u : Nat) (f : Tenant → Tenant) : (s.modTn u f).cores = s.cores := rfl
@[simp] theorem State.modTn_sachet (s : State) (u : Nat) (f : Tenant → Tenant) : (s.modTn u f).sachet = s.sachet := rfl

/-! ### modLn: changes lanes.  -/

@[simp] theorem State.modLn_pending (s : State) (n : Nat) (f : Lane → Lane) : (s.modLn n f).pending = s.pending := rfl
@[simp] theorem State.modLn_out (s : State) (n : Nat) (f : Lane → Lane) : (s.modLn n f).out = s.out := rfl
@[simp] theorem State.modLn_freeCtr (s : State) (n : Nat) (f : Lane → Lane) : (s.modLn n f).freeCtr = s.freeCtr := rfl
@[simp] theorem State.modLn_msNow (s : State) (n : Nat) (f : Lane → Lane) : (s.modLn n f).msNow = s.msNow := rfl
@[simp] theorem State.modLn_fuses (s : State) (n : Nat) (f : Lane → Lane) : (s.modLn n f).fuses = s.fuses := rfl
@[simp] theorem State.modLn_pins (s : State) (n : Nat) (f : Lane → Lane) : (s.modLn n f).pins = s.pins := rfl
@[simp] theorem State.modLn_dev (s : State) (n : Nat) (f : Lane → Lane) : (s.modLn n f).dev = s.dev := rfl
@[simp] theorem State.modLn_image (s : State) (n : Nat) (f : Lane → Lane) : (s.modLn n f).image = s.image := rfl
@[simp] theorem State.modLn_gpio (s : State) (n : Nat) (f : Lane → Lane) : (s.modLn n f).gpio = s.gpio := rfl
@[simp] theorem State.modLn_therm (s : State) (n : Nat) (f : Lane → Lane) : (s.modLn n f).therm = s.therm := rfl
@[simp] theorem State.modLn_pm (s : State) (n : Nat) (f : Lane → Lane) : (s.modLn n f).pm = s.pm := rfl
@[simp] theorem State.modLn_ev (s : State) (n : Nat) (f : Lane → Lane) : (s.modLn n f).ev = s.ev := rfl
@[simp] theorem State.modLn_stats (s : State) (n : Nat) (f : Lane → Lane) : (s.modLn n f).stats = s.stats := rfl
@[simp] theorem State.modLn_tenants (s : State) (n : Nat) (f : Lane → Lane) : (s.modLn n f).tenants = s.tenants := rfl
@[simp] theorem State.modLn_arb (s : State) (n : Nat) (f : Lane → Lane) : (s.modLn n f).arb = s.arb := rfl
@[simp] theorem State.modLn_bm (s : State) (n : Nat) (f : Lane → Lane) : (s.modLn n f).bm = s.bm := rfl
@[simp] theorem State.modLn_vols (s : State) (n : Nat) (f : Lane → Lane) : (s.modLn n f).vols = s.vols := rfl
@[simp] theorem State.modLn_tps (s : State) (n : Nat) (f : Lane → Lane) : (s.modLn n f).tps = s.tps := rfl
@[simp] theorem State.modLn_cores (s : State) (n : Nat) (f : Lane → Lane) : (s.modLn n f).cores = s.cores := rfl
@[simp] theorem State.modLn_sachet (s : State) (n : Nat) (f : Lane → Lane) : (s.modLn n f).sachet = s.sachet := rfl

/-! ### modTp: changes tps.  -/

@[simp] theorem State.modTp_pending (s : State) (t : Nat) (f : Transport → Transport) : (s.modTp t f).pending = s.pending := rfl
@[simp] theorem State.modTp_out (s : State) (t : Nat) (f : Transport → Transport) : (s.modTp t f).out = s.out := rfl
@[simp] theorem State.modTp_freeCtr (s : State) (t : Nat) (f : Transport → Transport) : (s.modTp t f).freeCtr = s.freeCtr := rfl
@[simp] theorem State.modTp_msNow (s : State) (t : Nat) (f : Transport → Transport) : (s.modTp t f).msNow = s.msNow := rfl
@[simp] theorem State.modTp_fuses (s : State) (t : Nat) (f : Transport → Transport) : (s.modTp t f).fuses = s.fuses := rfl
@[simp] theorem State.modTp_pins (s : State) (t : Nat) (f : Transport → Transport) : (s.modTp t f).pins = s.pins := rfl
@[simp] theorem State.modTp_dev (s : State) (t : Nat) (f : Transport → Transport) : (s.modTp t f).dev = s.dev := rfl
@[simp] theorem State.modTp_image (s : State) (t : Nat) (f : Transport → Transport) : (s.modTp t f).image = s.image := rfl
@[simp] theorem State.modTp_gpio (s : State) (t : Nat) (f : Transport → Transport) : (s.modTp t f).gpio = s.gpio := rfl
@[simp] theorem State.modTp_therm (s : State) (t : Nat) (f : Transport → Transport) : (s.modTp t f).therm = s.therm := rfl
@[simp] theorem State.modTp_pm (s : State) (t : Nat) (f : Transport → Transport) : (s.modTp t f).pm = s.pm := rfl
@[simp] theorem State.modTp_ev (s : State) (t : Nat) (f : Transport → Transport) : (s.modTp t f).ev = s.ev := rfl
@[simp] theorem State.modTp_stats (s : State) (t : Nat) (f : Transport → Transport) : (s.modTp t f).stats = s.stats := rfl
@[simp] theorem State.modTp_tenants (s : State) (t : Nat) (f : Transport → Transport) : (s.modTp t f).tenants = s.tenants := rfl
@[simp] theorem State.modTp_arb (s : State) (t : Nat) (f : Transport → Transport) : (s.modTp t f).arb = s.arb := rfl
@[simp] theorem State.modTp_bm (s : State) (t : Nat) (f : Transport → Transport) : (s.modTp t f).bm = s.bm := rfl
@[simp] theorem State.modTp_vols (s : State) (t : Nat) (f : Transport → Transport) : (s.modTp t f).vols = s.vols := rfl
@[simp] theorem State.modTp_lanes (s : State) (t : Nat) (f : Transport → Transport) : (s.modTp t f).lanes = s.lanes := rfl
@[simp] theorem State.modTp_cores (s : State) (t : Nat) (f : Transport → Transport) : (s.modTp t f).cores = s.cores := rfl
@[simp] theorem State.modTp_sachet (s : State) (t : Nat) (f : Transport → Transport) : (s.modTp t f).sachet = s.sachet := rfl

/-! ### setReady: changes dev.  -/

@[simp] theorem State.setReady_pending (s : State) (b : Nat) (v : Bool) : (s.setReady b v).pending = s.pending := rfl
@[simp] theorem State.setReady_out (s : State) (b : Nat) (v : Bool) : (s.setReady b v).out = s.out := rfl
@[simp] theorem State.setReady_freeCtr (s : State) (b : Nat) (v : Bool) : (s.setReady b v).freeCtr = s.freeCtr := rfl
@[simp] theorem State.setReady_msNow (s : State) (b : Nat) (v : Bool) : (s.setReady b v).msNow = s.msNow := rfl
@[simp] theorem State.setReady_fuses (s : State) (b : Nat) (v : Bool) : (s.setReady b v).fuses = s.fuses := rfl
@[simp] theorem State.setReady_pins (s : State) (b : Nat) (v : Bool) : (s.setReady b v).pins = s.pins := rfl
@[simp] theorem State.setReady_image (s : State) (b : Nat) (v : Bool) : (s.setReady b v).image = s.image := rfl
@[simp] theorem State.setReady_gpio (s : State) (b : Nat) (v : Bool) : (s.setReady b v).gpio = s.gpio := rfl
@[simp] theorem State.setReady_therm (s : State) (b : Nat) (v : Bool) : (s.setReady b v).therm = s.therm := rfl
@[simp] theorem State.setReady_pm (s : State) (b : Nat) (v : Bool) : (s.setReady b v).pm = s.pm := rfl
@[simp] theorem State.setReady_ev (s : State) (b : Nat) (v : Bool) : (s.setReady b v).ev = s.ev := rfl
@[simp] theorem State.setReady_stats (s : State) (b : Nat) (v : Bool) : (s.setReady b v).stats = s.stats := rfl
@[simp] theorem State.setReady_tenants (s : State) (b : Nat) (v : Bool) : (s.setReady b v).tenants = s.tenants := rfl
@[simp] theorem State.setReady_arb (s : State) (b : Nat) (v : Bool) : (s.setReady b v).arb = s.arb := rfl
@[simp] theorem State.setReady_bm (s : State) (b : Nat) (v : Bool) : (s.setReady b v).bm = s.bm := rfl
@[simp] theorem State.setReady_vols (s : State) (b : Nat) (v : Bool) : (s.setReady b v).vols = s.vols := rfl
@[simp] theorem State.setReady_lanes (s : State) (b : Nat) (v : Bool) : (s.setReady b v).lanes = s.lanes := rfl
@[simp] theorem State.setReady_tps (s : State) (b : Nat) (v : Bool) : (s.setReady b v).tps = s.tps := rfl
@[simp] theorem State.setReady_cores (s : State) (b : Nat) (v : Bool) : (s.setReady b v).cores = s.cores := rfl
@[simp] theorem State.setReady_sachet (s : State) (b : Nat) (v : Bool) : (s.setReady b v).sachet = s.sachet := rfl

/-! ### stat: changes stats.  -/

@[simp] theorem State.stat_pending (s : State) (i n : Nat) : (s.stat i n).pending = s.pending := rfl
@[simp] theorem State.stat_out (s : State) (i n : Nat) : (s.stat i n).out = s.out := rfl
@[simp] theorem State.stat_freeCtr (s : State) (i n : Nat) : (s.stat i n).freeCtr = s.freeCtr := rfl
@[simp] theorem State.stat_msNow (s : State) (i n : Nat) : (s.stat i n).msNow = s.msNow := rfl
@[simp] theorem State.stat_fuses (s : State) (i n : Nat) : (s.stat i n).fuses = s.fuses := rfl
@[simp] theorem State.stat_pins (s : State) (i n : Nat) : (s.stat i n).pins = s.pins := rfl
@[simp] theorem State.stat_dev (s : State) (i n : Nat) : (s.stat i n).dev = s.dev := rfl
@[simp] theorem State.stat_image (s : State) (i n : Nat) : (s.stat i n).image = s.image := rfl
@[simp] theorem State.stat_gpio (s : State) (i n : Nat) : (s.stat i n).gpio = s.gpio := rfl
@[simp] theorem State.stat_therm (s : State) (i n : Nat) : (s.stat i n).therm = s.therm := rfl
@[simp] theorem State.stat_pm (s : State) (i n : Nat) : (s.stat i n).pm = s.pm := rfl
@[simp] theorem State.stat_ev (s : State) (i n : Nat) : (s.stat i n).ev = s.ev := rfl
@[simp] theorem State.stat_tenants (s : State) (i n : Nat) : (s.stat i n).tenants = s.tenants := rfl
@[simp] theorem State.stat_arb (s : State) (i n : Nat) : (s.stat i n).arb = s.arb := rfl
@[simp] theorem State.stat_bm (s : State) (i n : Nat) : (s.stat i n).bm = s.bm := rfl
@[simp] theorem State.stat_vols (s : State) (i n : Nat) : (s.stat i n).vols = s.vols := rfl
@[simp] theorem State.stat_lanes (s : State) (i n : Nat) : (s.stat i n).lanes = s.lanes := rfl
@[simp] theorem State.stat_tps (s : State) (i n : Nat) : (s.stat i n).tps = s.tps := rfl
@[simp] theorem State.stat_cores (s : State) (i n : Nat) : (s.stat i n).cores = s.cores := rfl
@[simp] theorem State.stat_sachet (s : State) (i n : Nat) : (s.stat i n).sachet = s.sachet := rfl

/-! ### peak: changes stats.  -/

@[simp] theorem State.peak_pending (s : State) (i n : Nat) : (s.peak i n).pending = s.pending := rfl
@[simp] theorem State.peak_out (s : State) (i n : Nat) : (s.peak i n).out = s.out := rfl
@[simp] theorem State.peak_freeCtr (s : State) (i n : Nat) : (s.peak i n).freeCtr = s.freeCtr := rfl
@[simp] theorem State.peak_msNow (s : State) (i n : Nat) : (s.peak i n).msNow = s.msNow := rfl
@[simp] theorem State.peak_fuses (s : State) (i n : Nat) : (s.peak i n).fuses = s.fuses := rfl
@[simp] theorem State.peak_pins (s : State) (i n : Nat) : (s.peak i n).pins = s.pins := rfl
@[simp] theorem State.peak_dev (s : State) (i n : Nat) : (s.peak i n).dev = s.dev := rfl
@[simp] theorem State.peak_image (s : State) (i n : Nat) : (s.peak i n).image = s.image := rfl
@[simp] theorem State.peak_gpio (s : State) (i n : Nat) : (s.peak i n).gpio = s.gpio := rfl
@[simp] theorem State.peak_therm (s : State) (i n : Nat) : (s.peak i n).therm = s.therm := rfl
@[simp] theorem State.peak_pm (s : State) (i n : Nat) : (s.peak i n).pm = s.pm := rfl
@[simp] theorem State.peak_ev (s : State) (i n : Nat) : (s.peak i n).ev = s.ev := rfl
@[simp] theorem State.peak_tenants (s : State) (i n : Nat) : (s.peak i n).tenants = s.tenants := rfl
@[simp] theorem State.peak_arb (s : State) (i n : Nat) : (s.peak i n).arb = s.arb := rfl
@[simp] theorem State.peak_bm (s : State) (i n : Nat) : (s.peak i n).bm = s.bm := rfl
@[simp] theorem State.peak_vols (s : State) (i n : Nat) : (s.peak i n).vols = s.vols := rfl
@[simp] theorem State.peak_lanes (s : State) (i n : Nat) : (s.peak i n).lanes = s.lanes := rfl
@[simp] theorem State.peak_tps (s : State) (i n : Nat) : (s.peak i n).tps = s.tps := rfl
@[simp] theorem State.peak_cores (s : State) (i n : Nat) : (s.peak i n).cores = s.cores := rfl
@[simp] theorem State.peak_sachet (s : State) (i n : Nat) : (s.peak i n).sachet = s.sachet := rfl

/-! ### modEvSrc: changes ev.  -/

@[simp] theorem State.modEvSrc_pending (s : State) (e : Nat) (f : EvSource → EvSource) : (s.modEvSrc e f).pending = s.pending := rfl
@[simp] theorem State.modEvSrc_out (s : State) (e : Nat) (f : EvSource → EvSource) : (s.modEvSrc e f).out = s.out := rfl
@[simp] theorem State.modEvSrc_freeCtr (s : State) (e : Nat) (f : EvSource → EvSource) : (s.modEvSrc e f).freeCtr = s.freeCtr := rfl
@[simp] theorem State.modEvSrc_msNow (s : State) (e : Nat) (f : EvSource → EvSource) : (s.modEvSrc e f).msNow = s.msNow := rfl
@[simp] theorem State.modEvSrc_fuses (s : State) (e : Nat) (f : EvSource → EvSource) : (s.modEvSrc e f).fuses = s.fuses := rfl
@[simp] theorem State.modEvSrc_pins (s : State) (e : Nat) (f : EvSource → EvSource) : (s.modEvSrc e f).pins = s.pins := rfl
@[simp] theorem State.modEvSrc_dev (s : State) (e : Nat) (f : EvSource → EvSource) : (s.modEvSrc e f).dev = s.dev := rfl
@[simp] theorem State.modEvSrc_image (s : State) (e : Nat) (f : EvSource → EvSource) : (s.modEvSrc e f).image = s.image := rfl
@[simp] theorem State.modEvSrc_gpio (s : State) (e : Nat) (f : EvSource → EvSource) : (s.modEvSrc e f).gpio = s.gpio := rfl
@[simp] theorem State.modEvSrc_therm (s : State) (e : Nat) (f : EvSource → EvSource) : (s.modEvSrc e f).therm = s.therm := rfl
@[simp] theorem State.modEvSrc_pm (s : State) (e : Nat) (f : EvSource → EvSource) : (s.modEvSrc e f).pm = s.pm := rfl
@[simp] theorem State.modEvSrc_stats (s : State) (e : Nat) (f : EvSource → EvSource) : (s.modEvSrc e f).stats = s.stats := rfl
@[simp] theorem State.modEvSrc_tenants (s : State) (e : Nat) (f : EvSource → EvSource) : (s.modEvSrc e f).tenants = s.tenants := rfl
@[simp] theorem State.modEvSrc_arb (s : State) (e : Nat) (f : EvSource → EvSource) : (s.modEvSrc e f).arb = s.arb := rfl
@[simp] theorem State.modEvSrc_bm (s : State) (e : Nat) (f : EvSource → EvSource) : (s.modEvSrc e f).bm = s.bm := rfl
@[simp] theorem State.modEvSrc_vols (s : State) (e : Nat) (f : EvSource → EvSource) : (s.modEvSrc e f).vols = s.vols := rfl
@[simp] theorem State.modEvSrc_lanes (s : State) (e : Nat) (f : EvSource → EvSource) : (s.modEvSrc e f).lanes = s.lanes := rfl
@[simp] theorem State.modEvSrc_tps (s : State) (e : Nat) (f : EvSource → EvSource) : (s.modEvSrc e f).tps = s.tps := rfl
@[simp] theorem State.modEvSrc_cores (s : State) (e : Nat) (f : EvSource → EvSource) : (s.modEvSrc e f).cores = s.cores := rfl
@[simp] theorem State.modEvSrc_sachet (s : State) (e : Nat) (f : EvSource → EvSource) : (s.modEvSrc e f).sachet = s.sachet := rfl

/-! ### modQp: changes tenants.  -/

@[simp] theorem State.modQp_pending (s : State) (u q : Nat) (f : QueuePair → QueuePair) : (s.modQp u q f).pending = s.pending := by
  unfold State.modQp; split <;> rfl
@[simp] theorem State.modQp_out (s : State) (u q : Nat) (f : QueuePair → QueuePair) : (s.modQp u q f).out = s.out := by
  unfold State.modQp; split <;> rfl
@[simp] theorem State.modQp_freeCtr (s : State) (u q : Nat) (f : QueuePair → QueuePair) : (s.modQp u q f).freeCtr = s.freeCtr := by
  unfold State.modQp; split <;> rfl
@[simp] theorem State.modQp_msNow (s : State) (u q : Nat) (f : QueuePair → QueuePair) : (s.modQp u q f).msNow = s.msNow := by
  unfold State.modQp; split <;> rfl
@[simp] theorem State.modQp_fuses (s : State) (u q : Nat) (f : QueuePair → QueuePair) : (s.modQp u q f).fuses = s.fuses := by
  unfold State.modQp; split <;> rfl
@[simp] theorem State.modQp_pins (s : State) (u q : Nat) (f : QueuePair → QueuePair) : (s.modQp u q f).pins = s.pins := by
  unfold State.modQp; split <;> rfl
@[simp] theorem State.modQp_dev (s : State) (u q : Nat) (f : QueuePair → QueuePair) : (s.modQp u q f).dev = s.dev := by
  unfold State.modQp; split <;> rfl
@[simp] theorem State.modQp_image (s : State) (u q : Nat) (f : QueuePair → QueuePair) : (s.modQp u q f).image = s.image := by
  unfold State.modQp; split <;> rfl
@[simp] theorem State.modQp_gpio (s : State) (u q : Nat) (f : QueuePair → QueuePair) : (s.modQp u q f).gpio = s.gpio := by
  unfold State.modQp; split <;> rfl
@[simp] theorem State.modQp_therm (s : State) (u q : Nat) (f : QueuePair → QueuePair) : (s.modQp u q f).therm = s.therm := by
  unfold State.modQp; split <;> rfl
@[simp] theorem State.modQp_pm (s : State) (u q : Nat) (f : QueuePair → QueuePair) : (s.modQp u q f).pm = s.pm := by
  unfold State.modQp; split <;> rfl
@[simp] theorem State.modQp_ev (s : State) (u q : Nat) (f : QueuePair → QueuePair) : (s.modQp u q f).ev = s.ev := by
  unfold State.modQp; split <;> rfl
@[simp] theorem State.modQp_stats (s : State) (u q : Nat) (f : QueuePair → QueuePair) : (s.modQp u q f).stats = s.stats := by
  unfold State.modQp; split <;> rfl
@[simp] theorem State.modQp_arb (s : State) (u q : Nat) (f : QueuePair → QueuePair) : (s.modQp u q f).arb = s.arb := by
  unfold State.modQp; split <;> rfl
@[simp] theorem State.modQp_bm (s : State) (u q : Nat) (f : QueuePair → QueuePair) : (s.modQp u q f).bm = s.bm := by
  unfold State.modQp; split <;> rfl
@[simp] theorem State.modQp_vols (s : State) (u q : Nat) (f : QueuePair → QueuePair) : (s.modQp u q f).vols = s.vols := by
  unfold State.modQp; split <;> rfl
@[simp] theorem State.modQp_lanes (s : State) (u q : Nat) (f : QueuePair → QueuePair) : (s.modQp u q f).lanes = s.lanes := by
  unfold State.modQp; split <;> rfl
@[simp] theorem State.modQp_tps (s : State) (u q : Nat) (f : QueuePair → QueuePair) : (s.modQp u q f).tps = s.tps := by
  unfold State.modQp; split <;> rfl
@[simp] theorem State.modQp_cores (s : State) (u q : Nat) (f : QueuePair → QueuePair) : (s.modQp u q f).cores = s.cores := by
  unfold State.modQp; split <;> rfl
@[simp] theorem State.modQp_sachet (s : State) (u q : Nat) (f : QueuePair → QueuePair) : (s.modQp u q f).sachet = s.sachet := by
  unfold State.modQp; split <;> rfl

/-! ### setVol: changes vols.  -/

@[simp] theorem State.setVol_pending (s : State) (v : Nat) (x : Volume) : (s.setVol v x).pending = s.pending := rfl
@[simp] theorem State.setVol_out (s : State) (v : Nat) (x : Volume) : (s.setVol v x).out = s.out := rfl
@[simp] theorem State.setVol_freeCtr (s : State) (v : Nat) (x : Volume) : (s.setVol v x).freeCtr = s.freeCtr := rfl
@[simp] theorem State.setVol_msNow (s : State) (v : Nat) (x : Volume) : (s.setVol v x).msNow = s.msNow := rfl
@[simp] theorem State.setVol_fuses (s : State) (v : Nat) (x : Volume) : (s.setVol v x).fuses = s.fuses := rfl
@[simp] theorem State.setVol_pins (s : State) (v : Nat) (x : Volume) : (s.setVol v x).pins = s.pins := rfl
@[simp] theorem State.setVol_dev (s : State) (v : Nat) (x : Volume) : (s.setVol v x).dev = s.dev := rfl
@[simp] theorem State.setVol_image (s : State) (v : Nat) (x : Volume) : (s.setVol v x).image = s.image := rfl
@[simp] theorem State.setVol_gpio (s : State) (v : Nat) (x : Volume) : (s.setVol v x).gpio = s.gpio := rfl
@[simp] theorem State.setVol_therm (s : State) (v : Nat) (x : Volume) : (s.setVol v x).therm = s.therm := rfl
@[simp] theorem State.setVol_pm (s : State) (v : Nat) (x : Volume) : (s.setVol v x).pm = s.pm := rfl
@[simp] theorem State.setVol_ev (s : State) (v : Nat) (x : Volume) : (s.setVol v x).ev = s.ev := rfl
@[simp] theorem State.setVol_stats (s : State) (v : Nat) (x : Volume) : (s.setVol v x).stats = s.stats := rfl
@[simp] theorem State.setVol_tenants (s : State) (v : Nat) (x : Volume) : (s.setVol v x).tenants = s.tenants := rfl
@[simp] theorem State.setVol_arb (s : State) (v : Nat) (x : Volume) : (s.setVol v x).arb = s.arb := rfl
@[simp] theorem State.setVol_bm (s : State) (v : Nat) (x : Volume) : (s.setVol v x).bm = s.bm := rfl
@[simp] theorem State.setVol_lanes (s : State) (v : Nat) (x : Volume) : (s.setVol v x).lanes = s.lanes := rfl
@[simp] theorem State.setVol_tps (s : State) (v : Nat) (x : Volume) : (s.setVol v x).tps = s.tps := rfl
@[simp] theorem State.setVol_cores (s : State) (v : Nat) (x : Volume) : (s.setVol v x).cores = s.cores := rfl
@[simp] theorem State.setVol_sachet (s : State) (v : Nat) (x : Volume) : (s.setVol v x).sachet = s.sachet := rfl

/-! ### modVol: changes vols.  -/

@[simp] theorem State.modVol_pending (s : State) (v : Nat) (f : Volume → Volume) : (s.modVol v f).pending = s.pending := by
  unfold State.modVol; split <;> rfl
@[simp] theorem State.modVol_out (s : State) (v : Nat) (f : Volume → Volume) : (s.modVol v f).out = s.out := by
  unfold State.modVol; split <;> rfl
@[simp] theorem State.modVol_freeCtr (s : State) (v : Nat) (f : Volume → Volume) : (s.modVol v f).freeCtr = s.freeCtr := by
  unfold State.modVol; split <;> rfl
@[simp] theorem State.modVol_msNow (s : State) (v : Nat) (f : Volume → Volume) : (s.modVol v f).msNow = s.msNow := by
  unfold State.modVol; split <;> rfl
@[simp] theorem State.modVol_fuses (s : State) (v : Nat) (f : Volume → Volume) : (s.modVol v f).fuses = s.fuses := by
  unfold State.modVol; split <;> rfl
@[simp] theorem State.modVol_pins (s : State) (v : Nat) (f : Volume → Volume) : (s.modVol v f).pins = s.pins := by
  unfold State.modVol; split <;> rfl
@[simp] theorem State.modVol_dev (s : State) (v : Nat) (f : Volume → Volume) : (s.modVol v f).dev = s.dev := by
  unfold State.modVol; split <;> rfl
@[simp] theorem State.modVol_image (s : State) (v : Nat) (f : Volume → Volume) : (s.modVol v f).image = s.image := by
  unfold State.modVol; split <;> rfl
@[simp] theorem State.modVol_gpio (s : State) (v : Nat) (f : Volume → Volume) : (s.modVol v f).gpio = s.gpio := by
  unfold State.modVol; split <;> rfl
@[simp] theorem State.modVol_therm (s : State) (v : Nat) (f : Volume → Volume) : (s.modVol v f).therm = s.therm := by
  unfold State.modVol; split <;> rfl
@[simp] theorem State.modVol_pm (s : State) (v : Nat) (f : Volume → Volume) : (s.modVol v f).pm = s.pm := by
  unfold State.modVol; split <;> rfl
@[simp] theorem State.modVol_ev (s : State) (v : Nat) (f : Volume → Volume) : (s.modVol v f).ev = s.ev := by
  unfold State.modVol; split <;> rfl
@[simp] theorem State.modVol_stats (s : State) (v : Nat) (f : Volume → Volume) : (s.modVol v f).stats = s.stats := by
  unfold State.modVol; split <;> rfl
@[simp] theorem State.modVol_tenants (s : State) (v : Nat) (f : Volume → Volume) : (s.modVol v f).tenants = s.tenants := by
  unfold State.modVol; split <;> rfl
@[simp] theorem State.modVol_arb (s : State) (v : Nat) (f : Volume → Volume) : (s.modVol v f).arb = s.arb := by
  unfold State.modVol; split <;> rfl
@[simp] theorem State.modVol_bm (s : State) (v : Nat) (f : Volume → Volume) : (s.modVol v f).bm = s.bm := by
  unfold State.modVol; split <;> rfl
@[simp] theorem State.modVol_lanes (s : State) (v : Nat) (f : Volume → Volume) : (s.modVol v f).lanes = s.lanes := by
  unfold State.modVol; split <;> rfl
@[simp] theorem State.modVol_tps (s : State) (v : Nat) (f : Volume → Volume) : (s.modVol v f).tps = s.tps := by
  unfold State.modVol; split <;> rfl
@[simp] theorem State.modVol_cores (s : State) (v : Nat) (f : Volume → Volume) : (s.modVol v f).cores = s.cores := by
  unfold State.modVol; split <;> rfl
@[simp] theorem State.modVol_sachet (s : State) (v : Nat) (f : Volume → Volume) : (s.modVol v f).sachet = s.sachet := by
  unfold State.modVol; split <;> rfl

/-! ### sendMsix: changes tenants, out, stats. A message changes pending bits, the outputs and the statistics alone (R78, R337). -/

@[simp] theorem State.sendMsix_pending (s : State) (fn vec : Nat) : (s.sendMsix fn vec).pending = s.pending := by
  simp only [State.sendMsix]
  (repeat' split) <;> simp
@[simp] theorem State.sendMsix_freeCtr (s : State) (fn vec : Nat) : (s.sendMsix fn vec).freeCtr = s.freeCtr := by
  simp only [State.sendMsix]
  (repeat' split) <;> simp
@[simp] theorem State.sendMsix_msNow (s : State) (fn vec : Nat) : (s.sendMsix fn vec).msNow = s.msNow := by
  simp only [State.sendMsix]
  (repeat' split) <;> simp
@[simp] theorem State.sendMsix_fuses (s : State) (fn vec : Nat) : (s.sendMsix fn vec).fuses = s.fuses := by
  simp only [State.sendMsix]
  (repeat' split) <;> simp
@[simp] theorem State.sendMsix_pins (s : State) (fn vec : Nat) : (s.sendMsix fn vec).pins = s.pins := by
  simp only [State.sendMsix]
  (repeat' split) <;> simp
@[simp] theorem State.sendMsix_dev (s : State) (fn vec : Nat) : (s.sendMsix fn vec).dev = s.dev := by
  simp only [State.sendMsix]
  (repeat' split) <;> simp
@[simp] theorem State.sendMsix_image (s : State) (fn vec : Nat) : (s.sendMsix fn vec).image = s.image := by
  simp only [State.sendMsix]
  (repeat' split) <;> simp
@[simp] theorem State.sendMsix_gpio (s : State) (fn vec : Nat) : (s.sendMsix fn vec).gpio = s.gpio := by
  simp only [State.sendMsix]
  (repeat' split) <;> simp
@[simp] theorem State.sendMsix_therm (s : State) (fn vec : Nat) : (s.sendMsix fn vec).therm = s.therm := by
  simp only [State.sendMsix]
  (repeat' split) <;> simp
@[simp] theorem State.sendMsix_pm (s : State) (fn vec : Nat) : (s.sendMsix fn vec).pm = s.pm := by
  simp only [State.sendMsix]
  (repeat' split) <;> simp
@[simp] theorem State.sendMsix_ev (s : State) (fn vec : Nat) : (s.sendMsix fn vec).ev = s.ev := by
  simp only [State.sendMsix]
  (repeat' split) <;> simp
@[simp] theorem State.sendMsix_arb (s : State) (fn vec : Nat) : (s.sendMsix fn vec).arb = s.arb := by
  simp only [State.sendMsix]
  (repeat' split) <;> simp
@[simp] theorem State.sendMsix_bm (s : State) (fn vec : Nat) : (s.sendMsix fn vec).bm = s.bm := by
  simp only [State.sendMsix]
  (repeat' split) <;> simp
@[simp] theorem State.sendMsix_vols (s : State) (fn vec : Nat) : (s.sendMsix fn vec).vols = s.vols := by
  simp only [State.sendMsix]
  (repeat' split) <;> simp
@[simp] theorem State.sendMsix_lanes (s : State) (fn vec : Nat) : (s.sendMsix fn vec).lanes = s.lanes := by
  simp only [State.sendMsix]
  (repeat' split) <;> simp
@[simp] theorem State.sendMsix_tps (s : State) (fn vec : Nat) : (s.sendMsix fn vec).tps = s.tps := by
  simp only [State.sendMsix]
  (repeat' split) <;> simp
@[simp] theorem State.sendMsix_cores (s : State) (fn vec : Nat) : (s.sendMsix fn vec).cores = s.cores := by
  simp only [State.sendMsix]
  (repeat' split) <;> simp
@[simp] theorem State.sendMsix_sachet (s : State) (fn vec : Nat) : (s.sendMsix fn vec).sachet = s.sachet := by
  simp only [State.sendMsix]
  (repeat' split) <;> simp

/-! ### raise: changes tenants, out, stats, ev, pm. An event changes the event unit, the statistics, the message of its owner and, in PS3, what is held (R335, R385). -/

@[simp] theorem State.raise_pending (s : State) (e : Nat) : (s.raise e).pending = s.pending := by
  simp only [State.raise]
  (repeat' split) <;> simp
@[simp] theorem State.raise_freeCtr (s : State) (e : Nat) : (s.raise e).freeCtr = s.freeCtr := by
  simp only [State.raise]
  (repeat' split) <;> simp
@[simp] theorem State.raise_msNow (s : State) (e : Nat) : (s.raise e).msNow = s.msNow := by
  simp only [State.raise]
  (repeat' split) <;> simp
@[simp] theorem State.raise_fuses (s : State) (e : Nat) : (s.raise e).fuses = s.fuses := by
  simp only [State.raise]
  (repeat' split) <;> simp
@[simp] theorem State.raise_pins (s : State) (e : Nat) : (s.raise e).pins = s.pins := by
  simp only [State.raise]
  (repeat' split) <;> simp
@[simp] theorem State.raise_dev (s : State) (e : Nat) : (s.raise e).dev = s.dev := by
  simp only [State.raise]
  (repeat' split) <;> simp
@[simp] theorem State.raise_image (s : State) (e : Nat) : (s.raise e).image = s.image := by
  simp only [State.raise]
  (repeat' split) <;> simp
@[simp] theorem State.raise_gpio (s : State) (e : Nat) : (s.raise e).gpio = s.gpio := by
  simp only [State.raise]
  (repeat' split) <;> simp
@[simp] theorem State.raise_therm (s : State) (e : Nat) : (s.raise e).therm = s.therm := by
  simp only [State.raise]
  (repeat' split) <;> simp
@[simp] theorem State.raise_arb (s : State) (e : Nat) : (s.raise e).arb = s.arb := by
  simp only [State.raise]
  (repeat' split) <;> simp
@[simp] theorem State.raise_bm (s : State) (e : Nat) : (s.raise e).bm = s.bm := by
  simp only [State.raise]
  (repeat' split) <;> simp
@[simp] theorem State.raise_vols (s : State) (e : Nat) : (s.raise e).vols = s.vols := by
  simp only [State.raise]
  (repeat' split) <;> simp
@[simp] theorem State.raise_lanes (s : State) (e : Nat) : (s.raise e).lanes = s.lanes := by
  simp only [State.raise]
  (repeat' split) <;> simp
@[simp] theorem State.raise_tps (s : State) (e : Nat) : (s.raise e).tps = s.tps := by
  simp only [State.raise]
  (repeat' split) <;> simp
@[simp] theorem State.raise_cores (s : State) (e : Nat) : (s.raise e).cores = s.cores := by
  simp only [State.raise]
  (repeat' split) <;> simp
@[simp] theorem State.raise_sachet (s : State) (e : Nat) : (s.raise e).sachet = s.sachet := by
  simp only [State.raise]
  (repeat' split) <;> simp

/-! ### postCqe: changes tenants, out.  -/

@[simp] theorem State.postCqe_pending (s : State) (u q : Nat) (w0 w1 : Word) : (s.postCqe u q w0 w1).pending = s.pending := by simp [State.postCqe]
@[simp] theorem State.postCqe_freeCtr (s : State) (u q : Nat) (w0 w1 : Word) : (s.postCqe u q w0 w1).freeCtr = s.freeCtr := by simp [State.postCqe]
@[simp] theorem State.postCqe_msNow (s : State) (u q : Nat) (w0 w1 : Word) : (s.postCqe u q w0 w1).msNow = s.msNow := by simp [State.postCqe]
@[simp] theorem State.postCqe_fuses (s : State) (u q : Nat) (w0 w1 : Word) : (s.postCqe u q w0 w1).fuses = s.fuses := by simp [State.postCqe]
@[simp] theorem State.postCqe_pins (s : State) (u q : Nat) (w0 w1 : Word) : (s.postCqe u q w0 w1).pins = s.pins := by simp [State.postCqe]
@[simp] theorem State.postCqe_dev (s : State) (u q : Nat) (w0 w1 : Word) : (s.postCqe u q w0 w1).dev = s.dev := by simp [State.postCqe]
@[simp] theorem State.postCqe_image (s : State) (u q : Nat) (w0 w1 : Word) : (s.postCqe u q w0 w1).image = s.image := by simp [State.postCqe]
@[simp] theorem State.postCqe_gpio (s : State) (u q : Nat) (w0 w1 : Word) : (s.postCqe u q w0 w1).gpio = s.gpio := by simp [State.postCqe]
@[simp] theorem State.postCqe_therm (s : State) (u q : Nat) (w0 w1 : Word) : (s.postCqe u q w0 w1).therm = s.therm := by simp [State.postCqe]
@[simp] theorem State.postCqe_pm (s : State) (u q : Nat) (w0 w1 : Word) : (s.postCqe u q w0 w1).pm = s.pm := by simp [State.postCqe]
@[simp] theorem State.postCqe_ev (s : State) (u q : Nat) (w0 w1 : Word) : (s.postCqe u q w0 w1).ev = s.ev := by simp [State.postCqe]
@[simp] theorem State.postCqe_stats (s : State) (u q : Nat) (w0 w1 : Word) : (s.postCqe u q w0 w1).stats = s.stats := by simp [State.postCqe]
@[simp] theorem State.postCqe_arb (s : State) (u q : Nat) (w0 w1 : Word) : (s.postCqe u q w0 w1).arb = s.arb := by simp [State.postCqe]
@[simp] theorem State.postCqe_bm (s : State) (u q : Nat) (w0 w1 : Word) : (s.postCqe u q w0 w1).bm = s.bm := by simp [State.postCqe]
@[simp] theorem State.postCqe_vols (s : State) (u q : Nat) (w0 w1 : Word) : (s.postCqe u q w0 w1).vols = s.vols := by simp [State.postCqe]
@[simp] theorem State.postCqe_lanes (s : State) (u q : Nat) (w0 w1 : Word) : (s.postCqe u q w0 w1).lanes = s.lanes := by simp [State.postCqe]
@[simp] theorem State.postCqe_tps (s : State) (u q : Nat) (w0 w1 : Word) : (s.postCqe u q w0 w1).tps = s.tps := by simp [State.postCqe]
@[simp] theorem State.postCqe_cores (s : State) (u q : Nat) (w0 w1 : Word) : (s.postCqe u q w0 w1).cores = s.cores := by simp [State.postCqe]
@[simp] theorem State.postCqe_sachet (s : State) (u q : Nat) (w0 w1 : Word) : (s.postCqe u q w0 w1).sachet = s.sachet := by simp [State.postCqe]

/-! ### signalCq: changes tenants, out, stats.  -/

@[simp] theorem State.signalCq_pending (s : State) (u q : Nat) : (s.signalCq u q).pending = s.pending := by
  simp only [State.signalCq]
  (repeat' split) <;> simp
@[simp] theorem State.signalCq_freeCtr (s : State) (u q : Nat) : (s.signalCq u q).freeCtr = s.freeCtr := by
  simp only [State.signalCq]
  (repeat' split) <;> simp
@[simp] theorem State.signalCq_msNow (s : State) (u q : Nat) : (s.signalCq u q).msNow = s.msNow := by
  simp only [State.signalCq]
  (repeat' split) <;> simp
@[simp] theorem State.signalCq_fuses (s : State) (u q : Nat) : (s.signalCq u q).fuses = s.fuses := by
  simp only [State.signalCq]
  (repeat' split) <;> simp
@[simp] theorem State.signalCq_pins (s : State) (u q : Nat) : (s.signalCq u q).pins = s.pins := by
  simp only [State.signalCq]
  (repeat' split) <;> simp
@[simp] theorem State.signalCq_dev (s : State) (u q : Nat) : (s.signalCq u q).dev = s.dev := by
  simp only [State.signalCq]
  (repeat' split) <;> simp
@[simp] theorem State.signalCq_image (s : State) (u q : Nat) : (s.signalCq u q).image = s.image := by
  simp only [State.signalCq]
  (repeat' split) <;> simp
@[simp] theorem State.signalCq_gpio (s : State) (u q : Nat) : (s.signalCq u q).gpio = s.gpio := by
  simp only [State.signalCq]
  (repeat' split) <;> simp
@[simp] theorem State.signalCq_therm (s : State) (u q : Nat) : (s.signalCq u q).therm = s.therm := by
  simp only [State.signalCq]
  (repeat' split) <;> simp
@[simp] theorem State.signalCq_pm (s : State) (u q : Nat) : (s.signalCq u q).pm = s.pm := by
  simp only [State.signalCq]
  (repeat' split) <;> simp
@[simp] theorem State.signalCq_ev (s : State) (u q : Nat) : (s.signalCq u q).ev = s.ev := by
  simp only [State.signalCq]
  (repeat' split) <;> simp
@[simp] theorem State.signalCq_arb (s : State) (u q : Nat) : (s.signalCq u q).arb = s.arb := by
  simp only [State.signalCq]
  (repeat' split) <;> simp
@[simp] theorem State.signalCq_bm (s : State) (u q : Nat) : (s.signalCq u q).bm = s.bm := by
  simp only [State.signalCq]
  (repeat' split) <;> simp
@[simp] theorem State.signalCq_vols (s : State) (u q : Nat) : (s.signalCq u q).vols = s.vols := by
  simp only [State.signalCq]
  (repeat' split) <;> simp
@[simp] theorem State.signalCq_lanes (s : State) (u q : Nat) : (s.signalCq u q).lanes = s.lanes := by
  simp only [State.signalCq]
  (repeat' split) <;> simp
@[simp] theorem State.signalCq_tps (s : State) (u q : Nat) : (s.signalCq u q).tps = s.tps := by
  simp only [State.signalCq]
  (repeat' split) <;> simp
@[simp] theorem State.signalCq_cores (s : State) (u q : Nat) : (s.signalCq u q).cores = s.cores := by
  simp only [State.signalCq]
  (repeat' split) <;> simp
@[simp] theorem State.signalCq_sachet (s : State) (u q : Nat) : (s.signalCq u q).sachet = s.sachet := by
  simp only [State.signalCq]
  (repeat' split) <;> simp

/-! ### hostWrite: changes out.  -/

@[simp] theorem State.hostWrite_pending (s : State) (c : Cmd) (data : Bytes) : (s.hostWrite c data).pending = s.pending := rfl
@[simp] theorem State.hostWrite_freeCtr (s : State) (c : Cmd) (data : Bytes) : (s.hostWrite c data).freeCtr = s.freeCtr := rfl
@[simp] theorem State.hostWrite_msNow (s : State) (c : Cmd) (data : Bytes) : (s.hostWrite c data).msNow = s.msNow := rfl
@[simp] theorem State.hostWrite_fuses (s : State) (c : Cmd) (data : Bytes) : (s.hostWrite c data).fuses = s.fuses := rfl
@[simp] theorem State.hostWrite_pins (s : State) (c : Cmd) (data : Bytes) : (s.hostWrite c data).pins = s.pins := rfl
@[simp] theorem State.hostWrite_dev (s : State) (c : Cmd) (data : Bytes) : (s.hostWrite c data).dev = s.dev := rfl
@[simp] theorem State.hostWrite_image (s : State) (c : Cmd) (data : Bytes) : (s.hostWrite c data).image = s.image := rfl
@[simp] theorem State.hostWrite_gpio (s : State) (c : Cmd) (data : Bytes) : (s.hostWrite c data).gpio = s.gpio := rfl
@[simp] theorem State.hostWrite_therm (s : State) (c : Cmd) (data : Bytes) : (s.hostWrite c data).therm = s.therm := rfl
@[simp] theorem State.hostWrite_pm (s : State) (c : Cmd) (data : Bytes) : (s.hostWrite c data).pm = s.pm := rfl
@[simp] theorem State.hostWrite_ev (s : State) (c : Cmd) (data : Bytes) : (s.hostWrite c data).ev = s.ev := rfl
@[simp] theorem State.hostWrite_stats (s : State) (c : Cmd) (data : Bytes) : (s.hostWrite c data).stats = s.stats := rfl
@[simp] theorem State.hostWrite_tenants (s : State) (c : Cmd) (data : Bytes) : (s.hostWrite c data).tenants = s.tenants := rfl
@[simp] theorem State.hostWrite_arb (s : State) (c : Cmd) (data : Bytes) : (s.hostWrite c data).arb = s.arb := rfl
@[simp] theorem State.hostWrite_bm (s : State) (c : Cmd) (data : Bytes) : (s.hostWrite c data).bm = s.bm := rfl
@[simp] theorem State.hostWrite_vols (s : State) (c : Cmd) (data : Bytes) : (s.hostWrite c data).vols = s.vols := rfl
@[simp] theorem State.hostWrite_lanes (s : State) (c : Cmd) (data : Bytes) : (s.hostWrite c data).lanes = s.lanes := rfl
@[simp] theorem State.hostWrite_tps (s : State) (c : Cmd) (data : Bytes) : (s.hostWrite c data).tps = s.tps := rfl
@[simp] theorem State.hostWrite_cores (s : State) (c : Cmd) (data : Bytes) : (s.hostWrite c data).cores = s.cores := rfl
@[simp] theorem State.hostWrite_sachet (s : State) (c : Cmd) (data : Bytes) : (s.hostWrite c data).sachet = s.sachet := rfl

/-! ### logError: changes tenants, out, stats, ev, pm. An Error Log entry changes its log, the freeze and the event it raises (R131, R137). -/

@[simp] theorem State.logError_pending (s : State) (u : Nat) (st : Status) (i : ErrInfo) : (s.logError u st i).pending = s.pending := by
  simp only [State.logError]
  (repeat' split) <;> simp
@[simp] theorem State.logError_freeCtr (s : State) (u : Nat) (st : Status) (i : ErrInfo) : (s.logError u st i).freeCtr = s.freeCtr := by
  simp only [State.logError]
  (repeat' split) <;> simp
@[simp] theorem State.logError_msNow (s : State) (u : Nat) (st : Status) (i : ErrInfo) : (s.logError u st i).msNow = s.msNow := by
  simp only [State.logError]
  (repeat' split) <;> simp
@[simp] theorem State.logError_fuses (s : State) (u : Nat) (st : Status) (i : ErrInfo) : (s.logError u st i).fuses = s.fuses := by
  simp only [State.logError]
  (repeat' split) <;> simp
@[simp] theorem State.logError_pins (s : State) (u : Nat) (st : Status) (i : ErrInfo) : (s.logError u st i).pins = s.pins := by
  simp only [State.logError]
  (repeat' split) <;> simp
@[simp] theorem State.logError_dev (s : State) (u : Nat) (st : Status) (i : ErrInfo) : (s.logError u st i).dev = s.dev := by
  simp only [State.logError]
  (repeat' split) <;> simp
@[simp] theorem State.logError_image (s : State) (u : Nat) (st : Status) (i : ErrInfo) : (s.logError u st i).image = s.image := by
  simp only [State.logError]
  (repeat' split) <;> simp
@[simp] theorem State.logError_gpio (s : State) (u : Nat) (st : Status) (i : ErrInfo) : (s.logError u st i).gpio = s.gpio := by
  simp only [State.logError]
  (repeat' split) <;> simp
@[simp] theorem State.logError_therm (s : State) (u : Nat) (st : Status) (i : ErrInfo) : (s.logError u st i).therm = s.therm := by
  simp only [State.logError]
  (repeat' split) <;> simp
@[simp] theorem State.logError_arb (s : State) (u : Nat) (st : Status) (i : ErrInfo) : (s.logError u st i).arb = s.arb := by
  simp only [State.logError]
  (repeat' split) <;> simp
@[simp] theorem State.logError_bm (s : State) (u : Nat) (st : Status) (i : ErrInfo) : (s.logError u st i).bm = s.bm := by
  simp only [State.logError]
  (repeat' split) <;> simp
@[simp] theorem State.logError_vols (s : State) (u : Nat) (st : Status) (i : ErrInfo) : (s.logError u st i).vols = s.vols := by
  simp only [State.logError]
  (repeat' split) <;> simp
@[simp] theorem State.logError_lanes (s : State) (u : Nat) (st : Status) (i : ErrInfo) : (s.logError u st i).lanes = s.lanes := by
  simp only [State.logError]
  (repeat' split) <;> simp
@[simp] theorem State.logError_tps (s : State) (u : Nat) (st : Status) (i : ErrInfo) : (s.logError u st i).tps = s.tps := by
  simp only [State.logError]
  (repeat' split) <;> simp
@[simp] theorem State.logError_cores (s : State) (u : Nat) (st : Status) (i : ErrInfo) : (s.logError u st i).cores = s.cores := by
  simp only [State.logError]
  (repeat' split) <;> simp
@[simp] theorem State.logError_sachet (s : State) (u : Nat) (st : Status) (i : ErrInfo) : (s.logError u st i).sachet = s.sachet := by
  simp only [State.logError]
  (repeat' split) <;> simp

/-! ### returnSegs: changes bm.  -/

@[simp] theorem State.returnSegs_pending (s : State) (u n : Nat) : (s.returnSegs u n).pending = s.pending := rfl
@[simp] theorem State.returnSegs_out (s : State) (u n : Nat) : (s.returnSegs u n).out = s.out := rfl
@[simp] theorem State.returnSegs_freeCtr (s : State) (u n : Nat) : (s.returnSegs u n).freeCtr = s.freeCtr := rfl
@[simp] theorem State.returnSegs_msNow (s : State) (u n : Nat) : (s.returnSegs u n).msNow = s.msNow := rfl
@[simp] theorem State.returnSegs_fuses (s : State) (u n : Nat) : (s.returnSegs u n).fuses = s.fuses := rfl
@[simp] theorem State.returnSegs_pins (s : State) (u n : Nat) : (s.returnSegs u n).pins = s.pins := rfl
@[simp] theorem State.returnSegs_dev (s : State) (u n : Nat) : (s.returnSegs u n).dev = s.dev := rfl
@[simp] theorem State.returnSegs_image (s : State) (u n : Nat) : (s.returnSegs u n).image = s.image := rfl
@[simp] theorem State.returnSegs_gpio (s : State) (u n : Nat) : (s.returnSegs u n).gpio = s.gpio := rfl
@[simp] theorem State.returnSegs_therm (s : State) (u n : Nat) : (s.returnSegs u n).therm = s.therm := rfl
@[simp] theorem State.returnSegs_pm (s : State) (u n : Nat) : (s.returnSegs u n).pm = s.pm := rfl
@[simp] theorem State.returnSegs_ev (s : State) (u n : Nat) : (s.returnSegs u n).ev = s.ev := rfl
@[simp] theorem State.returnSegs_stats (s : State) (u n : Nat) : (s.returnSegs u n).stats = s.stats := rfl
@[simp] theorem State.returnSegs_tenants (s : State) (u n : Nat) : (s.returnSegs u n).tenants = s.tenants := rfl
@[simp] theorem State.returnSegs_arb (s : State) (u n : Nat) : (s.returnSegs u n).arb = s.arb := rfl
@[simp] theorem State.returnSegs_vols (s : State) (u n : Nat) : (s.returnSegs u n).vols = s.vols := rfl
@[simp] theorem State.returnSegs_lanes (s : State) (u n : Nat) : (s.returnSegs u n).lanes = s.lanes := rfl
@[simp] theorem State.returnSegs_tps (s : State) (u n : Nat) : (s.returnSegs u n).tps = s.tps := rfl
@[simp] theorem State.returnSegs_cores (s : State) (u n : Nat) : (s.returnSegs u n).cores = s.cores := rfl
@[simp] theorem State.returnSegs_sachet (s : State) (u n : Nat) : (s.returnSegs u n).sachet = s.sachet := rfl

/-! ### ungrant: changes bm.  -/

@[simp] theorem State.ungrant_pending (s : State) (u : Nat) (g : Nat × Nat) : (s.ungrant u g).pending = s.pending := rfl
@[simp] theorem State.ungrant_out (s : State) (u : Nat) (g : Nat × Nat) : (s.ungrant u g).out = s.out := rfl
@[simp] theorem State.ungrant_freeCtr (s : State) (u : Nat) (g : Nat × Nat) : (s.ungrant u g).freeCtr = s.freeCtr := rfl
@[simp] theorem State.ungrant_msNow (s : State) (u : Nat) (g : Nat × Nat) : (s.ungrant u g).msNow = s.msNow := rfl
@[simp] theorem State.ungrant_fuses (s : State) (u : Nat) (g : Nat × Nat) : (s.ungrant u g).fuses = s.fuses := rfl
@[simp] theorem State.ungrant_pins (s : State) (u : Nat) (g : Nat × Nat) : (s.ungrant u g).pins = s.pins := rfl
@[simp] theorem State.ungrant_dev (s : State) (u : Nat) (g : Nat × Nat) : (s.ungrant u g).dev = s.dev := rfl
@[simp] theorem State.ungrant_image (s : State) (u : Nat) (g : Nat × Nat) : (s.ungrant u g).image = s.image := rfl
@[simp] theorem State.ungrant_gpio (s : State) (u : Nat) (g : Nat × Nat) : (s.ungrant u g).gpio = s.gpio := rfl
@[simp] theorem State.ungrant_therm (s : State) (u : Nat) (g : Nat × Nat) : (s.ungrant u g).therm = s.therm := rfl
@[simp] theorem State.ungrant_pm (s : State) (u : Nat) (g : Nat × Nat) : (s.ungrant u g).pm = s.pm := rfl
@[simp] theorem State.ungrant_ev (s : State) (u : Nat) (g : Nat × Nat) : (s.ungrant u g).ev = s.ev := rfl
@[simp] theorem State.ungrant_stats (s : State) (u : Nat) (g : Nat × Nat) : (s.ungrant u g).stats = s.stats := rfl
@[simp] theorem State.ungrant_tenants (s : State) (u : Nat) (g : Nat × Nat) : (s.ungrant u g).tenants = s.tenants := rfl
@[simp] theorem State.ungrant_arb (s : State) (u : Nat) (g : Nat × Nat) : (s.ungrant u g).arb = s.arb := rfl
@[simp] theorem State.ungrant_vols (s : State) (u : Nat) (g : Nat × Nat) : (s.ungrant u g).vols = s.vols := rfl
@[simp] theorem State.ungrant_lanes (s : State) (u : Nat) (g : Nat × Nat) : (s.ungrant u g).lanes = s.lanes := rfl
@[simp] theorem State.ungrant_tps (s : State) (u : Nat) (g : Nat × Nat) : (s.ungrant u g).tps = s.tps := rfl
@[simp] theorem State.ungrant_cores (s : State) (u : Nat) (g : Nat × Nat) : (s.ungrant u g).cores = s.cores := rfl
@[simp] theorem State.ungrant_sachet (s : State) (u : Nat) (g : Nat × Nat) : (s.ungrant u g).sachet = s.sachet := rfl

/-! ### giveBack: changes bm, vols.  -/

@[simp] theorem State.giveBack_pending (s : State) (u op vol len : Nat) (segs : Nat × Nat) (bound : Bool) : (s.giveBack u op vol len segs bound).pending = s.pending := by
  simp only [State.giveBack]
  (repeat' split) <;> simp
@[simp] theorem State.giveBack_out (s : State) (u op vol len : Nat) (segs : Nat × Nat) (bound : Bool) : (s.giveBack u op vol len segs bound).out = s.out := by
  simp only [State.giveBack]
  (repeat' split) <;> simp
@[simp] theorem State.giveBack_freeCtr (s : State) (u op vol len : Nat) (segs : Nat × Nat) (bound : Bool) : (s.giveBack u op vol len segs bound).freeCtr = s.freeCtr := by
  simp only [State.giveBack]
  (repeat' split) <;> simp
@[simp] theorem State.giveBack_msNow (s : State) (u op vol len : Nat) (segs : Nat × Nat) (bound : Bool) : (s.giveBack u op vol len segs bound).msNow = s.msNow := by
  simp only [State.giveBack]
  (repeat' split) <;> simp
@[simp] theorem State.giveBack_fuses (s : State) (u op vol len : Nat) (segs : Nat × Nat) (bound : Bool) : (s.giveBack u op vol len segs bound).fuses = s.fuses := by
  simp only [State.giveBack]
  (repeat' split) <;> simp
@[simp] theorem State.giveBack_pins (s : State) (u op vol len : Nat) (segs : Nat × Nat) (bound : Bool) : (s.giveBack u op vol len segs bound).pins = s.pins := by
  simp only [State.giveBack]
  (repeat' split) <;> simp
@[simp] theorem State.giveBack_dev (s : State) (u op vol len : Nat) (segs : Nat × Nat) (bound : Bool) : (s.giveBack u op vol len segs bound).dev = s.dev := by
  simp only [State.giveBack]
  (repeat' split) <;> simp
@[simp] theorem State.giveBack_image (s : State) (u op vol len : Nat) (segs : Nat × Nat) (bound : Bool) : (s.giveBack u op vol len segs bound).image = s.image := by
  simp only [State.giveBack]
  (repeat' split) <;> simp
@[simp] theorem State.giveBack_gpio (s : State) (u op vol len : Nat) (segs : Nat × Nat) (bound : Bool) : (s.giveBack u op vol len segs bound).gpio = s.gpio := by
  simp only [State.giveBack]
  (repeat' split) <;> simp
@[simp] theorem State.giveBack_therm (s : State) (u op vol len : Nat) (segs : Nat × Nat) (bound : Bool) : (s.giveBack u op vol len segs bound).therm = s.therm := by
  simp only [State.giveBack]
  (repeat' split) <;> simp
@[simp] theorem State.giveBack_pm (s : State) (u op vol len : Nat) (segs : Nat × Nat) (bound : Bool) : (s.giveBack u op vol len segs bound).pm = s.pm := by
  simp only [State.giveBack]
  (repeat' split) <;> simp
@[simp] theorem State.giveBack_ev (s : State) (u op vol len : Nat) (segs : Nat × Nat) (bound : Bool) : (s.giveBack u op vol len segs bound).ev = s.ev := by
  simp only [State.giveBack]
  (repeat' split) <;> simp
@[simp] theorem State.giveBack_stats (s : State) (u op vol len : Nat) (segs : Nat × Nat) (bound : Bool) : (s.giveBack u op vol len segs bound).stats = s.stats := by
  simp only [State.giveBack]
  (repeat' split) <;> simp
@[simp] theorem State.giveBack_tenants (s : State) (u op vol len : Nat) (segs : Nat × Nat) (bound : Bool) : (s.giveBack u op vol len segs bound).tenants = s.tenants := by
  simp only [State.giveBack]
  (repeat' split) <;> simp
@[simp] theorem State.giveBack_arb (s : State) (u op vol len : Nat) (segs : Nat × Nat) (bound : Bool) : (s.giveBack u op vol len segs bound).arb = s.arb := by
  simp only [State.giveBack]
  (repeat' split) <;> simp
@[simp] theorem State.giveBack_lanes (s : State) (u op vol len : Nat) (segs : Nat × Nat) (bound : Bool) : (s.giveBack u op vol len segs bound).lanes = s.lanes := by
  simp only [State.giveBack]
  (repeat' split) <;> simp
@[simp] theorem State.giveBack_tps (s : State) (u op vol len : Nat) (segs : Nat × Nat) (bound : Bool) : (s.giveBack u op vol len segs bound).tps = s.tps := by
  simp only [State.giveBack]
  (repeat' split) <;> simp
@[simp] theorem State.giveBack_cores (s : State) (u op vol len : Nat) (segs : Nat × Nat) (bound : Bool) : (s.giveBack u op vol len segs bound).cores = s.cores := by
  simp only [State.giveBack]
  (repeat' split) <;> simp
@[simp] theorem State.giveBack_sachet (s : State) (u op vol len : Nat) (segs : Nat × Nat) (bound : Bool) : (s.giveBack u op vol len segs bound).sachet = s.sachet := by
  simp only [State.giveBack]
  (repeat' split) <;> simp

/-! ### dropCmd: changes bm, vols, arb.  -/

@[simp] theorem State.dropCmd_pending (s : State) (id : Nat) : (s.dropCmd id).pending = s.pending := by
  simp only [State.dropCmd]
  (repeat' split) <;> simp
@[simp] theorem State.dropCmd_out (s : State) (id : Nat) : (s.dropCmd id).out = s.out := by
  simp only [State.dropCmd]
  (repeat' split) <;> simp
@[simp] theorem State.dropCmd_freeCtr (s : State) (id : Nat) : (s.dropCmd id).freeCtr = s.freeCtr := by
  simp only [State.dropCmd]
  (repeat' split) <;> simp
@[simp] theorem State.dropCmd_msNow (s : State) (id : Nat) : (s.dropCmd id).msNow = s.msNow := by
  simp only [State.dropCmd]
  (repeat' split) <;> simp
@[simp] theorem State.dropCmd_fuses (s : State) (id : Nat) : (s.dropCmd id).fuses = s.fuses := by
  simp only [State.dropCmd]
  (repeat' split) <;> simp
@[simp] theorem State.dropCmd_pins (s : State) (id : Nat) : (s.dropCmd id).pins = s.pins := by
  simp only [State.dropCmd]
  (repeat' split) <;> simp
@[simp] theorem State.dropCmd_dev (s : State) (id : Nat) : (s.dropCmd id).dev = s.dev := by
  simp only [State.dropCmd]
  (repeat' split) <;> simp
@[simp] theorem State.dropCmd_image (s : State) (id : Nat) : (s.dropCmd id).image = s.image := by
  simp only [State.dropCmd]
  (repeat' split) <;> simp
@[simp] theorem State.dropCmd_gpio (s : State) (id : Nat) : (s.dropCmd id).gpio = s.gpio := by
  simp only [State.dropCmd]
  (repeat' split) <;> simp
@[simp] theorem State.dropCmd_therm (s : State) (id : Nat) : (s.dropCmd id).therm = s.therm := by
  simp only [State.dropCmd]
  (repeat' split) <;> simp
@[simp] theorem State.dropCmd_pm (s : State) (id : Nat) : (s.dropCmd id).pm = s.pm := by
  simp only [State.dropCmd]
  (repeat' split) <;> simp
@[simp] theorem State.dropCmd_ev (s : State) (id : Nat) : (s.dropCmd id).ev = s.ev := by
  simp only [State.dropCmd]
  (repeat' split) <;> simp
@[simp] theorem State.dropCmd_stats (s : State) (id : Nat) : (s.dropCmd id).stats = s.stats := by
  simp only [State.dropCmd]
  (repeat' split) <;> simp
@[simp] theorem State.dropCmd_tenants (s : State) (id : Nat) : (s.dropCmd id).tenants = s.tenants := by
  simp only [State.dropCmd]
  (repeat' split) <;> simp
@[simp] theorem State.dropCmd_lanes (s : State) (id : Nat) : (s.dropCmd id).lanes = s.lanes := by
  simp only [State.dropCmd]
  (repeat' split) <;> simp
@[simp] theorem State.dropCmd_tps (s : State) (id : Nat) : (s.dropCmd id).tps = s.tps := by
  simp only [State.dropCmd]
  (repeat' split) <;> simp
@[simp] theorem State.dropCmd_cores (s : State) (id : Nat) : (s.dropCmd id).cores = s.cores := by
  simp only [State.dropCmd]
  (repeat' split) <;> simp
@[simp] theorem State.dropCmd_sachet (s : State) (id : Nat) : (s.dropCmd id).sachet = s.sachet := by
  simp only [State.dropCmd]
  (repeat' split) <;> simp

/-! ### tryRdy, rdyDown: change tenants. A tenant comes into service or goes out of it (R80, R81). -/

@[simp] theorem State.tryRdy_pending (s : State) (u : Nat) : (s.tryRdy u).pending = s.pending := by
  simp only [State.tryRdy]
  (repeat' split) <;> simp
@[simp] theorem State.tryRdy_out (s : State) (u : Nat) : (s.tryRdy u).out = s.out := by
  simp only [State.tryRdy]
  (repeat' split) <;> simp
@[simp] theorem State.tryRdy_freeCtr (s : State) (u : Nat) : (s.tryRdy u).freeCtr = s.freeCtr := by
  simp only [State.tryRdy]
  (repeat' split) <;> simp
@[simp] theorem State.tryRdy_msNow (s : State) (u : Nat) : (s.tryRdy u).msNow = s.msNow := by
  simp only [State.tryRdy]
  (repeat' split) <;> simp
@[simp] theorem State.tryRdy_fuses (s : State) (u : Nat) : (s.tryRdy u).fuses = s.fuses := by
  simp only [State.tryRdy]
  (repeat' split) <;> simp
@[simp] theorem State.tryRdy_pins (s : State) (u : Nat) : (s.tryRdy u).pins = s.pins := by
  simp only [State.tryRdy]
  (repeat' split) <;> simp
@[simp] theorem State.tryRdy_dev (s : State) (u : Nat) : (s.tryRdy u).dev = s.dev := by
  simp only [State.tryRdy]
  (repeat' split) <;> simp
@[simp] theorem State.tryRdy_image (s : State) (u : Nat) : (s.tryRdy u).image = s.image := by
  simp only [State.tryRdy]
  (repeat' split) <;> simp
@[simp] theorem State.tryRdy_gpio (s : State) (u : Nat) : (s.tryRdy u).gpio = s.gpio := by
  simp only [State.tryRdy]
  (repeat' split) <;> simp
@[simp] theorem State.tryRdy_therm (s : State) (u : Nat) : (s.tryRdy u).therm = s.therm := by
  simp only [State.tryRdy]
  (repeat' split) <;> simp
@[simp] theorem State.tryRdy_pm (s : State) (u : Nat) : (s.tryRdy u).pm = s.pm := by
  simp only [State.tryRdy]
  (repeat' split) <;> simp
@[simp] theorem State.tryRdy_ev (s : State) (u : Nat) : (s.tryRdy u).ev = s.ev := by
  simp only [State.tryRdy]
  (repeat' split) <;> simp
@[simp] theorem State.tryRdy_stats (s : State) (u : Nat) : (s.tryRdy u).stats = s.stats := by
  simp only [State.tryRdy]
  (repeat' split) <;> simp
@[simp] theorem State.tryRdy_arb (s : State) (u : Nat) : (s.tryRdy u).arb = s.arb := by
  simp only [State.tryRdy]
  (repeat' split) <;> simp
@[simp] theorem State.tryRdy_bm (s : State) (u : Nat) : (s.tryRdy u).bm = s.bm := by
  simp only [State.tryRdy]
  (repeat' split) <;> simp
@[simp] theorem State.tryRdy_vols (s : State) (u : Nat) : (s.tryRdy u).vols = s.vols := by
  simp only [State.tryRdy]
  (repeat' split) <;> simp
@[simp] theorem State.tryRdy_lanes (s : State) (u : Nat) : (s.tryRdy u).lanes = s.lanes := by
  simp only [State.tryRdy]
  (repeat' split) <;> simp
@[simp] theorem State.tryRdy_tps (s : State) (u : Nat) : (s.tryRdy u).tps = s.tps := by
  simp only [State.tryRdy]
  (repeat' split) <;> simp
@[simp] theorem State.tryRdy_cores (s : State) (u : Nat) : (s.tryRdy u).cores = s.cores := by
  simp only [State.tryRdy]
  (repeat' split) <;> simp
@[simp] theorem State.tryRdy_sachet (s : State) (u : Nat) : (s.tryRdy u).sachet = s.sachet := by
  simp only [State.tryRdy]
  (repeat' split) <;> simp
@[simp] theorem State.rdyDown_pending (s : State) (u : Nat) : (s.rdyDown u).pending = s.pending := by
  simp only [State.rdyDown]
  (repeat' split) <;> simp
@[simp] theorem State.rdyDown_out (s : State) (u : Nat) : (s.rdyDown u).out = s.out := by
  simp only [State.rdyDown]
  (repeat' split) <;> simp
@[simp] theorem State.rdyDown_freeCtr (s : State) (u : Nat) : (s.rdyDown u).freeCtr = s.freeCtr := by
  simp only [State.rdyDown]
  (repeat' split) <;> simp
@[simp] theorem State.rdyDown_msNow (s : State) (u : Nat) : (s.rdyDown u).msNow = s.msNow := by
  simp only [State.rdyDown]
  (repeat' split) <;> simp
@[simp] theorem State.rdyDown_fuses (s : State) (u : Nat) : (s.rdyDown u).fuses = s.fuses := by
  simp only [State.rdyDown]
  (repeat' split) <;> simp
@[simp] theorem State.rdyDown_pins (s : State) (u : Nat) : (s.rdyDown u).pins = s.pins := by
  simp only [State.rdyDown]
  (repeat' split) <;> simp
@[simp] theorem State.rdyDown_dev (s : State) (u : Nat) : (s.rdyDown u).dev = s.dev := by
  simp only [State.rdyDown]
  (repeat' split) <;> simp
@[simp] theorem State.rdyDown_image (s : State) (u : Nat) : (s.rdyDown u).image = s.image := by
  simp only [State.rdyDown]
  (repeat' split) <;> simp
@[simp] theorem State.rdyDown_gpio (s : State) (u : Nat) : (s.rdyDown u).gpio = s.gpio := by
  simp only [State.rdyDown]
  (repeat' split) <;> simp
@[simp] theorem State.rdyDown_therm (s : State) (u : Nat) : (s.rdyDown u).therm = s.therm := by
  simp only [State.rdyDown]
  (repeat' split) <;> simp
@[simp] theorem State.rdyDown_pm (s : State) (u : Nat) : (s.rdyDown u).pm = s.pm := by
  simp only [State.rdyDown]
  (repeat' split) <;> simp
@[simp] theorem State.rdyDown_ev (s : State) (u : Nat) : (s.rdyDown u).ev = s.ev := by
  simp only [State.rdyDown]
  (repeat' split) <;> simp
@[simp] theorem State.rdyDown_stats (s : State) (u : Nat) : (s.rdyDown u).stats = s.stats := by
  simp only [State.rdyDown]
  (repeat' split) <;> simp
@[simp] theorem State.rdyDown_arb (s : State) (u : Nat) : (s.rdyDown u).arb = s.arb := by
  simp only [State.rdyDown]
  (repeat' split) <;> simp
@[simp] theorem State.rdyDown_bm (s : State) (u : Nat) : (s.rdyDown u).bm = s.bm := by
  simp only [State.rdyDown]
  (repeat' split) <;> simp
@[simp] theorem State.rdyDown_vols (s : State) (u : Nat) : (s.rdyDown u).vols = s.vols := by
  simp only [State.rdyDown]
  (repeat' split) <;> simp
@[simp] theorem State.rdyDown_lanes (s : State) (u : Nat) : (s.rdyDown u).lanes = s.lanes := by
  simp only [State.rdyDown]
  (repeat' split) <;> simp
@[simp] theorem State.rdyDown_tps (s : State) (u : Nat) : (s.rdyDown u).tps = s.tps := by
  simp only [State.rdyDown]
  (repeat' split) <;> simp
@[simp] theorem State.rdyDown_cores (s : State) (u : Nat) : (s.rdyDown u).cores = s.cores := by
  simp only [State.rdyDown]
  (repeat' split) <;> simp
@[simp] theorem State.rdyDown_sachet (s : State) (u : Nat) : (s.rdyDown u).sachet = s.sachet := by
  simp only [State.rdyDown]
  (repeat' split) <;> simp

/-! ### complete: changes tenants, out, stats, ev, pm, bm, vols, arb. A completion changes the queues, logs and outputs, the event unit, and what the command held of the buffer; nothing of the tape side (R128). -/

@[simp] theorem State.complete_pending (s : State) (c : Cmd) (st : Status) (r : Reply) : (s.complete c st r).pending = s.pending := by
  simp only [State.complete]
  (repeat' split) <;> simp
@[simp] theorem State.complete_freeCtr (s : State) (c : Cmd) (st : Status) (r : Reply) : (s.complete c st r).freeCtr = s.freeCtr := by
  simp only [State.complete]
  (repeat' split) <;> simp
@[simp] theorem State.complete_msNow (s : State) (c : Cmd) (st : Status) (r : Reply) : (s.complete c st r).msNow = s.msNow := by
  simp only [State.complete]
  (repeat' split) <;> simp
@[simp] theorem State.complete_fuses (s : State) (c : Cmd) (st : Status) (r : Reply) : (s.complete c st r).fuses = s.fuses := by
  simp only [State.complete]
  (repeat' split) <;> simp
@[simp] theorem State.complete_pins (s : State) (c : Cmd) (st : Status) (r : Reply) : (s.complete c st r).pins = s.pins := by
  simp only [State.complete]
  (repeat' split) <;> simp
@[simp] theorem State.complete_dev (s : State) (c : Cmd) (st : Status) (r : Reply) : (s.complete c st r).dev = s.dev := by
  simp only [State.complete]
  (repeat' split) <;> simp
@[simp] theorem State.complete_image (s : State) (c : Cmd) (st : Status) (r : Reply) : (s.complete c st r).image = s.image := by
  simp only [State.complete]
  (repeat' split) <;> simp
@[simp] theorem State.complete_gpio (s : State) (c : Cmd) (st : Status) (r : Reply) : (s.complete c st r).gpio = s.gpio := by
  simp only [State.complete]
  (repeat' split) <;> simp
@[simp] theorem State.complete_therm (s : State) (c : Cmd) (st : Status) (r : Reply) : (s.complete c st r).therm = s.therm := by
  simp only [State.complete]
  (repeat' split) <;> simp
@[simp] theorem State.complete_lanes (s : State) (c : Cmd) (st : Status) (r : Reply) : (s.complete c st r).lanes = s.lanes := by
  simp only [State.complete]
  (repeat' split) <;> simp
@[simp] theorem State.complete_tps (s : State) (c : Cmd) (st : Status) (r : Reply) : (s.complete c st r).tps = s.tps := by
  simp only [State.complete]
  (repeat' split) <;> simp
@[simp] theorem State.complete_cores (s : State) (c : Cmd) (st : Status) (r : Reply) : (s.complete c st r).cores = s.cores := by
  simp only [State.complete]
  (repeat' split) <;> simp
@[simp] theorem State.complete_sachet (s : State) (c : Cmd) (st : Status) (r : Reply) : (s.complete c st r).sachet = s.sachet := by
  simp only [State.complete]
  (repeat' split) <;> simp

/-! ### setStage: changes arb.  -/

@[simp] theorem State.setStage_pending (s : State) (id : Nat) (st : CmdStage) : (s.setStage id st).pending = s.pending := rfl
@[simp] theorem State.setStage_out (s : State) (id : Nat) (st : CmdStage) : (s.setStage id st).out = s.out := rfl
@[simp] theorem State.setStage_freeCtr (s : State) (id : Nat) (st : CmdStage) : (s.setStage id st).freeCtr = s.freeCtr := rfl
@[simp] theorem State.setStage_msNow (s : State) (id : Nat) (st : CmdStage) : (s.setStage id st).msNow = s.msNow := rfl
@[simp] theorem State.setStage_fuses (s : State) (id : Nat) (st : CmdStage) : (s.setStage id st).fuses = s.fuses := rfl
@[simp] theorem State.setStage_pins (s : State) (id : Nat) (st : CmdStage) : (s.setStage id st).pins = s.pins := rfl
@[simp] theorem State.setStage_dev (s : State) (id : Nat) (st : CmdStage) : (s.setStage id st).dev = s.dev := rfl
@[simp] theorem State.setStage_image (s : State) (id : Nat) (st : CmdStage) : (s.setStage id st).image = s.image := rfl
@[simp] theorem State.setStage_gpio (s : State) (id : Nat) (st : CmdStage) : (s.setStage id st).gpio = s.gpio := rfl
@[simp] theorem State.setStage_therm (s : State) (id : Nat) (st : CmdStage) : (s.setStage id st).therm = s.therm := rfl
@[simp] theorem State.setStage_pm (s : State) (id : Nat) (st : CmdStage) : (s.setStage id st).pm = s.pm := rfl
@[simp] theorem State.setStage_ev (s : State) (id : Nat) (st : CmdStage) : (s.setStage id st).ev = s.ev := rfl
@[simp] theorem State.setStage_stats (s : State) (id : Nat) (st : CmdStage) : (s.setStage id st).stats = s.stats := rfl
@[simp] theorem State.setStage_tenants (s : State) (id : Nat) (st : CmdStage) : (s.setStage id st).tenants = s.tenants := rfl
@[simp] theorem State.setStage_bm (s : State) (id : Nat) (st : CmdStage) : (s.setStage id st).bm = s.bm := rfl
@[simp] theorem State.setStage_vols (s : State) (id : Nat) (st : CmdStage) : (s.setStage id st).vols = s.vols := rfl
@[simp] theorem State.setStage_lanes (s : State) (id : Nat) (st : CmdStage) : (s.setStage id st).lanes = s.lanes := rfl
@[simp] theorem State.setStage_tps (s : State) (id : Nat) (st : CmdStage) : (s.setStage id st).tps = s.tps := rfl
@[simp] theorem State.setStage_cores (s : State) (id : Nat) (st : CmdStage) : (s.setStage id st).cores = s.cores := rfl
@[simp] theorem State.setStage_sachet (s : State) (id : Nat) (st : CmdStage) : (s.setStage id st).sachet = s.sachet := rfl

end Sys2Proof.Machine
end

