-- ==== Sys2Proof/WellFormed.lean ====
section
/-! DEFINITION. Well-formed commands: every operand names a unit the part has and a field lies in its range. The table
gives the rows no bits, so this is what stands in place of an encoding's bounds. -/

namespace Sys2Proof

/-- Tenants T0 to T15 (R74), queue pairs 0 to 255 (Table 05-2), transports and lanes 0 to 7, control cores and GPIO pins 0 to 3,
loop slots 0 to 7, volume handles (R108: a handle is 16 bits). -/
def tenantOk (u : Nat) : Bool := decide (u < 16)
def queueOk (q : Nat) : Bool := decide (q < 256)
def transportOk (t : Nat) : Bool := decide (t < 8)
def laneOk (n : Nat) : Bool := decide (n < 8)
def coreOk (c : Nat) : Bool := decide (c < 4)
def pinOk (p : Nat) : Bool := decide (p < 4)
def slotOk (k : Nat) : Bool := decide (k < 8)
def handleOk (v : Nat) : Bool := decide (v < 65536)

/-- A monitored clock is a device clock or the clock of one of the eight lanes. -/
def Clk.wf : Clk → Bool
  | .lane n => laneOk n
  | _ => true

/-- A self-test is of the codec, the sealing engine or one of the four cores. -/
def SelfTest.wf : SelfTest → Bool
  | .core c => coreOk c
  | _ => true

/-- An express slot stands in a period, and a frame's header words stand in their structure: no bound beyond the type. A
register write carries 4 to 64 bytes at one of functions 0 to 15 in BAR0 or BAR2 (R374, R375). -/
def RegWrite.wf (w : RegWrite) : Bool :=
  tenantOk w.fn && (w.bar == 0 || w.bar == 2) && decide (0 < w.bytes.length) && decide (w.bytes.length ≤ 64)

/-- A row report names a physical track of 32 and a row of its dataset. -/
def RowReport.wf (r : RowReport) : Bool :=
  decide (r.track < 32) && (match r.kind with
    | .data _ sub row => decide (sub < 32) && decide (row < 104)
    | .probe => true
    | .directory _ sub row => decide (sub < 32) && decide (row < 104))

/-- Discarded words stand in the FIFOs of Table 03-2 (R36). -/
def discardsOk (ds : Discards) : Bool := ds.all fun d => (decide (1 ≤ d.1) && decide (d.1 ≤ 8)) || (decide (11 ≤ d.1) && decide (d.1 ≤ 14))

/-- Every operand within the range the spec gives it. -/
def Instr.wf : Instr → Bool
  | .supplyMonitorReset _ _ _ => true
  | .porNAssert | .porNRelease _ | .perstNRise => true
  | .perstNFall p => decide (p.upTo ≤ 4) && discardsOk p.disc
  | .powerFail p => decide (p.upTo ≤ 4)
  | .ctlCoreWarmReset c _ => coreOk c
  | .configRequest fn _ => tenantOk fn
  | .crystalStop _ | .imageLoadComplete _ | .earlyBlockLoaded _ | .sachetMounted _ | .bufferInitDone _ => true
  | .clockLoss clk => clk.wf
  | .dieTempMeasure sensors rails => decide (sensors.length = 4) && decide (rails.length = 7)
  | .gpioInputChange p _ _ | .tamper p => pinOk p
  | .unitSelfTestDone u _ => u.wf
  | .tqCfgEnable u | .tqCfgDisable u | .tqEvtClr u _ => tenantOk u
  | .sqTailDoorbell u q _ es => tenantOk u && queueOk q && decide (es.length < 65536)
  | .cqHeadDoorbell u q _ | .ringAccessError u q _ | .hostDataError u q _ _ | .cqAggTimer u q => tenantOk u && queueOk q
  | .arbitrationDecision a => a.ring.all fun r => tenantOk r.1 && queueOk r.2.1
  | .allocatorDecision => true
  | .identify u _ | .createQueuePair u | .deleteQueuePair u | .setQueueClass u | .getLog u _ | .setFeatures u
  | .getFeatures u | .restartQueues u | .createVolume u | .deleteVolume u | .setVolumeHold u | .loadKey u _
  | .clearKey u => tenantOk u
  | .tcQuery | .tcLoad _ | .tcUnload _ | .tcPark | .tcRelax | .tcOutOfService | .tcReturnToService
  | .tcEmergencyStop | .tcDiscardPending | .tcReplacedMechanism | .lsQuery | .lsQuarantine | .lsQuarantineHeld
  | .lsRelease | .csQuery | .csTakeOut | .csReturn | .csResetAdaptation | .imageActivate _
  | .setPowerPolicy => true
  | .lsReset => true
  | .tcReset x => discardsOk x.disc
  | .imageWrite x => decide (x.cut.getD 0 ≤ 4096)
  | .loadStepTimeout t | .scanComplete t | .latchRelease t | .excursionStart t | .excursionEnd t | .burstStart t
  | .burstStop t | .datasetClose t | .intervalStart t | .turnaround t | .relaxTimer t | .unloadTimer t _
  | .cartridgeInserted t _ | .cartridgeRemoved t | .powerStageFault t | .autonomousStop t | .servoTimeout t
  | .wclkSend t | .solRestate t | .pullinEnd t | .servoHoldTimeout t | .servoAcquireFail t | .targetReached t _
  | .stopComplete t | .envelopeExit t | .sensorlessStopLimit t => transportOk t
  | .writeRecords u q _ | .readRecords u q _ | .locate u q | .writeMark u q | .flush u q | .readPosition u q _
  | .verifyRange u q => tenantOk u && queueOk q
  | .vfFlr u x => tenantOk u && decide (0 < u) && x.held.all fun h => queueOk h.1
  | .pfFlr x => x.held.all fun h => tenantOk h.1 && queueOk h.2.1
  | .evStsClear i _ => decide (i < 8)
  | .pmCtlWake | .scRingRel _ | .smbReadTemperature | .smbReadPowerState | .smbReadReady | .smbNack _ _
  | .pressureEvaluation | .bufferScrub _ | .directoryCommit | .crashSnapshot | .lifeCheckpoint | .epochBoundary _
  | .snapshotReady | .ps1Entry | .ps2Entry | .ps3Entry | .powerStateExit _ | .powerStateExitDone
  | .supplyMonitorRelease | .bufferUncorrectable _ => true
  | .coefCommit t k _ | .slotRelease t k | .slotJob t k | .deadlineMiss t k | .staleDetect t k _ =>
    transportOk t && slotOk k
  | .registerWrite w => w.wf
  | .blockCutTimer v | .compressDone v _ _ | .sealDone v _ | .gapEntryTimer v _ | .gapEntryPlace v => handleOk v
  | .rowStatus t r => transportOk t && r.wf
  | .trainingTimeout n | .trainingRetry n | .trainWord n _ | .ident n _ _ _ _ | .laneUp n
  | .linkQuarantineRx n _ | .rejoinStart n | .linkAck n _ | .proposeTimeout n | .sampleFrame n _
  | .controlFrame n _ _ | .managementResponse n _ | .servoWord n _ | .tachWord n _ | .senseWord n _ | .statusWord n _
  | .laneResetTimeout n => laneOk n
  | .uncorrectableCodeword n x => laneOk n && discardsOk x.disc
  | .slotLockLoss x => laneOk x.lane && discardsOk x.disc
  | .resendRequest t _ | .sampleFrameLost t _ => transportOk t
  | .managementTimeout t tag => transportOk t && decide (tag < 65536)
  | .brakeFault t b => transportOk t && decide (b < 2)

end Sys2Proof
end

