-- ==== Sys2Proof/Tests/Slice0.lean ====
section
/-! SUPPORT. Tests: commands that are not well formed are refused by the check; published vectors of the ciphers and CRCs; worked values of the
spec; and, for each statement of Certificates/Slice0/Obligations.lean, states and operands that meet the hypotheses of its clauses. -/

set_option Elab.async false

namespace Sys2Proof.Tests

open Sys2Proof.Machine

/-! ### Ill-formed commands: each check of WellFormed.lean refuses one -/

theorem test_wf_tenant : (Instr.tqCfgEnable 16).wf = false ∧ (Instr.tqCfgEnable 15).wf = true := by decide
theorem test_wf_queue : (Instr.cqAggTimer 0 256).wf = false ∧ (Instr.cqAggTimer 0 255).wf = true := by decide
theorem test_wf_transport : (Instr.turnaround 8).wf = false ∧ (Instr.turnaround 7).wf = true := by decide
theorem test_wf_lane : (Instr.laneUp 8).wf = false ∧ (Instr.laneUp 7).wf = true := by decide
theorem test_wf_core : (Instr.ctlCoreWarmReset 4 false).wf = false ∧ (Instr.ctlCoreWarmReset 3 false).wf = true := by decide
theorem test_wf_pin : (Instr.tamper 4).wf = false ∧ (Instr.tamper 3).wf = true := by decide
theorem test_wf_slot : (Instr.slotJob 0 8).wf = false ∧ (Instr.slotJob 0 7).wf = true := by decide
theorem test_wf_handle : (Instr.blockCutTimer 65536).wf = false ∧ (Instr.blockCutTimer 65535).wf = true := by decide
theorem test_wf_clock : (Instr.clockLoss (.lane 8)).wf = false ∧ (Instr.clockLoss (.lane 7)).wf = true := by decide
theorem test_wf_self_test : (Instr.unitSelfTestDone (.core 4) true).wf = false ∧ (Instr.unitSelfTestDone (.core 3) true).wf = true := by decide
theorem test_wf_sensors : (Instr.dieTempMeasure [0, 0, 0] (List.replicate 7 0)).wf = false ∧
    (Instr.dieTempMeasure [0, 0, 0, 0] (List.replicate 6 0)).wf = false := by decide
theorem test_wf_entries : (Instr.sqTailDoorbell 0 0 0 (List.replicate 65536 default)).wf = false := by
  decide +kernel
theorem test_wf_flr : (Instr.vfFlr 0 ⟨[], none⟩).wf = false ∧ (Instr.vfFlr 1 ⟨[(256, ⟨[], []⟩)], none⟩).wf = false ∧
    (Instr.pfFlr ⟨[(16, 0, ⟨[], []⟩)], none⟩).wf = false ∧ (Instr.pfFlr ⟨[(0, 256, ⟨[], []⟩)], none⟩).wf = false := by decide
theorem test_wf_quiesce : (Instr.perstNFall ⟨200, 0, 5, []⟩).wf = false ∧ (Instr.powerFail ⟨200, 5⟩).wf = false ∧ (Instr.powerFail ⟨200, 4⟩).wf = true ∧
    (Instr.perstNFall ⟨200, 0, 4, [(9, 1)]⟩).wf = false ∧ (Instr.perstNFall ⟨200, 0, 4, [(14, 1)]⟩).wf = true := by decide
theorem test_wf_ring_bytes : (Instr.arbitrationDecision ⟨false, [(16, 1, 40)]⟩).wf = false ∧ (Instr.arbitrationDecision ⟨false, [(0, 256, 40)]⟩).wf = false := by
  decide
theorem test_wf_event_word : (Instr.evStsClear 8 0).wf = false ∧ (Instr.evStsClear 7 0).wf = true := by decide
theorem test_wf_register_write : (Instr.registerWrite ⟨16, 0, 0, [(0, true)]⟩).wf = false ∧ (Instr.registerWrite ⟨0, 1, 0, [(0, true)]⟩).wf = false ∧
    (Instr.registerWrite ⟨0, 0, 0, []⟩).wf = false ∧ (Instr.registerWrite ⟨0, 0, 0, List.replicate 65 (0, true)⟩).wf = false := by decide
theorem test_wf_row : (Instr.rowStatus 0 ⟨0, 32, .probe, default, 0⟩).wf = false ∧
    (Instr.rowStatus 0 ⟨0, 31, .data 1 32 0, default, 0⟩).wf = false ∧ (Instr.rowStatus 0 ⟨0, 31, .data 1 31 104, default, 0⟩).wf = false ∧
    (Instr.rowStatus 0 ⟨0, 31, .directory 0 32 0, default, 0⟩).wf = false ∧
    (Instr.rowStatus 0 ⟨0, 31, .directory 0 31 104, default, 0⟩).wf = false := by decide
theorem test_wf_tag : (Instr.managementTimeout 0 65536).wf = false ∧ (Instr.managementTimeout 0 65535).wf = true := by decide
theorem test_wf_brake : (Instr.brakeFault 0 2).wf = false ∧ (Instr.brakeFault 0 1).wf = true := by decide

/-! ### Published vectors: CRC-32C and CRC-8 of the digits 1 to 9, SHA-256 and SHA-384 of "abc", AES-256 of FIPS 197 -/

theorem test_crc32c : crc32c [0x31, 0x32, 0x33, 0x34, 0x35, 0x36, 0x37, 0x38, 0x39] = 0xE3069283 := by decide +kernel
theorem test_crc8 : crc8 [0x31, 0x32, 0x33, 0x34, 0x35, 0x36, 0x37, 0x38, 0x39] = 0xF4 := by decide +kernel
theorem test_sha256 : sha256 [0x61, 0x62, 0x63] = beBytes 32 0xBA7816BF8F01CFEA414140DE5DAE2223B00361A396177A9CB410FF61F20015AD := by
  decide +kernel
theorem test_sha384 : sha384 [0x61, 0x62, 0x63] =
    beBytes 48 0xCB00753F45A35E8BB5A03D699AC65007272C32AB0EDED1631A8B605A43FF5BED8086072BA1E7CC2358BAECA134C825A7 := by decide +kernel
theorem test_aes256 : aesBlock (aesRoundKeys ((List.range 32).map fun k => BitVec.ofNat 8 k)) ((List.range 16).map fun k => BitVec.ofNat 8 (k * 17)) =
    beBytes 16 0x8EA2B7CA516745BFEAFC49904B496089 := by decide +kernel

/-! ### Worked values of the spec -/

/-- 09 Worked example, Table 09-7: the door record's body recovers its 56 bytes. -/
theorem test_worked_oaldo : oaldo 56 47 0
    [0x04, 0x18, 0, 0, 0, 1, 0x40, 3, 7, 0x6F, 0x5E, 0x4D, 0x3C, 0x2B, 0x1A, 6, 0, 0x68, 0, 1, 0x15, 9, 0x58, 7, 0x0C, 0x44, 0x4F, 0x4F,
      0x52, 0x20, 0x31, 0x20, 0x4F, 0x50, 0x45, 0x4E, 0x3B, 0x20, 0x60, 0x0C, 3, 0x53, 0x48, 0x55, 0x54, 0xFF] [] =
    .ok (wordsBytes [0x0000000100000018, 0x00061A2B3C4D5E6F, 0, 0x0000000000000915] ++
      [0x44, 0x4F, 0x4F, 0x52, 0x20, 0x31, 0x20, 0x4F, 0x50, 0x45, 0x4E, 0x3B, 0x20, 0x44, 0x4F, 0x4F, 0x52, 0x20, 0x31, 0x20, 0x53, 0x48, 0x55,
        0x54]) := by decide +kernel
/-- 10 Worked example: row 40 of sub-dataset 5 under 31 tracks stands at position 41 on track 25; an interval has 242,368 bits. -/
theorem test_worked_row : rowPlace 31 5 40 = (41, 24) ∧ (activeTracks 0xFFFFFDFF).getD 24 0 = 25 ∧ positions 31 = 108 ∧
    intervalBits 108 0 = 242368 := by decide +kernel
/-- 10 Worked example: the first 17 channel bits after the sync of the rewritten row. -/
theorem test_worked_channel_bits : (modulate 0 (scramble (seedOf 0) (bitsOf [0x10, 0x05, 0x28]))).take 17 = msbBits 17 0b10111100111001001 := by
  decide +kernel
/-- 10 Worked example: GPOS 12 and 13 at 0x01 give 0x04 in both parity datasets. -/
theorem test_worked_c3 : c3Parity [0, 0, 0, 0, 0, 0, 0, 0, 0, 0, 0, 0, 1, 1] = [4, 4] := by decide +kernel
/-- 10 Worked example, R256: with GPOS 12 and 13 erased, the other twelve symbols and the two parities 0x04 give both back. -/
theorem test_worked_c3_rebuild :
    ((c3Rebuild (List.replicate 12 (some 0) ++ [none, none, some 4, some 4])).drop 12).take 2 = [1, 1] := by decide +kernel
/-- R195: six wrong symbols of a codeword (here that of zeros) are corrected. -/
theorem test_c1_corrects :
    c1Decode (([(0, 1), (40, 2), (41, 3), (100, 255), (231, 7), (243, 128)] : List (Nat × Byte)).foldl (fun l x => l.set x.1 x.2) (List.replicate 244 0)) =
      some 6 := by decide +kernel
/-- 12 Worked example: TP_CHQ of channel 9. -/
theorem test_worked_chq : ({ fail4 := 109, rows4 := 416, snr := 92, state := .out, probeRun := 0, syncMiss := 65, takeouts := 1 } : Chan).chq =
    0x0010041015C6806D := by decide +kernel
/-- 13 Worked example: the first nine bytes of the PROPOSE word. -/
theorem test_worked_propose : (leBytes 12 (xword 6 0xB (mkw [(0, 2), (4, 1), (8, 0xE4E1C40)])).toNat).take 9 =
    [0xB6, 0x12, 0x40, 0x1C, 0x4E, 0x0E, 0, 0, 0] := by decide +kernel
/-- 14 Worked example: one reel job drives 0x0B90. -/
theorem test_worked_reel_job :
    outQ15 true (loopJob { w0 := 2, integ := 0x0A000000 * 2 ^ 17, active := [0, 0x140000000] ++ List.replicate 40 0 ++
      [0x464000000, 0, 0, 0, 0x7FFFFFFF, 0, 0, 0x80000000, 0x7FFFFFFF] } 0x08000000 0x08200000 0).out = 0x0B90 := by decide +kernel

/-! ### A small image that loads: no lane, one tenant -/

/-- A section with its check word. -/
def sec (ty crc : Nat) (ws : List Word) : Bytes :=
  wordsBytes (mkw [(0, ty), (24, 1), (32, 8 * ws.length)] :: ws) ++ leBytes 4 crc ++ leBytes 4 0
/-- Header, early block (x1 at speed 1, no virtual function), MEM, TEN 0 and LANE. -/
def imgHead : Bytes := [0x54, 0x4C, 0x59, 0x49, 0x4D, 0x41, 0x47, 0x45] ++
  wordsBytes [mkw [(0, 1), (32, 0x10D8)], mkw [(0, 1), (32, 0x1040)], 3, 0, 0, 0, mkw [(32, 583852202)]]
def imgBlock : Bytes := wordsBytes (mkw [(40, 1), (44, 1)] :: List.replicate 510 0)
def imgEarly : Bytes := imgBlock ++ leBytes 8 726214897
def imgSecs : Bytes := sec 1 120797949 [mkw [(0, 2), (2, 1), (6, 1)], 0, 0xFAC688FAC688, 0xFAC688FAC688] ++
  sec 2 2680604275 [mkw [(0, 1), (16, 16), (32, 256), (48, 64)], mkw [(0, 1024), (16, 4)]] ++ sec 3 3988036378 [0, 0x0505050505050505]
def imgPre : Bytes := imgHead ++ imgEarly ++ imgSecs
def imgMagic : Bytes := [0x54, 0x4C, 0x59, 0x54, 0x52, 0x41, 0x49, 0x4C]
def img : Bytes := imgPre ++ (imgMagic ++ sha256 imgPre)

/-- A hash state keeps its eight words. -/
theorem shaByte_length (p : ShaRot) (ks : List (BitVec 32)) (m : Nat) (x : List (BitVec 32) × Bytes × List (BitVec 32)) (b : Byte)
    (h : x.1.length = 8) : (shaByte p ks m x b).1.length = 8 := by
  obtain ⟨h0, bs, ws⟩ := x
  have round : ∀ (l : List (BitVec 32)) (y : List (BitVec 32) × List (BitVec 32)), y.1.length = 8 → (l.foldl (shaRound p) y).1.length = 8 := by
    intro l
    induction l with
    | nil => exact fun y hy => hy
    | cons k l ih =>
      intro y hy
      refine ih _ ?_
      unfold shaRound
      split <;> simp_all
  simp only [shaByte]
  split
  · exact h
  · split
    · exact h
    · simp only [shaBlock, List.length_zipWith]
      rw [round _ (h0, _) h]
      simp only at h
      rw [h]
      rfl

theorem sha256_length (bs : Bytes) : (sha256 bs).length = 32 := by
  have fold : ∀ (l : Bytes) (x : List (BitVec 32) × Bytes × List (BitVec 32)), x.1.length = 8 →
      (l.foldl (shaByte sha256Rot sha256K 4) x).1.length = 8 := by
    intro l
    induction l with
    | nil => exact fun x h => h
    | cons b l ih => exact fun x h => ih _ (shaByte_length _ _ _ _ _ h)
  have h8 := fold (bs ++ shaPad 64 8 bs.length) (sha256Init, [], []) rfl
  unfold sha256
  generalize ((bs ++ shaPad 64 8 bs.length).foldl (shaByte sha256Rot sha256K 4) (sha256Init, [], [])).1 = l at h8
  have : ∀ l : List (BitVec 32), (l.flatMap fun w => beBytes 4 w.toNat).length = 4 * l.length := by
    intro l
    induction l with
    | nil => rfl
    | cons a l ih =>
      rw [List.flatMap_cons, List.length_append, ih, List.length_cons]
      simp only [beBytes, leBytes, List.length_reverse, List.length_cons, List.length_nil]
      omega
  rw [this, h8]

theorem wordsBytes_length (ws : List Word) : (wordsBytes ws).length = 8 * ws.length := by
  induction ws with
  | nil => rfl
  | cons w r ih =>
    have : (wordBytes w).length = 8 := rfl
    rw [wordsBytes, List.flatMap_cons, List.length_append, this, List.length_cons]
    rw [wordsBytes] at ih
    omega
theorem slice_prefix (a b : Bytes) (off len : Nat) (h : off + len ≤ a.length) : slice (a ++ b) off len = slice a off len := by
  unfold slice
  rw [List.drop_append_of_le_length (by omega), List.take_append_of_le_length (by rw [List.length_drop]; omega)]
theorem slice_whole (a : Bytes) (n : Nat) (h : a.length = n) : slice a 0 n = a := by
  unfold slice
  rw [List.drop_zero, List.take_of_length_le (by omega)]
  simp [h]
theorem slice_after (a b : Bytes) (off len : Nat) (h : a.length = off) : slice (a ++ b) off len = slice b 0 len := by
  unfold slice
  rw [List.drop_left' h, List.drop_zero]

theorem imgHead_length : imgHead.length = 0x40 := by decide +kernel
theorem imgSecs_length : imgSecs.length = 0x70 := by decide +kernel
theorem imgBlock_length : imgBlock.length = 0xFF8 := by rw [imgBlock, wordsBytes_length, List.length_cons, List.length_replicate]
theorem imgEarly_length : imgEarly.length = 0x1000 := by
  rw [imgEarly, List.length_append, imgBlock_length]
  decide
theorem imgPre_length : imgPre.length = 0x10B0 := by
  rw [imgPre, List.length_append, List.length_append, imgHead_length, imgEarly_length, imgSecs_length]
theorem img_length : img.length = 0x10D8 := by
  have h : imgMagic.length = 8 := by decide
  unfold img
  rw [List.length_append, imgPre_length, List.length_append, sha256_length, h]

theorem img_header : chkHeader false imgHead = .ok ⟨false, 0x10D8, 1, 3⟩ := by decide +kernel
/-- The running CRC over the zeros of the early block, after every fortieth of them. -/
def crcMarks : List Nat := [2788467329, 1242928830, 2524280353, 2441228616, 2324173491, 2026065588, 863202834, 3485940472, 207435089, 3320477882] ++
  [1895852396, 1272869699, 141380814, 1617855715, 1813761468, 1220311293, 141877437, 2090144069, 1268601416, 3365464118] ++
  [1784397794, 4270181501, 3335834082, 186126040, 2549811736, 511121580, 1941815885, 2979276687, 3952284132, 3821542955] ++
  [3533092884, 1160771706, 1498928810, 3764336547, 2179677373, 1147064827, 3462567835, 1008422952, 2289004533, 546051823] ++
  [2493757301, 145166650, 1118258892, 3669926471, 2704364942, 3268169802, 3805169954, 2025251234, 1491775845, 3330512524] ++
  [3664355014, 3283560177, 2077532415, 897097244, 472499244, 621808035, 832801365, 4090191288, 901406655, 4231056659] ++
  [592808015, 454471654, 3606461022, 4089568107, 1592172048, 846464027, 2335945967, 1178701072, 2604056683, 789706282] ++
  [2314843528, 2413321637, 805409855, 1877637393, 2469916951, 2243875253, 132140544, 3138602952, 3391669838, 158858356] ++
  [2007184305, 3703802844, 1890270324, 3793798341, 3098912239, 3323998473, 1075547578, 176635838, 1177821680, 3941505784] ++
  [2803723833, 3417729424, 3127580300, 700658110, 2954723980, 3597860171, 297023792, 846095534, 3195971912, 2476618490] ++
  [2871964973, 2717665483, 3568752398]
def crcByte (c : Nat) (b : Byte) : Nat := crcRefl 8 0x82F63B78 (c ^^^ b.toNat)
theorem crcMarks_step : ∀ k, k < 102 → (List.replicate 40 (0 : Byte)).foldl crcByte (crcMarks.getD k 0) = crcMarks.getD (k + 1) 0 := by
  decide +kernel
theorem crcMarks_all (k : Nat) (h : k ≤ 102) : (List.replicate (40 * k) (0 : Byte)).foldl crcByte (crcMarks.getD 0 0) = crcMarks.getD k 0 := by
  induction k with
  | zero => rfl
  | succ k ih =>
    rw [Nat.mul_succ, List.replicate_add, List.foldl_append, ih (by omega), crcMarks_step k (by omega)]
theorem zeros_bytes (n : Nat) : wordsBytes (List.replicate n 0) = List.replicate (8 * n) 0 := by
  induction n with
  | zero => rfl
  | succ n ih =>
    have : wordBytes 0 = List.replicate 8 0 := by decide
    rw [wordsBytes] at ih ⊢
    rw [List.replicate_succ, List.flatMap_cons, ih, this, ← List.replicate_add]
    congr 1
    omega
theorem crc32c_fold (bs : Bytes) : crc32c bs = bs.foldl crcByte 0xFFFFFFFF ^^^ 0xFFFFFFFF := rfl
theorem imgBlock_crc : crc32c imgBlock = 726214897 := by
  have e : (wordBytes (mkw [(40, 1), (44, 1)])).foldl crcByte 0xFFFFFFFF = crcMarks.getD 0 0 := by decide +kernel
  have split : imgBlock = wordBytes (mkw [(40, 1), (44, 1)]) ++ List.replicate (40 * 102) 0 := by
    have z := zeros_bytes 510
    have e510 : 8 * 510 = 40 * 102 := by decide
    rw [wordsBytes, e510] at z
    rw [imgBlock, wordsBytes, List.flatMap_cons, z]
  have last : crcMarks.getD 102 0 ^^^ 0xFFFFFFFF = 726214897 := by decide +kernel
  rw [crc32c_fold, split, List.foldl_append, e, crcMarks_all 102 (by decide), last]
theorem img_early : ∃ e, chkEarly imgEarly = .ok e ∧ e.totalVfs = 0 := by
  have e1 : slice imgEarly 0 0xFF8 = imgBlock := by
    rw [imgEarly, slice_prefix _ _ _ _ (by rw [imgBlock_length]), slice_whole _ _ imgBlock_length]
  have e2 : slice imgEarly 0xFF8 4 = leBytes 4 726214897 := by
    rw [imgEarly, slice_after _ _ _ _ imgBlock_length]
    decide
  have e3 : wordAt imgEarly 0 = mkw [(40, 1), (44, 1)] := by decide +kernel
  have e4 : leNat (leBytes 4 726214897) = 726214897 := by decide
  unfold chkEarly
  rw [e1, e2, e3, imgBlock_crc, e4]
  exact ⟨_, rfl, by decide⟩
theorem img_sections : (match chkSections 0 0x10B0 none 3 0x1040 0 Settings.initial (imgSecs ++ (imgMagic ++ sha256 imgPre)) with
    | .ok (pos, key, g) => pos == 0x10B0 && !((requiredSecs 0 g).any fun r => decide (key < r)) && crossOk g
    | .error _ => false) = true := by decide +kernel

/-- What a copy that holds the image reads as. -/
def imgRead (n : Nat) : Bytes := img.take n ++ List.replicate (n - img.length) 0xFF

theorem imgRead_header : imgRead 0x40 = imgHead := by
  rw [imgRead, img_length, img, imgPre, List.append_assoc, List.append_assoc, List.take_left' imgHead_length]
  simp
theorem imgRead_all : imgRead 0x10D8 = img := by
  have h : img.length ≤ 0x10D8 := by rw [img_length]
  rw [imgRead, List.take_of_length_le h, img_length]
  simp
theorem img_early_slice : slice img 0x40 0x1000 = imgEarly := by
  rw [img, imgPre, List.append_assoc, List.append_assoc, slice_after _ _ _ _ imgHead_length,
    slice_prefix _ _ _ _ (by rw [imgEarly_length]), slice_whole _ _ imgEarly_length]

theorem img_tail : (imgMagic ++ sha256 imgPre).length = 40 := by
  have h : imgMagic.length = 8 := by decide
  rw [List.length_append, sha256_length, h]
theorem img_e2 : img.drop 0x1040 = imgSecs ++ (imgMagic ++ sha256 imgPre) := by
  rw [img, imgPre, List.append_assoc, List.drop_left' (by rw [List.length_append, imgHead_length, imgEarly_length])]
theorem img_e3 : slice img 4272 40 = imgMagic ++ sha256 imgPre := by
  rw [img, slice_after _ _ _ _ imgPre_length, slice_whole _ _ img_tail]
theorem img_e4 : slice img 0 4272 = imgPre := by
  rw [img, slice_prefix _ _ _ _ (by rw [imgPre_length]), slice_whole _ _ imgPre_length]
theorem img_e5 : slice (imgMagic ++ sha256 imgPre) 8 32 = sha256 imgPre := by
  rw [slice_after _ _ _ _ (by rfl), slice_whole _ _ (sha256_length _)]
theorem img_e6 : slice (imgMagic ++ sha256 imgPre) 0 8 = imgMagic := by
  rw [slice_prefix _ _ _ _ (by decide), slice_whole _ _ (by rfl)]

/-- The image passes every check of a copy, with or without its own early block in force. -/
theorem img_loads (force : Option Bytes) (hf : force = none ∨ force = some imgEarly) : ∃ x, chkCopy none force none imgRead = .ok x := by
  obtain ⟨a, he, ha⟩ := img_early
  have hs := img_sections
  unfold chkCopy
  simp only [Option.isSome_none, imgRead_header, img_header, imgRead_all, img_early_slice, he, ha, img_e2, Bool.false_eq_true, if_false]
  cases hq : chkSections 0 0x10B0 none 3 0x1040 0 Settings.initial (imgSecs ++ (imgMagic ++ sha256 imgPre)) with
  | error b => rw [hq] at hs; simp at hs
  | ok b =>
    obtain ⟨pos, key, g⟩ := b
    rw [hq] at hs
    simp only [Bool.and_eq_true, beq_iff_eq, Bool.not_eq_true'] at hs
    rcases hf with rfl | rfl <;> simp [hs.1.1, hs.1.2, hs.2, img_e3, img_e4, img_e5, img_e6] <;> exact ⟨_, if_pos rfl⟩

/-! ### Small states -/

/-- Eight lanes, lanes 2 and 3 paired; the default memory; tenant 0; PS1 to PS3 allowed with no idle time. -/
def cfg8 : Settings :=
  { lanes := 0xFF, paired := 0x2, memCh := 2, memPkg := 1, ten := [(0, {})], pwr0 := 7, pwr1 := mkw [(0, 1), (16, 1)], trn := [(0, {})] }
/-- Out of reset with the image loaded and every unit ready. -/
def up : State :=
  { State.reset with
    pins := { porN := true, perstN := true }
    dev := { ready := 0xFFFFFFF }
    image := { earlyFrom := some false, loaded := true, img := cfg8, cfg := cfg8 } }
/-- Out of reset with nothing loaded, and an NVM. -/
def bare (nvm : List Host.Cell) : State := { State.reset with pins := { porN := true, perstN := true }, image := { nvm := nvm } }
/-- The same while the full load runs, copy A's early block in force. -/
def half (nvm : List Host.Cell) : State :=
  { bare nvm with image := { nvm := nvm, earlyFrom := some false, earlyBytes := imgEarly } }

theorem bare_copyA : (bare (nvmCells 0 img)).copyBytes false = imgRead := funext fun n => nvmBytes_nvmCells 0 n img
theorem bare_copyB : (bare (nvmCells 0x1000000 img)).copyBytes true = imgRead := funext fun n => nvmBytes_nvmCells 0x1000000 n img
theorem imgRead_early : slice (imgRead 0x1040) 0x40 0x1000 = imgEarly := by
  have h : 0x1040 ≤ imgPre.length := by rw [imgPre_length]; decide
  have e : imgRead 0x1040 = imgHead ++ imgEarly := by
    have l : (imgHead ++ imgEarly).length = 0x1040 := by rw [List.length_append, imgHead_length, imgEarly_length]
    rw [imgRead, img_length, img, imgPre, List.append_assoc, List.take_left' l]
    simp
  rw [e, slice_after _ _ _ _ imgHead_length, slice_whole _ _ imgEarly_length]
/-- A copy that holds the image has a header and an early block. -/
theorem early_loads (s : State) (b : Bool) (hk : s.fuses.keyHash = none) (h : s.copyBytes b = imgRead) : ∃ x, s.earlyOf [] b = .ok x := by
  obtain ⟨e, he, -⟩ := img_early
  unfold State.earlyOf
  simp only [failAt, List.find?_nil, Option.map_none, hk, Option.isSome_none, h, imgRead_header, img_header, imgRead_early, he, Bool.false_eq_true,
    if_false]
  exact ⟨_, rfl⟩

/-- A submission entry: opcode, volume, length, data type and W4 to W7; its CID is 7. -/
def ent (op vol len dtype : Nat) (w4 : Word := 0) (w5 : Word := 0) (w6 : Word := 0) (w7 : Word := 0) : SubEntry :=
  ⟨mkw [(0, op), (16, 7), (32, vol)], 0, 0, mkw [(0, len), (32, dtype)], w4, w5, w6, w7⟩
/-- A fetched command of tenant 0's queue `q`. -/
def cmd (q : Nat) (e : SubEntry) : Cmd :=
  { id := 5, u := 0, q := q, entry := e, sqhd := 1, level := 0, urgent := false, cls := .medium, segs := (0, 0), bound := false, stage := .fetched,
    seqAt := 0, data := ⟨[], []⟩ }
/-- A state with one fetched command. -/
def withCmd (s : State) (c : Cmd) : State := { s with arb := { cmds := [c] } }
/-- Tenant 0 in service with queue pair `q`. -/
def pair (q : Nat) (p : QueuePair) : State := { up with tenants := [(0, { cfgEn := true, rdy := true, func := true, qps := [(q, p)] })] }
/-- A volume of tenant 0 on transport 0. -/
def vol0 : Volume :=
  { uuid := 1, tenant := 0, transport := 0, vidx := 0, encrypt := false, strict := false, hold := false, retention := 0, nextSeq := 3, acked := 2,
    verified := 0 }
def withVol (s : State) (w : Volume) : State := { s with vols := [(1, w)] }
/-- Transport 0 in a state of motion; with other parts. -/
def withMot (s : State) (m : Motion) : State := { s with tps := [(0, { mot := m })] }
def withTp (s : State) (x : Transport) : State := { s with tps := [(0, x)] }
def withLane (s : State) (l : Lane) : State := { s with lanes := [(0, l)] }

/-! ### Witnesses: for each statement with hypotheses, a state and operands that meet those of each clause -/

/-- The state a step answers. -/
def after (s : State) : State :=
  match step s with
  | .next t => t
  | _ => s

theorem test_hyp_StepRunsFrontCommand : State.reset.pending = [] := by decide +kernel
theorem test_hyp_NvmFormKept : Memory.wf State.reset.image.nvm ∧ step State.reset = .next State.reset := ⟨by decide, rfl⟩
/-- An Image Write in front of the queue, on a part that is up. -/
def writesImage : State := { withCmd up (cmd 0 (ent 0x28 0 65536 1)) with pending := [.imageWrite ⟨⟨[], []⟩, none⟩] }
theorem test_hyp_NvmChangesOnlyByImageWrite : writesImage.pending = [.imageWrite ⟨⟨[], []⟩, none⟩] ∧ step writesImage = .next (after writesImage) ∧
    (after writesImage).image.nvm.head? = some (0, 0) ∧ writesImage.image.nvm = [] := ⟨by decide +kernel, rfl, by decide +kernel, by decide +kernel⟩
/-- POR_N falls on a part with a fatal cause. -/
def fatalThenPor : State := { up with dev := { fatal := 8 }, pending := [.porNAssert] }
theorem test_hyp_FatalBitsStandUntilReset : fatalThenPor.pending = [.porNAssert] ∧ step fatalThenPor = .next (after fatalThenPor) ∧
    fatalThenPor.dev.fatal.getLsbD 3 = true ∧ (after fatalThenPor).dev.fatal.getLsbD 3 = false := ⟨by decide +kernel, rfl, by decide +kernel, by decide +kernel⟩

theorem test_hyp_ColdResetsAndReleaseLeaveTheirState :
    (((Rail.vddio = Rail.vddio ∧ 1619 < 1620) ∧ 2 ≤ 2) ∧ ((Rail.vddc = Rail.vddc ∧ 699 < 700) ∧ 2 ≤ 2) ∧ ((Rail.vddm = Rail.vddm ∧ 739 < 740) ∧ 2 ≤ 2)) ∧
    ((Rail.vddio = Rail.vddio ∧ 1620 ≤ 1620) ∧ (Rail.vddc = Rail.vddc ∧ 700 ≤ 700) ∧ (Rail.vddm = Rail.vddm ∧ 740 ≤ 740) ∧ 1 < 2) ∧
    State.reset.pins.porN = false ∧ up.pins.porN = true ∧ State.reset.pins.monitorReset = false ∧
    (let s : State := { up with pins := { porN := true, monitorReset := true } }; s.pins.porN = true ∧ s.pins.monitorReset = true) := by decide +kernel
/-- A part in PS3. -/
def inPs3 : State := { up with pm := { state := 3 } }
/-- A part in the quiesce of PERST_N, cut short after step 2, PERST_N low. -/
def cutShort : State := { up with pins := { porN := true, perstN := false }, dev := { quiesced := 4, qstep := 2 } }
theorem test_hyp_PerstFallQuiescesAndResets :
    (State.reset.pins.perstN = false ∧ State.reset.dev.quiesced ≠ 4) ∧ (inPs3.pins.perstN = true ∧ inPs3.pm.state = 3) ∧
    (let s : State := { State.reset with pins := { perstN := true } }; s.pins.perstN = true ∧ s.on = false) ∧ (up.pins.perstN = true ∧ 199 < 200) ∧
    (up.pins.perstN = true ∧ up.on = true ∧ 200 ≤ 200 ∧ up.dev.quiesced = 0 ∧ (up.quiesceTo 4 2).dev.qstep = 2 ∧ (up.quiesceTo 4 4).dev.qstep = 4) ∧
    (cutShort.pins.perstN = false ∧ cutShort.dev.quiesced = 4 ∧ cutShort.dev.qstep < 4 ∧ cutShort.on = true ∧
      (cutShort.quiesceTo 4 3).dev.qstep = 3 ∧ (cutShort.quiesceTo 4 4).dev.qstep = 4) ∧
    (let s : State := { up with dev := { quiesced := 3, qstep := 4 } }; s.pins.perstN = true ∧ s.on = true ∧ s.dev.quiesced = 3 ∧
      (s.quiesceTo 3 4).dev.qstep = 4) := by decide +kernel
/-- A part with core 0 held in its warm reset; loaded or not. -/
def held (loaded : Bool) : State := { up with dev := { ctlPending := 1 }, image := { up.image with loaded := loaded } }
theorem test_hyp_PerstRiseAndHeldCores : up.pins.perstN = true ∧ (State.reset.pins.perstN = false ∧ State.reset.on = false) ∧
    (let s : State := { bare [] with pins := { porN := true } }; s.pins.perstN = false ∧ s.earlyDone = false) ∧
    (let s : State := { up with pins := { porN := true } }; s.pins.perstN = false ∧ s.on = true ∧ s.earlyDone = true ∧ (s.tn 15).inFlr = false) ∧
    (4 ≤ 4 ∧ up.dev.ctlPending.getLsbD 3 = false) ∧
    (let s := withMot (held true) { state := .stopping, x := 5, vel := 100 }; (s.coreAtRest 0 = false)) ∧
    (∀ b, 0 < 4 ∧ (held b).dev.ctlPending.getLsbD 0 = true ∧ (held b).coreAtRest 0 = true ∧ (held b).image.loaded = b) ∧
    ((held true).tpExists 0 = true ∧ coreOf 1 = 0) := by decide +kernel
theorem test_hyp_QuiesceAndFatalSetTheirState : up.dev.quiesced = 0 ∧ up.pm.state ≠ 3 ∧ 7 < 8 ∧ (4 ≠ 0 ∧ 0 ≤ 4 ∧ 4 ≤ 4) ∧ (let s : State := { up with dev := { quiesced := 3 } }; s.dev.quiesced ≠ 0) := by
  decide +kernel

theorem test_hyp_EarlyBlockAndImageLoad_at_once : (1 ≤ 1 ∧ 15 < 16) ∧ State.reset.on = false ∧ up.earlyDone = true ∧ up.loading = false ∧ (bare []).image.earlyFrom = none ∧
    (let s : State := { bare [] with pins := { porN := true, straps := 1 } }; s.on = true ∧ s.earlyDone = false ∧ s.pins.straps.getLsbD 0 = true) ∧
    ((bare []).on = true ∧ (bare []).earlyDone = false ∧ (bare []).pins.straps.getLsbD 0 = false) ∧
    (match (bare []).earlyOf [] false, (bare []).earlyOf [] true with | .error a, .error b => a.1 = 1 ∧ b.1 = 1 | _, _ => False) := by
  refine ⟨by decide +kernel, by decide +kernel, by decide +kernel, by decide +kernel, by decide +kernel, by decide +kernel, by decide +kernel, ?_⟩
  have ha : (bare []).earlyOf [] false = .error (1, 0) := by decide +kernel
  have hb : (bare []).earlyOf [] true = .error (1, 0) := by decide +kernel
  rw [ha, hb]
  exact ⟨rfl, rfl⟩
theorem test_hyp_EarlyBlockAndImageLoad_copyA : (bare (nvmCells 0 img)).on = true ∧ (bare (nvmCells 0 img)).earlyDone = false ∧
    (bare (nvmCells 0 img)).pins.straps.getLsbD 0 = false ∧ ∃ x, (bare (nvmCells 0 img)).earlyOf [] false = .ok x :=
  ⟨by decide +kernel, by decide +kernel, by decide +kernel, early_loads _ _ rfl bare_copyA⟩
theorem test_hyp_EarlyBlockAndImageLoad_copyB : (bare (nvmCells 0x1000000 img)).on = true ∧ (bare (nvmCells 0x1000000 img)).earlyDone = false ∧
    (bare (nvmCells 0x1000000 img)).pins.straps.getLsbD 0 = false ∧ (bare (nvmCells 0x1000000 img)).earlyOf [] false = .error (1, 0) ∧
    ∃ x, (bare (nvmCells 0x1000000 img)).earlyOf [] true = .ok x :=
  ⟨by decide +kernel, by decide +kernel, by decide +kernel, by decide +kernel, early_loads _ _ rfl bare_copyB⟩
theorem test_hyp_EarlyBlockAndImageLoad_loadA : let s := half (nvmCells 0 img)
    s.on = true ∧ s.image.earlyFrom ≠ none ∧ s.loading = true ∧
      ∃ x, chkCopy s.fuses.keyHash (some s.image.earlyBytes) (failAt [] false) (s.copyBytes false) = .ok x := by
  refine ⟨by decide +kernel, by decide +kernel, by decide +kernel, ?_⟩
  have h : (half (nvmCells 0 img)).copyBytes false = imgRead := bare_copyA
  rw [h]
  exact img_loads _ (.inr rfl)
theorem test_hyp_EarlyBlockAndImageLoad_loadB : let s := half (nvmCells 0x1000000 img)
    s.on = true ∧ s.image.earlyFrom ≠ none ∧ s.loading = true ∧
      (match chkCopy s.fuses.keyHash (some s.image.earlyBytes) (failAt [] false) (s.copyBytes false) with | .error a => a.1 = 1 | .ok _ => False) ∧
      ∃ x, chkCopy s.fuses.keyHash (some s.image.earlyBytes) (failAt [] true) (s.copyBytes true) = .ok x := by
  refine ⟨by decide +kernel, by decide +kernel, by decide +kernel, ?_, ?_⟩
  · have e : chkHeader false ((half (nvmCells 0x1000000 img)).copyBytes false 0x40) = .error (1, 0) := by decide +kernel
    have k : (half (nvmCells 0x1000000 img)).fuses.keyHash = none := rfl
    unfold chkCopy
    simp [k, e, failAt]
  · have h : (half (nvmCells 0x1000000 img)).copyBytes true = imgRead := bare_copyB
    rw [h]
    exact img_loads _ (.inr rfl)
/-- Copy B's early block in force, copy A's failure recorded: copy A stays failed, and copy B loads. -/
theorem test_hyp_EarlyBlockAndImageLoad_loadFailedA : let s := { half (nvmCells 0x1000000 img) with
      image := { (half (nvmCells 0x1000000 img)).image with earlyFrom := some true, aCode := 1 } }
    s.on = true ∧ s.image.earlyFrom = some true ∧ s.loading = true ∧
      ∃ x, chkCopy s.fuses.keyHash (some s.image.earlyBytes) (failAt [] true) (s.copyBytes true) = .ok x := by
  refine ⟨by decide +kernel, by decide +kernel, by decide +kernel, ?_⟩
  have h : State.copyBytes { half (nvmCells 0x1000000 img) with
      image := { (half (nvmCells 0x1000000 img)).image with earlyFrom := some true, aCode := 1 } } true = imgRead := bare_copyB
  rw [h]
  exact img_loads _ (.inr rfl)
theorem test_hyp_EarlyBlockAndImageLoad_loadNone : let s := half []
    s.on = true ∧ s.image.earlyFrom ≠ none ∧ s.loading = true ∧ ∀ b,
      (match chkCopy s.fuses.keyHash (some s.image.earlyBytes) (failAt [] b) (s.copyBytes b) with | .error a => a.1 = 1 | .ok _ => False) := by
  refine ⟨by decide +kernel, by decide +kernel, by decide +kernel, fun b => ?_⟩
  have e : chkHeader false ((half []).copyBytes b 0x40) = .error (1, 0) := by cases b <;> decide +kernel
  have k : (half []).fuses.keyHash = none := rfl
  unfold chkCopy
  simp [k, e, failAt]

/-- A part that is up but for some readiness bits. -/
def lacks (mask : BitVec 28) : State := { up with dev := { ready := 0xFFFFFFF &&& ~~~mask } }
def bit28 (b : Nat) : BitVec 28 := 1#28 <<< b
/-- A crash record of one volume, under a REASON; out of reset, image not loaded. -/
def crashed (reason : Nat) : State :=
  { bare [] with sachet := { slotA := { snapSeq := 4, lossId := 2, reason := reason, jstart := 0, vols := [{ (default : CrashVol) with uuid := 9 }] } } }
/-- A mount that finds everything whole. -/
def whole : MountFinding := ⟨[], [], [], [], []⟩
theorem test_hyp_SachetBufferAndUnitsComeUp_sachet : State.reset.on = false ∧ up.ready rdSACHET = true ∧
    (let s : State := { bare [] with dev := { fatal := 4 } }; s.dev.fatal.getLsbD 2 = true) ∧
    ((bare []).on = true ∧ (bare []).ready rdSACHET = false ∧ (bare []).dev.fatal.getLsbD 2 = false ∧ ({ whole with bad := [.dir] } : MountFinding).bad ≠ [] ∧ whole.bad = []) ∧
    ((bare []).image.loaded = false ∧ ((bare []).sachet.mount whole).current.snapSeq = 0) ∧
    (∀ r ∈ [3, 4, 5], (crashed r).on = true ∧ (crashed r).ready rdSACHET = false ∧ (crashed r).dev.fatal.getLsbD 2 = false ∧
      (crashed r).image.loaded = false ∧ ((crashed r).sachet.mount whole).current.snapSeq ≠ 0 ∧ ((crashed r).sachet.mount whole).current.reason = r ∧
      ((crashed r).sachet.mount whole).recovered ≠ []) ∧
    ((crashed 0).on = true ∧ (crashed 0).ready rdSACHET = false ∧ (crashed 0).image.loaded = false ∧ ((crashed 0).sachet.mount whole).current.snapSeq ≠ 0 ∧
      ((crashed 0).sachet.mount whole).current.reason ≠ 3 ∧ ((crashed 0).sachet.mount whole).current.reason ≠ 4 ∧ ((crashed 0).sachet.mount whole).current.reason ≠ 5 ∧
      ((crashed 0).sachet.mount whole).recovered ≠ []) := by decide +kernel
theorem test_hyp_SachetBufferAndUnitsComeUp_units : (bare []).image.loaded = false ∧ up.ready rdBUFFER = true ∧
    (let s : State := { up with dev := { quiesced := 3 } }; s.dev.quiesced ≠ 0) ∧ (let s : State := { up with dev := { fatal := 2 } }; s.dev.fatal.getLsbD 1 = true) ∧
    ((lacks (bit28 rdBUFFER)).image.loaded = true ∧ (lacks (bit28 rdBUFFER)).ready rdBUFFER = false ∧ (lacks (bit28 rdBUFFER)).dev.quiesced = 0 ∧
      (lacks (bit28 rdBUFFER)).dev.fatal.getLsbD 1 = false) ∧
    (3 < 4 ∧ up.dev.ctlPending.getLsbD 3 = false ∧ up.servedCores.getLsbD 3 = true ∧ up.dev.fatal.getLsbD 11 = false) ∧
    (¬ (4 < 4)) ∧ (SelfTest.core 3 = .core 3 ∧ up.dev.fatal.getLsbD (8 + 3) = false ∧ up.dev.fatal.getLsbD 3 = false) ∧ (held true).dev.ctlPending.getLsbD 0 = true := by decide +kernel

/-- A part in power state `k`, perhaps exiting. -/
def inPs (k : Nat) (exiting : Bool := false) : State := { up with pm := { state := k, exiting := exiting } }
/-- A die temperature on every sensor, and what stood before. -/
def hot (limit shut : Bool) : State := { up with therm := { limit := limit, shut := shut } }
theorem test_hyp_MonitorsActOnTheirLimits : State.reset.on = false ∧ (up.on = true ∧ 200 ≤ 200 ∧ up.dev.quiesced = 0 ∧ 4 ≤ 4) ∧ 199 < 200 ∧
    (let s : State := { up with dev := { quiesced := 3, qstep := 1 } }; s.on = true ∧ s.dev.quiesced = 3 ∧ s.dev.qstep < 4) ∧
    (let s : State := { up with dev := { quiesced := 5, qstep := 4 } }; s.dev.quiesced ≠ 0 ∧ s.dev.quiesced ≠ 3) ∧
    (up.lanePresent 7 = true ∧ up.lanePresent 8 = false) ∧ (up.on = true ∧ 9 < 10 ∧ 10 ≤ 10) ∧ (inPs 3).on = true ∧
    ((800#16).toInt = 800 ∧ (760#16).toInt = 760 ∧ (880#16).toInt = 880 ∧ ([0, 800, 799, 0x8000] : List (BitVec 16)).foldl maxTemp 0x8000 = 800) ∧
    ((hot false false).therm.shut = false ∧ (decide (880 ≤ (880#16).toInt) || (false && decide (800 ≤ (880#16).toInt))) = true) ∧
    ((hot true true).therm.shut = true ∧ (decide (880 ≤ (799#16).toInt) || (true && decide (800 ≤ (799#16).toInt))) = false) ∧
    ((decide (880 ≤ (879#16).toInt) || ((hot false false).therm.shut && decide (800 ≤ (879#16).toInt))) = (hot false false).therm.shut) := by
  decide +kernel

/-- Pin 0 a Tamper input (active low), with levels and a debounce. -/
def tamperIn (level : BitVec 4) (d : GpioPin) (loaded : Bool) (ps : Nat) (wake : BitVec 4) : State :=
  { inPs ps with gpio := { rwl := 1, inForce := 1, level := level, debounce := [(0, d)], wake := wake }, image := { up.image with loaded := loaded } }
theorem test_hyp_GpioTamperAndSmbus : State.reset.on = false ∧ 4 ≤ 4 ∧ (up.on = true ∧ 3 < 4 ∧ up.gpio.func 3 ≠ 1) ∧
    ((tamperIn 0xF {} true 0 0).gpio.level.getLsbD 0 = true) ∧
    (∀ l, (tamperIn 0xF {} true 0 0).on = true ∧ (tamperIn 0xF {} true 0 0).gpio.func 0 = 1 ∧
      (let s := tamperIn (if l then 0xE else 0xF) {} true 0 0
       s.gpio.level.getLsbD 0 ≠ l ∧ ({ s.gpio with level := setBit s.gpio.level 0 l } : Gpio).asserted 0 = l)) ∧
    (¬ ((tamperIn 0xE {} true 0 0).gpio.func 0 = 1 ∧ (Tab.get ({} : GpioPin) (tamperIn 0xE {} true 0 0).gpio.debounce 0).running = true)) ∧
    (∀ ps ∈ [0, 2], ∀ ld, let s := tamperIn 0xF { running := true, armed := true } ld ps 0
      s.on = true ∧ 0 < 4 ∧ s.gpio.func 0 = 1 ∧ (Tab.get ({} : GpioPin) s.gpio.debounce 0).running = true ∧ s.gpio.asserted 0 = true ∧ s.image.loaded = ld ∧
        s.pm.state ≠ 3) ∧
    (∀ w ∈ ([0, 1] : List (BitVec 4)), let s := tamperIn 0xF { running := true, armed := true } true 3 w
      s.on = true ∧ 0 < 4 ∧ s.gpio.func 0 = 1 ∧ (Tab.get ({} : GpioPin) s.gpio.debounce 0).running = true ∧ s.gpio.asserted 0 = true ∧
        s.pm.state = 3 ∧ s.gpio.wake.getLsbD 0 = (w == 1)) ∧
    ((4 : Byte) ≠ 1 ∧ (4 : Byte) ≠ 2 ∧ (4 : Byte) ≠ 3) := by decide +kernel

/-- A command whose queue pair stands, and one whose pair does not. -/
theorem test_hyp_CompletionPostsOneEntry : (pair 1 {}).canPost (cmd 1 (ent 0x81 0 0 0)).u (cmd 1 (ent 0x81 0 0 0)).q = true ∧
    up.canPost (cmd 1 (ent 0x81 0 0 0)).u (cmd 1 (ent 0x81 0 0 0)).q = false := by decide +kernel
theorem test_hyp_UnitNotReadyDnrInvertsRetry : (pair 0 {}).canPost (cmd 0 (ent 0x20 0 0 0)).u (cmd 0 (ent 0x20 0 0 0)).q = true := by decide +kernel
theorem test_hyp_RowsWithoutACommandChangeNothing :
    (∀ op ∈ [1, 2, 3, 4, 5, 6, 7, 8, 0x10, 0x11, 0x12, 0x18, 0x19, 0x30], State.reset.adminCmd 0 op = none) ∧
    (∀ a ∈ List.range 11, State.reset.serviceCmd 0x20 a = none) ∧ (∀ a ∈ List.range 5, State.reset.serviceCmd 0x21 a = none) ∧
    State.reset.imageCmd 0x28 = none ∧ State.reset.imageCmd 0x29 = none := by decide +kernel

/-- Tenant 0 up to its EN. -/
def tenant (x : Tenant) : State := { up with tenants := [(0, x)] }
def aqaOk : Tenant := { func := true, aqa := mkw [(0, 1), (16, 1)], asq := 0x1000, acq := 0x2000 }
theorem test_hyp_TenantsAndDoorbells_enable : State.reset.reach 0 = false ∧ (tenant { cfgEn := true }).reach 0 = true ∧ ((tenant { cfgEn := true }).tn 0).cfgEn = true ∧
    (∀ x ∈ ([{ rdy := true }, { disabling := true }, { func := false }] : List Tenant), (tenant x).reach 0 = true ∧ ((tenant x).tn 0).cfgEn = false ∧
      (x.rdy = true ∨ x.disabling = true ∨ x.func = false)) ∧
    (let s : State := { tenant aqaOk with dev := {} }; s.reach 0 = true ∧ s.ready rdHOST = false) ∧
    (∀ x ∈ ([{ aqaOk with aqa := mkw [(16, 1)] }, { aqaOk with aqa := mkw [(0, 1)] }, { aqaOk with asq := 0 }, { aqaOk with acq := 0 }] : List Tenant),
      (tenant x).reach 0 = true ∧ ((tenant x).tn 0).cfgEn = false ∧ x.rdy = false ∧ x.disabling = false ∧ x.func = true ∧ (tenant x).ready rdHOST = true ∧
        (fld x.aqa 7 0 = 0 ∨ fld x.aqa 23 16 = 0 ∨ x.asq = 0 ∨ x.acq = 0)) ∧
    ((tenant aqaOk).reach 0 = true ∧ ((tenant aqaOk).tn 0).cfgEn = false ∧ aqaOk.rdy = false ∧ aqaOk.disabling = false ∧ aqaOk.func = true ∧
      (tenant aqaOk).ready rdHOST = true ∧ fld aqaOk.aqa 7 0 ≠ 0 ∧ fld aqaOk.aqa 23 16 ≠ 0 ∧ aqaOk.asq ≠ 0 ∧ aqaOk.acq ≠ 0 ∧
      ((Tab.set 0 { aqaOk with cfgEn := true } (tenant aqaOk).tenants).map fun p => p.2.qps.length).sum < 1024) := by decide +kernel
/-- Queue pair 1 of depth 4 with two entries published and one completion posted. -/
def ring4 (deleting : Bool := false) : QueuePair :=
  { sqDepth := 4, cqDepth := 4, sqHead := 1, sqTail := 3, ring := [ent 0x85 0 0 0, ent 0x85 0 0 0], cqTail := 1, deleting := deleting }
theorem test_hyp_TenantsAndDoorbells_doorbells : State.reset.reach 0 = false ∧
    ((pair 1 (ring4)).reach 0 = true ∧ (pair 1 (ring4)).hasQp 0 1 = true ∧ ((pair 1 (ring4)).tn 0).cfgEn = true ∧ (ring4).deleting = false) ∧
    (fld 3 15 0 < 4 ∧ (fld 3 15 0 + 4 - 1) % 4 ≠ 0) ∧ (fld 1 15 0 < 4 ∧ (fld 1 15 0 + 4 - 1) % 4 = 0) ∧ 4 ≤ fld 4 15 0 ∧ (ring4 true).deleting = true ∧
    (pair 1 (ring4)).hasQp 0 2 = false ∧ (tenant {}).reach 0 = true ∧ ((tenant {}).tn 0).cfgEn = false ∧
    (fld 1 15 0 < 4 ∧ (fld 1 15 0 + 4 - 0) % 4 ≤ (1 + 4 - 0) % 4) ∧ (fld 2 15 0 < 4 ∧ (1 + 4 - 0) % 4 < (fld 2 15 0 + 4 - 0) % 4) := by decide +kernel
theorem test_hyp_HostErrorsAndAggregation : up.hasQp 0 1 = false ∧
    (∀ p ∈ ([{}, { ring4 with lookahead := true }, { ring4 with stopped := true }, ring4 true] : List QueuePair),
      p.ring = [] ∨ p.lookahead = true ∨ p.stopped = true ∨ p.deleting = true) ∧
    ((pair 1 ring4).hasQp 0 1 = true ∧ ring4.ring ≠ [] ∧ ring4.lookahead = false ∧ ring4.stopped = false ∧ ring4.deleting = false) ∧
    (up.fetched fun c => c.u == 0 && c.q == 1 && c.entry.readsHost && up.turnOf c) = none ∧
    (let s := withCmd up (cmd 1 (ent 0x81 0 64 1))
     (s.fetched fun c => c.u == 0 && c.q == 1 && c.entry.readsHost && s.turnOf c) = some (cmd 1 (ent 0x81 0 64 1))) ∧
    (let p : QueuePair := { aggTimer := true }; (pair 1 p).hasQp 0 1 = true ∧ p.aggTimer = true) ∧ ring4.aggTimer = false := by decide +kernel

/-! Arbitration, fetching and dispatch. -/

def urgentPair : QueuePair := { ring4 with sched := { cls := .urgent } }
/-- A part with pools: some shared segments free, some of the urgent reserve. -/
def pools (s : State) (urg shared : Nat) : State := { s with bm := { segTotal := 4096, shared := shared, sharedFree := shared, urgFree := urg } }
theorem test_hyp_DecisionsServeByPriority : 2 ≤ (inPs 2).pm.state ∧ (inPs 1).pm.state < 2 ∧ up.adminReady = [] ∧
    (pickFrom (pair 0 ring4).arb.admin (pair 0 ring4).adminReady = some 0) ∧
    (let z := ((pools (pair 1 urgentPair) 1024 0).noteRing [(0, 1, 40)]).applyClasses.endBursts
     let l := z.urgentReady.map fun x => 256 * x.1 + x.2
     l ≠ [] ∧ z.reserveOk = true ∧ pickFrom (256 * z.arb.urgTenant + z.arb.urgQueue) l = some 1) ∧
    (let z := ((pools (pair 1 urgentPair) 15 0).noteRing []).applyClasses.endBursts; z.urgentReady ≠ [] ∧ z.reserveOk = false) ∧
    (((pair 1 ring4).noteRing []).applyClasses.endBursts.urgentReady = []) ∧
    ((lacks (bit28 rdBUFFER)).ready rdBUFFER = false) ∧
    ((pools up 1023 1).ready rdBUFFER = true ∧ (pools up 1023 1).bm.urgFree < 1024 ∧ 0 < (pools up 1023 1).bm.sharedFree) ∧
    (1024 ≤ (pools up 1024 1).bm.urgFree ∧ pickFrom (pools up 1024 1).bm.pointer (pools up 1024 1).requests = none) ∧
    (let p : QueuePair := { ring4 with ring := [ent 0x81 0 65536 1] }
     let s := pools (pair 1 p) 1023 0
     s.ready rdBUFFER = true ∧ s.bm.sharedFree = 0 ∧ pickFrom s.bm.pointer s.requests = some 1 ∧ (s.qp 0 1).head? = some (ent 0x81 0 65536 1)) := by
  decide +kernel
/-- A virtual function's command. -/
def cmdOf (u q : Nat) (e : SubEntry) : Cmd := { cmd q e with u := u }
theorem test_hyp_FetchAndDispatchInOrder : ((pair 1 ring4).hasQp 0 1 = true ∧ ((pair 1 ring4).qp 0 1).ring = ent 0x85 0 0 0 :: [ent 0x85 0 0 0]) ∧
    ((pair 0 ring4).hasQp 0 0 = true ∧ ((pair 0 ring4).qp 0 0).ring ≠ []) ∧ ((pair 1 urgentPair).qp 0 1).sched.cls = .urgent ∧
    (1 ≠ 0 ∧ QClass.urgent = .urgent) ∧ ¬ (0 ≠ 0 ∧ QClass.urgent = .urgent) ∧ ¬ (1 ≠ 0 ∧ QClass.medium = .urgent) ∧
    adminOps.contains (cmd 0 (ent 0x81 0 0 0)).entry.op = false ∧ ioOps.contains (cmd 1 (ent 0x01 0 0 0)).entry.op = false ∧
    (adminOps.contains 0x20 = true ∧ stewardOnly (cmdOf 1 0 (ent 0x20 0 0 0)).u (ent 0x20 0 0 0) = true) ∧
    (stewardOnly 0 (ent 0x20 0 0 0) = false ∧ (lacks (bit28 (rdTRANSPORT 0))).missing (ent 0x86 0 0 0) = none ∧
      (lacks (bit28 rdHOST)).missing (ent 0x20 0 0 0) = some rdHOST) ∧
    (up.missing (ent 0x20 0 0 0 0x0B00) = none ∧ actionKnown (ent 0x20 0 0 0 0x0B00) = false) ∧
    (up.missing (ent 0x20 0 0 0 0x0A00) = none ∧ actionKnown (ent 0x20 0 0 0 0x0A00) = true) := by decide +kernel

/-! Queue pair commands. -/

/-- W4 of Create Queue Pair: ID, class, weight, depth less 1, vector. -/
def qpW (q cls weight depth vec : Nat) : Word := mkw [(0, q), (8, cls), (16, weight), (32, depth), (48, vec)]
/-- Fields of Create Queue Pair in range, but for the volume. -/
def cqpOk (s : State) (e : SubEntry) : Bool :=
  let q := fld e.w4 7 0
  let d := fld e.w4 43 32 + 1
  e.headOk false false && e.noData && fld e.w4 15 10 == 0 && fld e.w4 31 28 == 0 && fld e.w4 47 44 == 0 && fld e.w4 63 54 == 0 &&
    fld e.w7 63 32 == 0 && q != 0 && fld e.w5 11 0 == 0 && fld e.w6 11 0 == 0 && decide (2 ≤ d) &&
    decide (d ≤ (s.tenCfg 0).maxQdepth) && decide (fld e.w4 53 48 < 64) && decide (fld e.w4 24 16 ≤ 256)
def cqpFull (s : State) : Bool := decide ((s.tenCfg 0).maxQp ≤ (s.tn 0).qps.length) || decide (1024 ≤ s.pairCount)
def cqpId (s : State) (q : Nat) : Bool := cqpFull s || (!s.hasQp 0 q && decide (q < (s.tenCfg 0).maxQp))
/-- Tenant 0 with two Urgent pairs; with as many pairs as MAX_QP allows. -/
def twoUrgent : State := tenant { qps := [(0, {}), (1, urgentPair), (2, urgentPair)] }
def manyPairs : State := tenant { qps := (List.range 17).filterMap fun k => if k = 15 then none else some (k, {}) }
def cqp (q cls weight depth vec : Nat) : Cmd := cmd 0 (ent 2 0 0 0 (qpW q cls weight depth vec) 0x1000 0x2000)
theorem test_hyp_QueuePairCommands_create :
    (∀ c ∈ [cqp 0 0 0 1 0, cqp 1 0 0 0 0, cqp 1 0 0 1024 0, cqp 1 0 257 1 0],
      (withCmd up c).adminCmd 0 0x02 = some c ∧ cqpOk (withCmd up c) c.entry = false) ∧
    (∀ c ∈ [cqp 1 0 0 1 0, cqp 15 3 256 1023 63],
      (withCmd up c).adminCmd 0 0x02 = some c ∧ cqpOk (withCmd up c) c.entry = true ∧ cqpId (withCmd up c) (fld c.entry.w4 7 0) = true ∧
        (withCmd up c).urgentOthers 0 1 < 2 ∧
        ((withCmd up c).tn 0).qps.length < ((withCmd up c).tenCfg 0).maxQp ∧ (withCmd up c).pairCount < 1024) ∧
    (let c := cqp 3 3 1 1 0; let s := withCmd twoUrgent c
     s.adminCmd 0 0x02 = some c ∧ cqpOk s c.entry = true ∧ cqpId s 3 = true ∧ fld c.entry.w4 9 8 = 3 ∧ 2 ≤ s.urgentOthers 0 3) ∧
    (∀ q ∈ [2, 16], let c := cqp q 0 1 1 0; let s := withCmd twoUrgent c
      s.adminCmd 0 0x02 = some c ∧ cqpOk s c.entry = true ∧ cqpId s q = false) ∧
    (let c := cqp 15 0 1 1 0; let s := withCmd manyPairs c
     s.adminCmd 0 0x02 = some c ∧ cqpOk s c.entry = true ∧ fld c.entry.w4 9 8 ≠ 3 ∧ (s.tenCfg 0).maxQp ≤ (s.tn 0).qps.length) := by decide +kernel
theorem test_hyp_QueuePairCommands_others :
    (let c := cmd 0 (ent 3 0 0 0 0); (withCmd up c).adminCmd 0 0x03 = some c ∧ fld c.entry.w4 7 0 = 0) ∧
    (let c := cmd 0 (ent 3 0 0 0 1); let s := withCmd (pair 1 ring4) c
     s.adminCmd 0 0x03 = some c ∧ c.entry.headOk false false = true ∧ c.entry.noData = true ∧ fld c.entry.w4 63 8 = 0 ∧ s.hasQp 0 1 = true) ∧
    (let c := cmd 0 (ent 4 0 0 0 (mkw [(0, 1), (16, 257)])); (withCmd (pair 1 ring4) c).adminCmd 0 0x04 = some c ∧ 256 < fld c.entry.w4 24 16) ∧
    (let c := cmd 0 (ent 4 0 0 0 (mkw [(0, 3), (8, 3)])); let s := withCmd (tenant { qps := [(1, urgentPair), (2, urgentPair), (3, {})] }) c
     s.adminCmd 0 0x04 = some c ∧ s.hasQp 0 3 = true ∧ fld c.entry.w4 9 8 = 3 ∧ 2 ≤ s.urgentOthers 0 3) ∧
    (∀ k ∈ [0, 1, 2, 3], let c := cmd 0 (ent 4 0 0 0 (mkw [(0, 1), (8, k), (16, 256), (25, 7)])); let s := withCmd (pair 1 ring4) c
     s.adminCmd 0 0x04 = some c ∧ c.entry.headOk false false = true ∧ c.entry.noData = true ∧ fld c.entry.w4 15 10 = 0 ∧ fld c.entry.w4 63 28 = 0 ∧
       s.hasQp 0 1 = true ∧ fld c.entry.w4 24 16 ≤ 256 ∧ fld c.entry.w4 9 8 = k ∧ s.urgentOthers 0 1 < 2) ∧
    (let c := cmd 0 (ent 8 0 0 0 1); (withCmd up c).adminCmd 0 0x08 = some c ∧ c.entry.w4 ≠ 0) ∧
    (let c := cmd 0 (ent 8 0 0 0 0); (withCmd up c).adminCmd 0 0x08 = some c ∧ c.entry.headOk false false = true ∧ c.entry.noData = true ∧
      c.entry.w4 = 0 ∧ c.entry.w5 = 0 ∧ c.entry.w6 = 0 ∧ c.entry.w7 = 0) := by decide +kernel

/-! Admin commands. -/

theorem test_hyp_IdentifyReturnsItsView :
    (∀ k ∈ [5, 0x0302, 0x10003], let c := cmd 0 (ent 1 0 4096 1 (BitVec.ofNat 64 k)); (withCmd up c).adminCmd 0 0x01 = some c) ∧
    (4 < fld 5 7 0 ∧ up.tpExists (fld 0x0302 15 8) = false) ∧
    (let c := cmd 0 (ent 1 0 4095 1 0); (withCmd up c).adminCmd 0 0x01 = some c ∧ c.entry.len < 4096) ∧
    (∀ k ∈ [0, 1, 0x0702, 0x10003, 4], let c := cmd 0 (ent 1 0 4096 1 (BitVec.ofNat 64 k)); let s := withCmd up c; let e := c.entry
      s.adminCmd 0 0x01 = some c ∧ e.headOk false false = true ∧ e.dataOk ⟨[], []⟩ = true ∧ 4096 ≤ e.len ∧ fld e.w4 63 32 = 0 ∧ e.w5 = 0 ∧ e.w6 = 0 ∧
        e.w7 = 0 ∧ fld e.w4 7 0 ≤ 4 ∧ (fld e.w4 7 0 = 2 → s.tpExists (fld e.w4 15 8) = true) ∧ (fld e.w4 7 0 ≠ 2 → fld e.w4 15 8 = 0) ∧
        (fld e.w4 7 0 ≠ 3 → fld e.w4 31 16 = 0)) := by decide +kernel
/-- Get Log of a LID from an offset, with a LEN. -/
def logCmd (lid off len : Nat) : Cmd := cmd 0 (ent 5 0 len 1 (mkw [(0, lid), (32, off)]))
theorem test_hyp_LogsReturnAndConsume :
    ((withCmd up (logCmd 1 4 64)).adminCmd 0 0x05 = some (logCmd 1 4 64) ∧ fld (logCmd 1 4 64).entry.w4 63 32 % 8 ≠ 0) ∧
    (∀ lid ∈ [1, 2, 3, 4, 5, 6, 8], let c := logCmd lid 0 64; let s := withCmd up c; let e := c.entry
      s.adminCmd 0 0x05 = some c ∧ e.headOk false false = true ∧ c.outOk = true ∧ fld e.w4 31 16 = 0 ∧ e.w5 = 0 ∧ e.w6 = 0 ∧ e.w7 = 0 ∧
        fld e.w4 63 32 % 8 = 0 ∧ e.len % 8 = 0 ∧ s.stats.holding = none ∧ (lid ≠ 5 → (s.logBytes 0 lid (fld e.w4 15 8)).isSome = true)) ∧
    (let c := logCmd 5 0 64; let s := withCmd { up with stats := { holding := some {} } } c; s.adminCmd 0 0x05 = some c ∧ s.stats.holding ≠ none) ∧
    (let c := logCmd 9 0 64; let s := withCmd up c; s.adminCmd 0 0x05 = some c ∧ fld c.entry.w4 7 0 ≠ 5 ∧ s.logBytes 0 9 0 = none) ∧
    (let s : State := { up with stats := { snap := some {} } }; s.stats.snap ≠ none) ∧ 1 ≠ 0 := by decide +kernel
/-- Get and Set Features of a FID for a unit. -/
def getF (fid t : Nat) (w5 : Word) : Cmd := cmd 0 (ent 7 0 0 0 (mkw [(0, fid), (16, t)]) w5)
def setF (fid t : Nat) (w5 : Word) : Cmd := cmd 0 (ent 6 0 0 0 (mkw [(0, fid), (16, t)]) w5)
theorem test_hyp_FeaturesAnswerAndOverride :
    (∀ c ∈ [getF 0x10 0 0, getF 0x50 0 511], (withCmd up c).adminCmd 0 0x07 = some c ∧ (withCmd up c).featureOk c.entry = true ∧
      ((fld c.entry.w4 7 0 = 0x50 → c.entry.w5.toNat < 512) ∧ (fld c.entry.w4 7 0 ≠ 0x50 → c.entry.w5 = 0))) ∧
    (∀ c ∈ [getF 0x10 0 1, getF 0x50 0 512, getF 0x99 0 0], (withCmd up c).adminCmd 0 0x07 = some c ∧
      ¬ ((withCmd up c).featureOk c.entry = true ∧ (fld c.entry.w4 7 0 = 0x50 → c.entry.w5.toNat < 512) ∧ (fld c.entry.w4 7 0 ≠ 0x50 → c.entry.w5 = 0))) ∧
    (∀ c ∈ [setF 0x10 0 256, setF 0x30 0 6], (withCmd up c).adminCmd 0 0x06 = some c ∧ (withCmd up c).featureOk c.entry = true ∧
      ((withCmd up c).setFeature (fld c.entry.w4 7 0) (fld c.entry.w4 11 8) (fld c.entry.w4 23 16) c.entry.w5).isSome = true) ∧
    (let c := setF 0x10 0 257; (withCmd up c).adminCmd 0 0x06 = some c ∧
      (withCmd up c).setFeature (fld c.entry.w4 7 0) (fld c.entry.w4 11 8) (fld c.entry.w4 23 16) c.entry.w5 = none) ∧
    (let c := setF 0x99 0 1; (withCmd up c).adminCmd 0 0x06 = some c ∧ (withCmd up c).featureOk c.entry = false) ∧
    ((12 : Nat) ≤ (Tab.get ({} : TrnCfg) up.image.img.trn 0).maxSpeed ∧ (Tab.get ({} : TrnCfg) up.image.img.trn 0).maxSpeed < 13) ∧
    ((60000#64).toNat ≤ 60000 ∧ 60000 < (60001#64).toNat ∧ 1 ≤ (1#64).toNat ∧ (0#64).toNat = 0 ∧ 1 < (2#64).toNat ∧ 6 < (7#64).toNat) := by decide +kernel

/-! Volumes and keys. -/

def enc (key : Option Bytes) (kcv : Word) : Volume := { vol0 with encrypt := true, key := key, kcv := kcv }
/-- A directory with one volume entry, and one with every entry used. -/
def dir1 (v : DirVolume) : Directory := { (default : Directory) with vols := [(0, v)] }
def dirFull : Directory := { (default : Directory) with vols := (List.range 64).map fun k => (k, { (default : DirVolume) with used := true, uuid := 77 }) }
def withDir (d : Directory) (bad : Bool := false) : State := withTp up { ld := { dir := d, dirUnreadable := bad } }
def entry9 (tenant : Nat := 0) (deleted : Bool := false) : DirVolume :=
  { (default : DirVolume) with used := true, uuid := 9, tenant := tenant, deleted := deleted }
/-- Create Volume of UUID 9 on a transport, with flags in W4[15:8] and a retention. -/
def cvol (t flags ret : Nat) (uuid : Nat := 9) : Cmd := cmd 0 (ent 0x10 0 0 0 (mkw [(0, t), (8, flags), (16, ret)]) (BitVec.ofNat 64 uuid))
def cvolOk (s : State) (c : Cmd) : Bool :=
  let e := c.entry
  e.headOk false false && e.noData && fld e.w4 15 11 == 0 && fld e.w4 63 32 == 0 && e.w7 == 0 && (e.w5 != 0 || e.w6 != 0) &&
    s.tpExists (fld e.w4 7 0) && (bit e.w4 8 || decide (fld e.w4 31 16 ≤ 3650))
def crowded (n : Nat) (w : Volume) : State := { up with vols := (List.range n).map fun k => (k + 1, w) }
def freeSlot (d : Directory) : Option Nat := (List.range 64).find? fun k => !(Tab.get default d.vols k).used
def roomAt (s : State) (h : Nat) : Bool :=
  s.freeHandle == some h && decide ((s.volsOfTenant 0).length < (s.tenCfg 0).maxVol) && (freeSlot (s.dir 0)).isSome
theorem test_hyp_VolumesAreCreatedDeletedAndHeld_create :
    uuidOf 9 0 = 9 ∧
    (∀ c ∈ [cvol 3 0 0, cvol 0 8 0, cvol 0 0 3651, cvol 0 0 0 0], (withCmd up c).adminCmd 0 0x10 = some c ∧ cvolOk (withCmd up c) c = false) ∧
    (∀ c ∈ [cvol 7 0 3650, cvol 0 1 3651, cvol 0 7 0], cvolOk (withCmd up c) c = true) ∧
    ((withDir default true).tp 0).ld.dirUnreadable = true := by decide +kernel
theorem test_hyp_VolumesAreCreatedDeletedAndHeld_room :  ((withDir dirFull).tp 0).ld.dirUnreadable = false ∧ freeSlot dirFull = none := by decide +kernel
theorem test_hyp_VolumesAreCreatedDeletedAndHeld_slots : ((crowded 64 vol0).tenCfg 0).maxVol ≤ ((crowded 64 vol0).volsOfTenant 0).length := by decide +kernel
theorem test_hyp_VolumesAreCreatedDeletedAndHeld_open : (roomAt (withDir default) 1 = true ∧ dirFind (default : Directory) 9 = none ∧ freeSlot default = some 0) ∧
    (∀ v ∈ [entry9 1, entry9 0 true, entry9], roomAt (withDir (dir1 v)) 1 = true ∧ dirFind (dir1 v) 9 = some (0, v)) ∧
    (let s := withVol (withDir (dir1 entry9)) { vol0 with uuid := 9 }; roomAt s 2 = true ∧ s.volAt 0 0 ≠ none) ∧
    ((entry9 1).tenant ≠ 0 ∧ (entry9 0 true).deleted = true ∧ entry9.deleted = false ∧ entry9.tenant = 0 ∧ (withDir (dir1 entry9)).volAt 0 0 = none ∧
      freeSlot (dir1 entry9) = some 1) := by decide +kernel
def volW4 (op : Nat) (w4 : Word) (vol : Nat := 1) : Cmd := cmd 0 (ent op vol 0 0 w4)
theorem test_hyp_VolumesAreCreatedDeletedAndHeld_others :
    (let c := volW4 0x11 1; (withCmd up c).adminCmd 0 0x11 = some c ∧ c.entry.w4 ≠ 0) ∧
    (let c := volW4 0x11 0; (withCmd up c).adminCmd 0 0x11 = some c ∧ c.entry.headOk false true = true ∧ c.entry.noData = true ∧ c.entry.w4 = 0 ∧
      c.entry.w5 = 0 ∧ c.entry.w6 = 0 ∧ c.entry.w7 = 0 ∧ (withCmd up c).ownVol c = none) ∧
    (∀ b, ∀ w ∈ [{ vol0 with hold := b }, { enc none 1 with hold := b }], let c := volW4 0x11 0; let s := withCmd (withVol up w) c
      s.adminCmd 0 0x11 = some c ∧ s.ownVol c = some w ∧ (w.encrypt = false ∨ w.kcv ≠ 0) ∧ w.hold = b) ∧
    (∀ op ∈ [0x11, 0x12], let c := volW4 op 0; let s := withCmd (withVol up (enc none 0)) c
      s.adminCmd 0 op = some c ∧ s.ownVol c = some (enc none 0) ∧ (enc none 0).encrypt = true ∧ (enc none 0).kcv = 0) ∧
    (let c := volW4 0x12 2; (withCmd up c).adminCmd 0 0x12 = some c ∧ fld c.entry.w4 63 1 ≠ 0) ∧
    (let c := volW4 0x12 1; (withCmd up c).adminCmd 0 0x12 = some c ∧ c.entry.headOk false true = true ∧ c.entry.noData = true ∧
      fld c.entry.w4 63 1 = 0 ∧ c.entry.w5 = 0 ∧ c.entry.w6 = 0 ∧ c.entry.w7 = 0 ∧ (withCmd up c).ownVol c = none ∧
      (withCmd (withVol up vol0) c).ownVol c = some vol0) := by decide +kernel

def keyCmd (len dtype : Nat) : Cmd := cmd 0 (ent 0x18 1 len dtype)
def zeroKey : Bytes := List.replicate 32 0
theorem zeroKey_check : keyCheck zeroKey 1 = 15197213238928468439 := by decide +kernel
theorem test_hyp_KeysLoadAndClear_load :
    ((withCmd up (keyCmd 31 1)).adminCmd 0 0x18 = some (keyCmd 31 1) ∧ (keyCmd 31 1).entry.len ≠ 32 ∧ (keyCmd 32 2).entry.dtype ≠ 1) ∧
    ((withCmd up (keyCmd 32 1)).adminCmd 0 0x18 = some (keyCmd 32 1) ∧ (keyCmd 32 1).entry.headOk false true = true ∧ (keyCmd 32 1).entry.dtype = 1 ∧
      (keyCmd 32 1).entry.len = 32 ∧ (keyCmd 32 1).entry.w4 = 0 ∧ (keyCmd 32 1).entry.w5 = 0 ∧ (keyCmd 32 1).entry.w6 = 0 ∧ (keyCmd 32 1).entry.w7 = 0) ∧
    ((withCmd up (keyCmd 32 1)).ownVol (keyCmd 32 1) = none ∧ hostBytes (keyCmd 32 1).entry ⟨[], []⟩ = zeroKey) ∧
    (∀ w ∈ [vol0, enc (some zeroKey) 5, enc (some [1]) 5, enc none 0, enc none 1, enc none 15197213238928468439],
      (withCmd (withVol up w) (keyCmd 32 1)).ownVol (keyCmd 32 1) = some w) ∧
    ([1] ≠ zeroKey) ∧ ((crowded 4 (enc (some zeroKey) 5)).tenCfg 0).keySlots ≤ (crowded 4 (enc (some zeroKey) 5)).keysUsed 0 ∧
    ((withVol up (enc none 0)).keysUsed 0 < ((withVol up (enc none 0)).tenCfg 0).keySlots) := by decide +kernel
theorem test_hyp_KeysLoadAndClear_check : (1 ≠ 0 ∧ (1 : Word) ≠ keyCheck zeroKey (enc none 1).uuid) ∧
    ((15197213238928468439 : Word) ≠ 0 ∧ (15197213238928468439 : Word) = keyCheck zeroKey (enc none 15197213238928468439).uuid) := by
  have h : (enc none 1).uuid = 1 ∧ (enc none 15197213238928468439).uuid = 1 := ⟨rfl, rfl⟩
  rw [h.1, h.2, zeroKey_check]
  decide
theorem test_hyp_KeysLoadAndClear_clear :
    (let c := volW4 0x19 1; (withCmd up c).adminCmd 0 0x19 = some c ∧ c.entry.w4 ≠ 0) ∧
    (let c := volW4 0x19 0; (withCmd up c).adminCmd 0 0x19 = some c ∧ c.entry.headOk false true = true ∧ c.entry.noData = true ∧ c.entry.w4 = 0 ∧
      c.entry.w5 = 0 ∧ c.entry.w6 = 0 ∧ c.entry.w7 = 0 ∧ (withCmd up c).ownVol c = none) ∧
    (∀ w ∈ [vol0, enc none 0, enc none 1], let c := volW4 0x19 0; (withCmd (withVol up w) c).adminCmd 0 0x19 = some c ∧
      (withCmd (withVol up w) c).ownVol c = some w) ∧ vol0.encrypt = false ∧ (enc none 1).kcv ≠ 0 := by decide +kernel

/-! I/O commands. -/

/-- One I/O command of each kind with its fields in range, and one with a field out of it. -/
def ioCmds : List (Nat × Cmd × (Cmd → Bool)) :=
  [(0x81, cmd 1 (ent 0x81 1 32 1 1), Cmd.writeOk), (0x82, cmd 1 (ent 0x82 1 64 1 1 1), Cmd.readOk), (0x83, cmd 1 (ent 0x83 1 0 0 0 1), Cmd.locateOk),
    (0x84, cmd 1 (ent 0x84 1 0 0), Cmd.markOk), (0x85, cmd 1 (ent 0x85 1 0 0), Cmd.flushOk), (0x86, cmd 1 (ent 0x86 1 64 1), Cmd.positionOk),
    (0x87, cmd 1 (ent 0x87 1 0 0 1 2), Cmd.verifyOk)]
def ioBad : List (Nat × Cmd × (Cmd → Bool)) :=
  [(0x81, cmd 1 (ent 0x81 1 32 1 4097), Cmd.writeOk), (0x82, cmd 1 (ent 0x82 1 64 1 1 0), Cmd.readOk), (0x83, cmd 1 (ent 0x83 1 0 0 3 1), Cmd.locateOk),
    (0x84, cmd 1 (ent 0x84 1 0 0 0 0 0 1), Cmd.markOk), (0x85, cmd 1 (ent 0x85 1 0 0 2), Cmd.flushOk), (0x86, cmd 1 (ent 0x86 1 63 1), Cmd.positionOk),
    (0x87, cmd 1 (ent 0x87 1 0 0 1 2 1), Cmd.verifyOk)]
theorem test_hyp_IoCommandsCheckInOrder :
    (∀ x ∈ ioCmds, up.ioCmd 0 1 x.1 = none ∧ (withCmd up x.2.1).ioCmd 0 1 x.1 = some x.2.1 ∧ x.2.2 x.2.1 = true ∧ (withCmd up x.2.1).ownVol x.2.1 = none) ∧
    (∀ x ∈ ioBad, (withCmd up x.2.1).ioCmd 0 1 x.1 = some x.2.1 ∧ x.2.2 x.2.1 = false) ∧
    (∀ x ∈ ioCmds, ∀ w ∈ [{ vol0 with report := some (1, 2) }, enc none 0],
      (withCmd (withVol up w) x.2.1).ioCmd 0 1 x.1 = some x.2.1 ∧ (withCmd (withVol up w) x.2.1).ownVol x.2.1 = some w) ∧
    (up.dev.quiesced = 0 ∧ ∀ x ∈ ioCmds, (x.1 ≠ 0x81 ∧ x.1 ≠ 0x84) ∨ x.1 = 0x81 ∨ x.1 = 0x84) ∧
    (enc none 0).report = none ∧ (enc none 0).encrypt = true ∧ (enc none 0).kcv = 0 := by decide +kernel

/-- A record of `n` data bytes, Durable or not; the host data of a list that is one record. -/
def rec0 (n : Nat) (durable : Bool := false) : Bytes := wordsBytes [mkw [(0, n), (50, b2n durable)], 0, 0, 0] ++ List.replicate n 0
def wrCmd (len n : Nat) : Cmd := cmd 1 (ent 0x81 1 len 1 (BitVec.ofNat 64 n))
/-- Quiesced by a fault of Sachet or of another unit, with a Write Records fetched before it. -/
def sachetGone (b : Bool) : State := withCmd { up with dev := { quiesced := 5, fatal := if b then 4 else 2 } } (wrCmd 40 1)
theorem test_hyp_IoCommandsCheckInOrder_quiesced :
    (∀ b, (sachetGone b).dev.quiesced ≠ 0 ∧ (sachetGone b).ioCmd 0 1 0x81 = some (wrCmd 40 1) ∧ (sachetGone b).dev.fatal.getLsbD 2 = b) ∧
    (let s : State := { up with dev := { quiesced := 5 } }; s.dev.quiesced ≠ 0 ∧ s.ioCmd 0 1 0x81 = none) ∧
    (wrCmd 40 1).sachet = true ∧ parseRecords 1 (hostBytes (wrCmd 40 1).entry ⟨[], rec0 8 true⟩) = some [rec0 8 true] ∧ recDurable (rec0 8 true) = true ∧
    recDurable (rec0 8) = false := by decide +kernel
/-- An open gap entry of tag 0, and 40 bytes of room that it does not fit but a mark does. -/
def gapAhead : Volume := { vol0 with spare := 40, gaps := [(0, { time := 0, lastTime := 0, records := 1, level := 1, classes := 1, bytes := 64 })] }
/-- A volume on a transport whose cartridge takes data, with pools. -/
def openTape (w : Volume) (shared : Nat) : State := pools (withVol (withTp up {}) w) 0 shared
theorem test_hyp_WriteRecordsAdmitsWholeLists :
    (∀ w ∈ [vol0, enc none 1], let s := withCmd (openTape w 1) (wrCmd 40 1); s.ioCmd 0 1 0x81 = some (wrCmd 40 1) ∧ (wrCmd 40 1).writeOk = true ∧
      s.dev.quiesced = 0 ∧ s.ownVol (wrCmd 40 1) = some w ∧ w.report = none ∧
      (w.encrypt = false ∨ w.kcv ≠ 0)) ∧
    (¬ ((enc none 1).encrypt = false ∨ (enc none 1).key ≠ none) ∧ vol0.encrypt = false) ∧
    (let w : Volume := { enc (some zeroKey) 1 with clearing := some 4 }; w.clearing = some 4 ∧ ¬ ((wrCmd 40 1).id ≤ 4)) ∧
    (let w : Volume := { enc (some zeroKey) 1 with clearing := some 6 }; w.clearing = some 6 ∧ (wrCmd 40 1).id ≤ 6) ∧
    (let c : Cmd := { wrCmd 40 1 with sachet := false }; recDurable (rec0 8 true) = true ∧ c.sachet = false ∧ (wrCmd 40 1).sachet = true) ∧
    (parseRecords 1 (hostBytes (wrCmd 48 1).entry ⟨[], rec0 8⟩) = none) := by decide +kernel
theorem test_hyp_WriteRecordsAdmitsWholeLists_lists :
    (parseRecords 1 (hostBytes (wrCmd 40 1).entry ⟨[], rec0 8⟩) = some [rec0 8] ∧ ringNeed [rec0 8] ≤ 16711680) ∧
    (let s := withCmd (withVol (withTp up { fmt := { halted := true } }) vol0) (wrCmd 40 1); s.cartFull 0 (wrCmd 40 1).entry.len = true) ∧
    (∀ w ∈ [{ vol0 with replay := [(1, [])] }, { vol0 with gapWait := [(0, [])] }], w.replay ≠ [] ∨ w.gapWait ≠ []) ∧
    (let s := withCmd (openTape vol0 0) (wrCmd 40 1); s.cartFull 0 (wrCmd 40 1).entry.len = false ∧ (s.putList (wrCmd 40 1) vol0 [rec0 8]).isNone = true) ∧
    (let s := withCmd (openTape vol0 1) (wrCmd 40 1); s.cartFull 0 (wrCmd 40 1).entry.len = false ∧ vol0.replay = [] ∧ vol0.gapWait = [] ∧
      s.sachet.ringUsed + s.ringClaims (wrCmd 40 1) + ringNeed [rec0 8] ≤ 16711680 ∧
      (s.putList (wrCmd 40 1) vol0 [rec0 8]).any (fun z => z.gapsPlaced 1) = true) ∧
    (let s := withCmd (openTape gapAhead 0) (wrCmd 40 1); s.cartFull 0 (wrCmd 40 1).entry.len = false ∧
      (s.putList (wrCmd 40 1) gapAhead [rec0 8]).any (fun z => !z.gapsPlaced 1) = true) := by
  decide +kernel
/-- A ring that has not 40 bytes left. -/
theorem test_hyp_WriteRecordsAdmitsWholeLists_ring_full :
    16711680 < State.ringClaims { up with arb := { cmds := [{ wrCmd 40 1 with id := 4, ring := 16711680 }, wrCmd 40 1] } } (wrCmd 40 1) + ringNeed [rec0 8 true] := by
  decide +kernel
/-- One Durable record of 16,711,680 bytes, its header beside the data: more than the ring takes. -/
theorem test_hyp_WriteRecordsAdmitsWholeLists_ring (n : Nat) (hn : n = 16711680) (h0 : recordHeadOk (mkw [(0, 16711680), (50, 1)]) = true ∧
    recordLen (mkw [(0, 16711680), (50, 1)]) = 16711712 ∧ bit (mkw [(0, 16711680), (50, 1)]) 50 = true) :
    parseRecords 1 (rec0 n true) = some [rec0 n true] ∧ 16711680 < ringNeed [rec0 n true] ∧ (rec0 n true).length ≤ maxLen := by
  have head : (wordsBytes [mkw [(0, n), (50, 1)], 0, 0, 0]).length = 32 := wordsBytes_length _
  have len : (rec0 n true).length = 16711712 := by
    rw [rec0, List.length_append, List.length_replicate]
    simp only [b2n, if_true]
    rw [head]
    omega
  have w0 : wordAt (rec0 n true) 0 = mkw [(0, 16711680), (50, 1)] := by
    unfold wordAt
    rw [rec0, slice_prefix _ _ _ _ (by simp only [b2n, if_true]; rw [head]; decide), hn]
    decide +kernel
  refine ⟨?_, ?_, ?_⟩
  · have e : (rec0 n true).drop 16711712 = [] := List.drop_eq_nil_of_le (by omega)
    have f : (rec0 n true).take 16711712 = rec0 n true := List.take_of_length_le (by omega)
    simp only [parseRecords, w0, h0.1, h0.2.1, len, e, f]
    simp
  · simp only [ringNeed, recDurable, w0, h0.2.2, List.filter_cons, if_true, List.filter_nil, List.map_cons, List.map_nil, List.sum_cons, List.sum_nil, len]
    omega
  · rw [len, maxLen]
    omega
theorem test_hyp_WriteRecordsAdmitsWholeLists_ring_ok : recordHeadOk (mkw [(0, 16711680), (50, 1)]) = true ∧
    recordLen (mkw [(0, 16711680), (50, 1)]) = 16711712 ∧ bit (mkw [(0, 16711680), (50, 1)]) 50 = true := by decide +kernel
theorem test_hyp_AdmissionNumbersRecords : 32 ≤ (rec0 8).length ∧ bit (wordAt (rec0 8) 0) 52 = false ∧
    (((openTape vol0 1).closeGap (wrCmd 40 1).entry.vol (recTag (rec0 8))).vol? (wrCmd 40 1).entry.vol) = some vol0 := by decide +kernel

/-- A record or gap entry in the buffer. -/
def brec (seq : Option Nat) : BufRec :=
  { seq := seq, bytes := rec0 8, start := 0, place := 0, tag := 0, time := 0, durable := false, mark := false, gen := 0, urgent := false }
def markCmd : Cmd := cmd 1 (ent 0x84 1 0 0)
def flushCmd (cutOnly : Bool) (seqAt : Nat) : Cmd := { cmd 1 (ent 0x85 1 0 0 (BitVec.ofNat 64 (b2n cutOnly))) with seqAt := seqAt }
theorem test_hyp_MarksAndFlushes_mark :
    (∀ w ∈ [vol0, { vol0 with replay := [(1, [])] }, { vol0 with gapWait := [(0, [])] }, gapAhead], let s := withCmd (openTape w 1) markCmd
      s.ioCmd 0 1 0x84 = some markCmd ∧ s.dev.quiesced = 0 ∧ markCmd.markOk = true ∧ s.ownVol markCmd = some w ∧ w.report = none ∧ w.encrypt = false) ∧
    ((withCmd (withVol (withTp up { fmt := { halted := true } }) vol0) markCmd).cartFull 0 0 = true) ∧
    (∀ w ∈ [vol0, { vol0 with replay := [(1, [])] }, { vol0 with gapWait := [(0, [])] }, gapAhead], (withCmd (openTape w 1) markCmd).cartFull 0 0 = false) ∧
    (let s1 := (withCmd (openTape vol0 0) markCmd).closeGap 1 (recTag (markBytes markCmd.entry)); (s1.roomFor 1 32).isNone = true) ∧
    (let s1 := (withCmd (openTape vol0 1) markCmd).closeGap 1 (recTag (markBytes markCmd.entry))
     (s1.roomFor 1 32).isSome = true ∧ s1.gapsPlaced 1 = true ∧
       ((s1.roomFor 1 32).any fun s2 => (((s2.offer 0 32).takeRecord markCmd 0 (markBytes markCmd.entry)).admitted markCmd).gapsPlaced 1) = true) ∧
    (let s1 := (withCmd (openTape gapAhead 0) markCmd).closeGap 1 (recTag (markBytes markCmd.entry))
     (s1.roomFor 1 32).isSome = true ∧ s1.gapsPlaced 1 = false) := by decide +kernel
theorem test_hyp_MarksAndFlushes_flush :
    (((openTape vol0 1).cut 1 2).vol? 1).map Volume.allPlaced = some true ∧
    (((openTape { vol0 with opn := [7] } 1).cut 1 2).vol? 1).map Volume.allPlaced = some false ∧
    (∀ b, let s := withCmd (openTape vol0 1) (flushCmd b 2)
      s.ioCmd 0 1 0x85 = some (flushCmd b 2) ∧ (flushCmd b 2).flushOk = true ∧ s.ownVol (flushCmd b 2) = some vol0 ∧ bit (flushCmd b 2).entry.w4 0 = b) ∧
    (let s := withVol (withMot up { state := .outOfService }) vol0; ((s.cut 1 2).mot 0).state = .outOfService ∧ vol0.verified < 1 ∧ 0 ≤ vol0.verified) ∧
    (((openTape vol0 1).cut 1 2).mot 0).state ≠ .outOfService := by decide +kernel

def readCmd (first n : Nat) : Cmd := cmd 1 (ent 0x82 1 64 1 (BitVec.ofNat 64 first) (BitVec.ofNat 64 n))
def verCmd (a b : Nat) : Cmd := cmd 1 (ent 0x87 1 0 0 (BitVec.ofNat 64 a) (BitVec.ofNat 64 b))
/-- Record 2 in the buffer, and record 1 in a wrap group that was reused. -/
def reused : State :=
  withVol (withTp up { ld := { dir := { (default : Directory) with groups := [(0, { reuseDsn := 1, reuses := 1 })] } } }) { vol0 with recs := [brec (some 2)] }
/-- Record 1 recorded lost. -/
def lost1 : State := withTp up { ld := { dir := { (default : Directory) with lost := [{ (default : LostRange) with first := 1, last := 1 }] } } }
theorem test_hyp_ReadsAndVerifiesOfARange_read :
    (∀ w ∈ [enc none 1, vol0, { vol0 with replay := [(1, [])] }, { vol0 with recs := [brec (some 1)] }],
      let s := withCmd (withVol up w) (readCmd 1 1)
      s.ioCmd 0 1 0x82 = some (readCmd 1 1) ∧ (readCmd 1 1).readOk = true ∧ s.ownVol (readCmd 1 1) = some w ∧ w.report = none ∧
        (w.encrypt = false ∨ w.kcv ≠ 0)) ∧
    (¬ ((enc none 1).encrypt = false ∨ (enc none 1).key ≠ none)) ∧
    (let w : Volume := { enc (some zeroKey) 1 with clearing := some 4 }; w.clearing = some 4 ∧ ¬ ((readCmd 1 1).id ≤ 4)) ∧
    ((readCmd 0 1).readOk = true ∧ (readCmd 0 1).entry.w4.toNat = 0 ∧ vol0.nextSeq ≤ (readCmd 3 1).entry.w4.toNat ∧
      0 < (readCmd 1 1).entry.w4.toNat ∧ (readCmd 1 1).entry.w4.toNat < vol0.nextSeq) ∧
    (reused.givenUp { vol0 with recs := [brec (some 2)] } 1 = some 2) ∧
    (∀ w ∈ [vol0, { vol0 with replay := [(1, [])] }, { vol0 with recs := [brec (some 1)] }], (withVol up w).givenUp w 1 = none) ∧
    (let w : Volume := { vol0 with replay := [(1, [])] }; ((w.asked (readCmd 1 1).entry).any fun k => w.replay.any fun r => r.1 == k) = true) ∧
    (let w : Volume := { vol0 with recs := [brec (some 1)] }
     ((w.asked (readCmd 1 1).entry).any fun k => w.replay.any fun r => r.1 == k) = false ∧ (withVol up w).lostIn w (readCmd 1 1).entry = none ∧
       ((readCmd 1 1).pinNow w).holds (w.range 1 (fld (readCmd 1 1).entry.w5 12 0) (bit (readCmd 1 1).entry.w5 16)) = true) ∧
    ((readCmd 1 1).pinNow vol0).holds (vol0.range 1 (fld (readCmd 1 1).entry.w5 12 0) (bit (readCmd 1 1).entry.w5 16)) = false ∧
    (lost1.givenUp vol0 1 = none ∧ lost1.lostIn vol0 (readCmd 1 1).entry = some 1) := by decide +kernel
/-- Record 1 stands in a dataset on tape; the transport in service or not. -/
def onTape (st : TState) : State :=
  let x : Dataset := { (default : Dataset) with dsn := 1, regions := [{ (default : Region) with bytes := List.replicate 48 0, fblk := some 0 }] }
  withTp up { mot := { state := st }, ld := { cart := some { (default : Cartridge) with sets := [x] }, dir := { (default : Directory) with eodDsn := 1 } } }
theorem test_hyp_ReadsAndVerifiesOfARange_queue :
    (∀ st ∈ [TState.parked, .outOfService], (onTape st).needSets vol0 (vol0.wanted (readCmd 1 1)) ≠ [] ∧ ((onTape st).mot vol0.transport).state = st) ∧
    (withVol up vol0).needSets vol0 (vol0.wanted (readCmd 1 1)) = [] := by
  refine ⟨?_, by decide +kernel⟩
  have h : ∀ l : List Dataset, l.isEmpty = false → l ≠ [] := by intro l; cases l <;> simp
  intro st hs
  simp only [List.mem_cons, List.not_mem_nil, or_false] at hs
  rcases hs with rfl | rfl <;> exact ⟨h _ (by decide +kernel), by decide +kernel⟩
theorem test_hyp_ReadsAndVerifiesOfARange_verify :
    (∀ c ∈ [verCmd 1 2, verCmd 0 1, verCmd 2 1, verCmd 1 3], let s := withCmd (withVol up vol0) c
      s.ioCmd 0 1 0x87 = some c ∧ c.verifyOk = true ∧ s.ownVol c = some vol0) ∧
    ((verCmd 0 1).entry.w4.toNat = 0 ∧ (verCmd 2 1).entry.w5.toNat < (verCmd 2 1).entry.w4.toNat ∧ vol0.nextSeq ≤ (verCmd 1 3).entry.w5.toNat ∧
      4096 < (verCmd 1 4097).entry.w5.toNat + 1 - 1) ∧
    (∀ w ∈ [vol0, { vol0 with replay := [(1, [])] }, { vol0 with recs := [brec (some 1), brec (some 2)] }],
      ¬ ((verCmd 1 2).entry.w4.toNat = 0 ∨ (verCmd 1 2).entry.w5.toNat < (verCmd 1 2).entry.w4.toNat ∨ w.nextSeq ≤ (verCmd 1 2).entry.w5.toNat ∨
        4096 < (verCmd 1 2).entry.w5.toNat + 1 - (verCmd 1 2).entry.w4.toNat ∨
        1073741824 < (withCmd (withVol up w) (verCmd 1 2)).rangeBytes w (w.asked (verCmd 1 2).entry))) ∧
    (let w : Volume := { vol0 with replay := [(1, [])] }; ((w.asked (verCmd 1 2).entry).any fun k => w.replay.any fun r => r.1 == k) = true) ∧
    (let w : Volume := { vol0 with recs := [brec (some 1), brec (some 2)] }
     ((verCmd 1 2).pinNow w).holds (w.asked (verCmd 1 2).entry) = true ∧ (withVol up w).lostIn w (verCmd 1 2).entry = none) ∧
    ((verCmd 1 2).pinNow vol0).holds (vol0.asked (verCmd 1 2).entry) = false ∧ lost1.lostIn vol0 (verCmd 1 2).entry = some 1 := by decide +kernel

def inState (st : TState) (cause : Nat := 0) (cart : Bool := true) : State := withMot up { state := st, oosCause := cause, cartPresent := cart }
def locCmd (mode : Nat) (w5 : Word) : Cmd := cmd 1 (ent 0x83 1 0 0 (BitVec.ofNat 64 mode) w5)
theorem test_hyp_LocateHintsOrMovesAndPositionAnswers :
    (∀ c ∈ [locCmd 0 0, locCmd 0 3, locCmd 1 0, locCmd 1 1, locCmd 0 2], let s := withCmd (withVol up vol0) c
      s.ioCmd 0 1 0x83 = some c ∧ c.locateOk = true ∧ s.ownVol c = some vol0) ∧
    ((locCmd 0 0).entry.w5 = 0 ∧ vol0.nextSeq ≤ vol0.locateSeq (locCmd 0 3).entry ∧ fld (locCmd 1 0).entry.w4 1 0 = 1 ∧ (locCmd 1 0).entry.w5 = 0 ∧
      vol0.markSeqs.length < (locCmd 1 1).entry.w5.toNat) ∧
    ((locCmd 0 2).entry.w5 ≠ 0 ∧ vol0.locateSeq (locCmd 0 2).entry < vol0.nextSeq ∧ fld (locCmd 0 2).entry.w4 1 0 = 0) ∧
    ((withVol up { vol0 with recs := [brec (some 2)] }).pendingOf 0 ≠ 0) ∧ (0 < (withTp up { gov := { offeredMs := [1] } }).inflow 0) ∧
    ((withVol up vol0).pendingOf 0 = 0 ∧ ¬ 0 < (withVol up vol0).inflow 0 ∧ ((withVol up vol0).mot 0).state ≠ .outOfService) ∧
    (let s := withVol (inState .outOfService) vol0; s.pendingOf 0 = 0 ∧ ¬ 0 < s.inflow 0 ∧ (s.mot 0).state = .outOfService) ∧
    (let c := cmd 1 (ent 0x86 1 64 1); let s := withCmd (withVol up vol0) c; s.ioCmd 0 1 0x86 = some c ∧ c.positionOk = true ∧ s.ownVol c = some vol0) := by
  decide +kernel

/-! Transports. -/

/-- A Transport Control of an action on a unit. -/
def tc (a : Nat) (t : Nat := 0) : Cmd := cmd 0 (ent 0x20 0 0 0 (mkw [(0, t), (8, a)]))
theorem test_hyp_TransportControlRefusesOrEndsAtOnce :
    (∀ a ∈ List.range 11, (withCmd up (tc a 8)).serviceCmd 0x20 a = some (tc a 8) ∧ ¬ ((tc a 8).unit < 8)) ∧
    (∀ x ∈ ([(1, .relaxed), (2, .unloaded), (3, .parked), (4, .relaxed), (5, .unloaded), (6, .relaxed), (7, .absent), (8, .absent), (9, .relaxed),
        (10, .loading)] : List (Nat × TState)),
      let s := withCmd (inState x.2) (tc x.1); s.serviceCmd 0x20 x.1 = some (tc x.1) ∧ (s.mot 0).state = x.2) ∧
    (∀ x ∈ ([(0, .absent), (4, .parked), (8, .streaming), (9, .outOfService), (10, .unloaded)] : List (Nat × TState)),
      let s := withCmd (inState x.2) (tc x.1); s.serviceCmd 0x20 x.1 = some (tc x.1) ∧ (tc x.1).tcOk = true ∧ (s.mot (tc x.1).unit).state = x.2) := by
  decide +kernel
theorem test_hyp_TransportControlBeginsAndWaits :
    (∀ x ∈ ([(1, .unloaded), (2, .relaxed), (2, .parked), (2, .streaming), (2, .locating), (2, .outOfService), (3, .relaxed), (5, .relaxed), (5, .stopping),
        (7, .streaming), (7, .locating), (7, .stopping), (7, .parked), (7, .loading), (7, .unloading)] : List (Nat × TState)),
      let s := withCmd (inState x.2) (tc x.1); s.serviceCmd 0x20 x.1 = some (tc x.1) ∧ (tc x.1).tcOk = true ∧ (s.mot (tc x.1).unit).state = x.2 ∧
        (s.mot 0).cartPresent = true ∧ (s.tp 0).ld.resetting = false) ∧
    (let s := withCmd (inState .outOfService 1) (tc 6); s.serviceCmd 0x20 6 = some (tc 6) ∧ (s.mot 0).state = .outOfService ∧ (s.mot 0).oosCause = 1) := by
  decide +kernel
theorem test_hyp_OutOfServiceAndFrontEndStops : 7 < 8 ∧ (inState .parked).tpExists 0 = true ∧ up.tpExists 3 = false ∧ ((inState .parked).mot 0).state.moving = false ∧
    ((inState .streaming).mot 0).state.moving = true ∧ (((inState .parked).enterOos 0 3).mot 0).state = .outOfService ∧
    (∀ g ∈ [StopGoal.parked, .reload, .outOfService 2], ((withMot up { state := .stopping, stopGoal := g }).mot 0).stopGoal = g ∧
      ((withMot up { state := .stopping, stopGoal := g }).mot 0).state.moving = true) ∧ ((inState .parked).mot 0).state ≠ .outOfService := by decide +kernel
def cart0 : Cartridge := default
theorem test_hyp_LoadsAndCartridges : ((inState .parked).mot 0).state ≠ .loading ∧ ((inState .loading).mot 0).state = .loading ∧ ((inState .loading).tp 0).ld.scan = false ∧
    (∀ b, let s := withTp up { ld := { cart := some cart0, scan := b } }; (s.tp 0).ld.cart = some cart0 ∧ (s.tp 0).ld.scan = b) ∧
    (up.tp 0).ld.cart = none ∧ (∀ b, ((withTp up { ld := { latchOut := b } }).tp 0).ld.latchOut = b) ∧ up.tpExists 3 = false ∧
    (let s := withTp up { mot := { state := .unloaded }, ld := { env := some default } }; (s.mot 0).state = .unloaded ∧ (s.tp 0).ld.env ≠ none) ∧
    (let s := inState .unloaded; s.tpExists 0 = true ∧ (s.tp 0).ld.env = none ∧ (s.mot 0).state = .unloaded ∧ (s.mot 0).autoload = true ∧ (s.tp 0).ld.resetting = false) ∧
    (∀ k ∈ [1000, 999], let s := withMot up { state := .relaxed, idleMs := k }
      s.tpExists 0 = true ∧ (s.mot 0).state = .relaxed ∧ (s.mot 0).starting = none ∧ fld s.cfg.pwr1 31 16 = 1 ∧
        (decide (fld s.cfg.pwr1 31 16 * 1000 ≤ (s.mot 0).idleMs) = decide (k = 1000))) := by decide +kernel
/-- A transport in a state with its lane Up; with an excursion; with a gate. -/
def rolling (m : Motion) (f : Format := {}) (gate : Bool := false) (cart : Option Cartridge := none) (g : Governor := {}) : State :=
  { up with lanes := [(0, { state := .up })], tps := [(0, { mot := m, fmt := f, gu := { gate := gate }, ld := { cart := cart }, gov := g })] }
/-- A read that waits for its excursion. -/
def waiting : Cmd := { readCmd 1 1 with stage := .reading false }
def exc (atTarget resume : Bool) : Excursion := { cmds := [5], atTarget := atTarget, resume := resume }
def aDataset : Dataset := { (default : Dataset) with dsn := 1 }
theorem test_hyp_ExcursionsLeaveAndReturn :
    (∀ st ∈ [TState.parked, .relaxed, .streaming], let s := rolling { state := st }
      (s.mot 0).exc = none ∧ (s.mot 0).state = st ∧ (s.mot 0).starting = none ∧ s.mayMove 0 = true ∧ s.excursionReads 0 = []) ∧
    (let s := withVol (withCmd (rolling { state := .parked }) waiting) vol0; s.mayMove 0 = true ∧ s.excursionReads 0 = [waiting]) ∧
    (((inState .parked).mot 0).exc = none ∧ (inState .parked).mayMove 0 = false) ∧
    (let s := rolling { state := .streaming, exc := some (exc false true) }; (s.mot 0).exc = some (exc false true) ∧ (s.mot 0).state = .streaming ∧
      (s.fmt 0).done = true) ∧
    (let s := rolling { state := .streaming, exc := some (exc false true) } { queue := [aDataset] }; (s.fmt 0).done = false ∧ (s.tp 0).gu.gate = false) ∧
    (let s := rolling { state := .streaming, exc := some (exc false true) } { queue := [aDataset] } true; (s.fmt 0).done = false ∧ (s.tp 0).gu.gate = true) ∧
    (let s := rolling { state := .locating, exc := some (exc false true) }; (s.mot 0).state = .locating ∧ (exc false true).atTarget = false) ∧
    (let s := rolling { state := .locating, exc := some (exc true true) }
     let z := s.modMot 0 fun m => { m with exc := none, pendingTarget := none }
     (s.mot 0).state = .locating ∧ (exc true true).atTarget = true ∧ (exc true true).resume = true ∧ z.mayMove 0 = true ∧ z.writable 0 = true) ∧
    (let s := rolling { state := .locating, exc := some (exc true false) } { halted := true }
     let z := s.modMot 0 fun m => { m with exc := none, pendingTarget := none }
     (s.mot 0).exc = some (exc true false) ∧ z.writable 0 = false) := by decide +kernel
def tgt (kind : Nat) : Target := { x := 5, dir := true, speed := 20, kind := kind }
theorem test_hyp_TargetsEndTheirLegs : ((rolling {}).mot 0).target = none ∧
    (∀ k ∈ [0, 1, 2, 3, 4], ((rolling { target := some (tgt k), exc := some (exc false true) }).mot 0).target = some (tgt k) ∧ (tgt k).kind = k) ∧
    ((rolling { target := some (tgt 1), exc := some (exc false true) }).mot 0).exc = some (exc false true) ∧
    ((rolling { target := some (tgt 1) }).mot 0).exc = none := by decide +kernel
theorem test_hyp_StopsTurnsAndBursts : ((rolling {}).mot 0).state ≠ .stopping ∧
    (∀ g ∈ [StopGoal.parked, .reload, .outOfService 2], ((rolling { state := .stopping, stopGoal := g }).mot 0).state = .stopping ∧
      ((rolling { state := .stopping, stopGoal := g }).mot 0).stopGoal = g) ∧
    ((rolling { state := .unloaded }).mot 0).state.usable = false ∧
    ((-115000 : Int) ≤ -115000 ∧ (10115000 : Int) ≤ 10115000 ∧ (-115001 : Int) < -115000 ∧ (10115000 : Int) < 10115001) ∧
    (∀ x ∈ ([-115001, -115000, 10115000, 10115001] : List Int), ((rolling { state := .parked, x := x }).mot 0).state.usable = true ∧
      ((rolling { state := .parked, x := x }).mot 0).x = x) ∧
    (∀ st ∈ [TState.streaming, .unloading], ((rolling { state := st, target := some (tgt 4) }).mot 0).target = some (tgt 4) ∧ (tgt 4).kind = 4) ∧
    (∀ b, let s := rolling { state := .streaming, target := some (tgt 4) } { wrap := 0, packWrap := 1, halted := b }
      (s.fmt 0).packWrap ≠ (s.fmt 0).wrap ∧ ((s.toPackWrap 0).fmt 0).halted = b) ∧
    (let s := rolling { state := .streaming, target := some (tgt 4) } { halted := true }; (s.fmt 0).packWrap = (s.fmt 0).wrap ∧ (s.fmt 0).halted = true) ∧
    (∀ st ∈ [TState.parked, .relaxed], let s := rolling { state := st } {} false (some cart0)
      (s.mot 0).state = st ∧ s.startDue 0 = true ∧ s.mayMove 0 = true ∧ s.writable 0 = true ∧ s.cart? 0 ≠ none) ∧
    (let s := rolling { state := .streaming } {} false none { burst := true }
     (s.tp 0).gov.burst = true ∧ (s.mot 0).state = .streaming ∧ (s.mot 0).exc = none ∧ (s.fmt 0).closing = false ∧ s.flushWaits 0 = false ∧
       s.pendingOf 0 ≤ (s.trnCfg 0).bstop * 1048576 ∧ (∀ d ∈ (s.fmt 0).sets, d.retryDue = false)) := by decide +kernel

/-! Solenoids, lanes, channels. -/

def withSol (x : Solenoids) (st : TState := .parked) : State := withTp up { sol := x, mot := { state := st } }
theorem test_hyp_SolenoidsPullHoldAndFault : up.tpExists 0 = true ∧ up.tpExists 3 = false ∧ ((withSol {}).tp 0).sol.pullin = none ∧
    (∀ r ∈ ([[], [1]] : List (List Nat)), ((withSol { energ := 1, pullin := some 0, wait := r }).tp 0).sol.pullin ≠ none ∧
      ((withSol { energ := 1, pullin := some 0, wait := r }).tp 0).sol.wait = r) ∧
    (∀ b ∈ [0, 1], ∀ st ∈ [TState.parked, .streaming], let s := withSol { energ := 3, solSt := 0 } st; let x := (s.tp 0).sol
      b < 2 ∧ x.energ.getLsbD b = true ∧ x.pullin ≠ some b ∧ x.solSt.getLsbD b = false ∧ (s.mot 0).state.moving = decide (st = .streaming)) ∧
    (let x := (((withSol { energ := 7 }).tp 0).sol); x.energ.getLsbD 2 = true ∧ ¬ (2 < 2)) := by decide +kernel

/-- Lanes 2 and 3 (a pair) in given states. -/
def lanes23 (a b : Lane) : State := { up with lanes := [(2, a), (3, b)] }
def slotOf (w : BitVec 96) (period : Nat := 0) : XSlot := ⟨period, w, w⟩
/-- A TRAIN word with a request. -/
def trainSlot (p : Nat) : XSlot := slotOf (xword xtTrain 0 (BitVec.ofNat 64 p))
def learning (st : LaneState := .training) (ready : Bool := false) (id : BitVec 32 := 0) : State :=
  lanes23 { state := st, feReady := ready, feId := id } { state := .up }
theorem test_hyp_TrainingEndsUpOrDown_words :
    (∀ st ∈ [LaneState.training, .quarantined], let s := learning st; s.lanePresent 2 = true ∧ (s.ln 2).trained = false ∧ (s.ln 2).state = st ∧ (s.ln 2).rxInv = false) ∧
    ((learning .up).ln 2).state = .up ∧
    (let w := xword xtLink 0 5; slotWord (slotOf w) = some w ∧ xType w ≠ xtTrain) ∧
    (∀ p ∈ [0, 3, 0x613], (slotWord (trainSlot p)).any (fun w => xType w == xtTrain && fld (xPayload w) 7 0 == p % 256) = true) ∧
    (let w := xword xtLink 0 5; slotWord (invSlot (slotOf w)) = none ∧ slotWord (invSlot (invSlot (slotOf w))) = some w ∧ xType w ≠ xtTrain) := by decide +kernel
theorem test_hyp_TrainingEndsUpOrDown_ends :
    (∀ h m, let s := lanes23 { state := .down, held := h, mismatch := m } {}
      s.lanePresent 2 = true ∧ (s.ln 2).held = h ∧ (s.ln 2).mismatch = m ∧ (s.ln 2).state = .down) ∧
    (let s := learning .quarantined; (s.ln 2).held = false ∧ (s.ln 2).mismatch = false ∧ (s.ln 2).state = .quarantined ∧ (s.ln 2).trained = false) ∧
    ((learning .training false).ln 2).feReady = false ∧
    (let s := learning .training true
     (s.ln 2).feReady = true ∧ s.identOk 2 0 (mkw [(16, 2000), (48, 256)]) 16 = true ∧ s.identOk 2 0 (mkw [(16, 1999), (48, 256)]) 16 = false ∧
       s.identOk 2 0 (mkw [(16, 5000), (32, 1), (48, 256)]) 16 = false ∧ s.identOk 2 0 (mkw [(16, 5000), (48, 255)]) 16 = false ∧
       s.identOk 2 0 (mkw [(16, 5000), (48, 256)]) 15 = false) ∧
    (∀ st ∈ [LaneState.up, .rejoining, .down], ∀ n, let s := lanes23 { state := .training, trained := true, needClean := n } { state := st }
      s.lanePresent 2 = true ∧ (s.ln 2).state = .training ∧ (s.ln 2).trained = true ∧ (s.ln 2).held = false ∧ (s.ln 2).needClean = n ∧
        s.partner 2 = some 3 ∧ (s.ln 3).state = st) := by decide +kernel

/-- A LINK word. -/
def linkSlot (op lane sn : Nat) (period : Nat := 0) : XSlot := slotOf (xword xtLink 1 (mkw [(0, op), (4, lane), (8, sn)])) period
theorem test_hyp_LanesFailAndRejoin_codewords :
    up.lanePresent 0 = true ∧ up.lanePresent 8 = false ∧
    (let w := (((withLane up { state := .up, window := List.replicate 15 5 }).ln 0).window.filter fun p => decide (9 < p + 1048576)) ++ [9]; w.length ≤ 16) ∧
    (let w := (((withLane up { state := .up, window := List.replicate 16 5 }).ln 0).window.filter fun p => decide (9 < p + 1048576)) ++ [9]; 16 < w.length) ∧
    (let w := (((withLane up { state := .up, window := List.replicate 16 5 }).ln 0).window.filter fun p => decide (1048581 < p + 1048576)) ++ [1048581]
     w.length ≤ 16) := by decide +kernel
/-- What `accept` gives of a LINK word on lane 2. -/
def took (s : State) (slot : XSlot) : State × Option Word := s.accept 2 xtLink slot
theorem test_hyp_LanesFailAndRejoin_link :
    (took (lanes23 { state := .up } { state := .up }) (slotOf 0)).2 = none ∧
    (let x := took (lanes23 { state := .up } { state := .up }) (linkSlot 1 0 0)
     x.2.any (fun p => fld p 3 0 = 1 ∧ 2 / 2 * 2 + fld p 4 4 = 2) = true ∧ x.1.partner 2 = some 3 ∧ (x.1.ln 2).state = .up ∧ (x.1.ln 3).state = .up) ∧
    (let x := took (lanes23 { state := .up } { state := .quarantined }) (linkSlot 1 1 0)
     x.2.any (fun p => fld p 3 0 = 1 ∧ 2 / 2 * 2 + fld p 4 4 = 3) = true ∧ (x.1.ln 3).state ≠ .up) ∧
    (let x := (lanes23 { state := .quarantined } { state := .up }).accept 3 xtLink (linkSlot 1 1 0)
     x.2.any (fun p => fld p 3 0 = 1 ∧ 3 / 2 * 2 + fld p 4 4 = 3) = true ∧ (x.1.ln 3).state = .up ∧ x.1.partner 3 = some 2 ∧ (x.1.ln 2).state = .quarantined ∧ ¬ (3 < 2)) ∧
    (let s : State := { lanes23 { state := .up } { state := .quarantined } with tps := [(2, { link := { quarFirst := some (3, 9) } })] }
     let x := took s (linkSlot 1 0 0 9)
     x.2.any (fun p => fld p 3 0 = 1 ∧ 2 / 2 * 2 + fld p 4 4 = 2) = true ∧ x.1.partner 2 = some 3 ∧ (x.1.ln 2).state = .up ∧ (x.1.ln 3).state = .quarantined ∧
       2 < 3 ∧ (x.1.tp (x.1.tpOf 2)).link.quarFirst = some (3, 9)) ∧
    (let x := took (lanes23 { state := .up } { state := .down }) (linkSlot 1 0 0)
     x.2.isSome = true ∧ x.1.partner 2 = some 3 ∧ (x.1.ln 3).state ≠ .up ∧ (x.1.ln 3).state ≠ .quarantined) ∧
    (let x := (withLane up { state := .up }).accept 0 xtLink (linkSlot 1 0 0); x.2.isSome = true ∧ x.1.partner 0 = none) ∧
    (let x := took (lanes23 { state := .up } { state := .up }) (linkSlot 3 0 70)
     x.2.any (fun p => fld p 3 0 = 3 ∧ fld p 55 8 = 70) = true ∧
       (x.1.lanesOf (x.1.tpOf 2)).find? (fun k => (x.1.ln k).state == .rejoining && (x.1.ln k).proposing && (x.1.ln k).switchSn.toNat == 70) = none) ∧
    (let x := took (lanes23 { state := .up } { state := .rejoining, proposing := true, switchSn := 70 }) (linkSlot 3 0 70)
     x.2.any (fun p => fld p 3 0 = 3 ∧ fld p 55 8 = 70) = true ∧
       (x.1.lanesOf (x.1.tpOf 2)).find? (fun k => (x.1.ln k).state == .rejoining && (x.1.ln k).proposing && (x.1.ln k).switchSn.toNat == 70) = some 3) := by
  decide +kernel
/-- A Lane Service Reset that waits on lane 2. -/
def waitsLane : Cmd := { cmd 0 (ent 0x21 0 0 0 2) with stage := .service }
theorem test_hyp_LanesFailAndRejoin_rejoin :
    (let s := lanes23 { state := .quarantined, trained := true } { state := .up }
     s.lanePresent 2 = true ∧ (s.ln 2).state = .quarantined ∧ (s.ln 2).trained = true ∧ (s.ln 2).held = false ∧ s.partner 2 = some 3 ∧ (s.ln 3).state = .up) ∧
    ((learning .quarantined).ln 2).trained = false ∧
    (∀ k ∈ [0, 2, 3], let s := lanes23 { state := .rejoining, proposing := true, proposals := k } { state := .up }
      s.lanePresent 2 = true ∧ (s.ln 2).state = .rejoining ∧ (s.ln 2).proposing = true ∧ (s.ln 2).proposals = k) ∧
    ((lanes23 { state := .rejoining } {}).ln 2).proposing = false ∧
    ((up.cmdsWhere fun c => c.stage == .service && c.entry.op == 0x21 && c.unit == 2) = []) ∧
    (((withCmd up waitsLane).cmdsWhere fun c => c.stage == .service && c.entry.op == 0x21 && c.unit == 2) = [waitsLane]) ∧
    (up.tpExists 0 = true ∧ up.wclkRate 0 = 0 ∧ (up.tp 0).link.wclk = 0 ∧ up.tpExists 3 = false) ∧
    ((withTp up { mot := { state := .streaming }, fe := { speedRaw := 5 } }).wclkRate 0 ≠ 0) ∧ (((withTp up { link := { wclk := 5 } }).tp 0).link.wclk ≠ 0) := by decide +kernel

def lsCmd (n a : Nat) : Cmd := cmd 0 (ent 0x21 0 0 0 (mkw [(0, n), (8, a)]))
theorem test_hyp_LaneServiceActsOnItsLane :
    (∀ a ∈ List.range 5, let s := withCmd up (lsCmd 8 a); s.serviceCmd 0x21 a = some (lsCmd 8 a) ∧ s.lsOk (lsCmd 8 a) = false) ∧
    (∀ a ∈ [1, 2], let s := withCmd (lanes23 { state := .up } { state := .down }) (lsCmd 2 a)
      s.serviceCmd 0x21 a = some (lsCmd 2 a) ∧ s.lsOk (lsCmd 2 a) = true ∧ s.mayQuarantine 2 = false) ∧
    (∀ a ∈ List.range 5, let s := withCmd (lanes23 { state := .up } { state := .up }) (lsCmd 2 a)
      s.serviceCmd 0x21 a = some (lsCmd 2 a) ∧ s.lsOk (lsCmd 2 a) = true ∧ s.mayQuarantine 2 = true) ∧
    (∀ a ∈ List.range 5, let s := withCmd (withLane up { state := .up }) (lsCmd 0 a)
      s.serviceCmd 0x21 a = some (lsCmd 0 a) ∧ s.lsOk (lsCmd 0 a) = true ∧ s.mayQuarantine 0 = true) ∧
    (let s := lanes23 { state := .quarantined } { state := .up }; (s.ln 2).state = .quarantined ∧ s.mayQuarantine 2 = true) ∧
    (let s := lanes23 { state := .down, held := true } {}; (s.ln 2).held = true ∧ (s.ln 2).state = .down) := by decide +kernel

def csCmd (ch a : Nat) : Cmd := cmd 0 (ent 0x22 0 0 0 (mkw [(8, ch), (16, a)]))
def withChan (x : Chan) (others : List Nat := []) (writes : Bool := false) : State :=
  withTp up { rc := { chans := (4, x) :: others.map fun k => (k, { state := .out }) }, fmt := { writing := writes },
              mot := { state := if writes then .streaming else .parked } }
def csOf (s : State) (a : Nat) : Option Cmd := s.fetched fun c => c.u == 0 && c.q == 0 && c.entry.op == 0x22 && c.chanAction == a
theorem test_hyp_ChannelServiceActsOnItsChannel :
    (∀ a ∈ List.range 4, csOf up a = none) ∧
    (∀ a ∈ List.range 4, csOf (withCmd up (csCmd 32 a)) a = some (csCmd 32 a) ∧ (withCmd up (csCmd 32 a)).csOk (csCmd 32 a) = false) ∧
    (∀ a ∈ List.range 4, ∀ w, ∀ st ∈ [ChanState.inService, .out, .outHeld], let s := withCmd (withChan { state := st } [] w) (csCmd 4 a)
      csOf s a = some (csCmd 4 a) ∧ s.csOk (csCmd 4 a) = true ∧ (s.chan 0 4).state = st ∧ (s.chan 0 4).leaving = none ∧ s.outCount 0 < 4 ∧ s.writesNow 0 = w) ∧
    (let s := withCmd (withChan {} [5, 6, 7, 8]) (csCmd 4 1); s.csOk (csCmd 4 1) = true ∧ (s.chan 0 4).state = .inService ∧ 4 ≤ s.outCount 0) ∧
    ((withChan { leaving := some true }).chan 0 4).leaving ≠ none := by decide +kernel

/-! Frames and express words. -/

/-- A frame whose header check passes. -/
def frameOf (w0 w1 w2 : Word) (tail : Nat := 0) : Frame :=
  ⟨w0, w1, w2, mkw [(0, tail), (32, crc32c (slice (wordsBytes [w0, w1, w2, mkw [(0, tail)]]) 0 28))], []⟩
def sampleF (sn : Nat) : Frame := frameOf (mkw [(0, 1), (8, 17)]) (mkw [(0, sn)]) 0
def controlF (temp vm vl clips : Nat) : Frame := frameOf (mkw [(0, 3), (8, 1)]) (mkw [(0, temp), (16, vm), (32, vl)]) (mkw [(0, clips)])
def mgmtF (resp : Bool) (tag : Nat) : Frame := frameOf (mkw [(0, 4), (8, 1), (24, b2n resp), (32, tag)]) 0 0
/-- Lane 0 Up, with parts of its transport. -/
def linked (x : Transport) (st : LaneState := .up) : State := { up with lanes := [(0, { state := st })], tps := [(0, x)] }
theorem test_hyp_FramesAreTakenOrCounted_headers : up.lanePresent 8 = false ∧ up.lanePresent 0 = true ∧
    frameOk { sampleF 7 with w3 := 0 } = false ∧ frameOk (frameOf (mkw [(0, 1), (8, 16)]) 0 0) = false ∧ frameOk (frameOf (mkw [(0, 2), (8, 1)]) 0 0) = false ∧
    (frameOk (sampleF 7) = true ∧ fld (sampleF 7).w0 7 0 = 1) ∧ (frameOk (controlF 0 0 0 5) = true ∧ fld (controlF 0 0 0 5).w0 7 0 = 3) ∧
    (frameOk (mgmtF true 4) = true ∧ fld (mgmtF true 4).w0 7 0 = 4) ∧
    (((linked {} .quarantined).ln 0).state ≠ .up ∧ ((linked {} .quarantined).ln 0).state ≠ .rejoining) ∧ ((linked {}).ln 0).state = .up ∧
    ((linked {} .rejoining).ln 0).state = .rejoining := by decide +kernel
theorem test_hyp_FramesAreTakenOrCounted_lost :
    (∀ sn ∈ [4, 9], let s := linked { link := { snNext := 9, snMissing := [4] } }
      s.tpExists 0 = true ∧ (sn ∈ (s.tp 0).link.snMissing ∨ sn = (s.tp 0).link.snNext) ∧ s.upLanes 0 = [0]) ∧
    (let s := linked { link := { snNext := 9, snMissing := [4] } }; ¬ (5 ∈ (s.tp 0).link.snMissing ∨ 5 = (s.tp 0).link.snNext)) ∧ up.upLanes 0 = [] ∧
    (∀ sn ∈ [0, 1], let s : State := { lanes23 { state := .up } { state := .up } with tps := [(2, { link := { snNext := 2, snMissing := [0, 1] } })] }
      s.tpExists 2 = true ∧ sn ∈ (s.tp 2).link.snMissing ∧ s.upLanes 2 = [2, 3] ∧ (if s.isPaired 2 then 2 + sn % 2 else 2) = 2 + sn) := by decide +kernel
theorem test_hyp_FramesAreTakenOrCounted_requests :
    (let l := ((linked {}).tp 0).link; l.outstanding 4 = none) ∧
    (∀ k ∈ [0, 1, 2], let l := ((linked { link := { mgmt := [⟨4, 1, 0, [], k, 0⟩] } }).tp 0).link
      l.outstanding 4 = some ⟨4, 1, 0, [], k, 0⟩ ∧ bit (mgmtF true 4).w0 24 = true ∧ fld (mgmtF true 4).w0 47 32 = 4) ∧
    (((linked {}).mot 0).state ≠ .loading ∧ ((linked { mot := { state := .loading } }).mot 0).state = .loading) ∧ bit (mgmtF false 4).w0 24 = false := by
  decide +kernel

def xslot (ty : Nat) (p : Word) : XSlot := slotOf (xword ty 0 p)
def gives (s : State) (n ty : Nat) (p : Word) : Option Word := (s.accept n ty (xslot ty p)).2
theorem test_hyp_WordsOfTheFrontEndAct :
    (∀ ty ∈ [1, 2, 3, 4], ((linked {}).accept 0 ty (slotOf 0)).2 = none ∧ gives (linked {} .quarantined) 0 ty 5 = none ∧ gives (linked {}) 0 ty 5 = some 5 ∧
      gives (linked {} .rejoining) 0 ty 5 = some 5 ∧ ((linked {}).accept 0 (5 - ty) (xslot ty 5)).2 = if ty = 5 - ty then some 5 else none) ∧
    (∀ ty ∈ [1, 2, 3, 4], gives (linked { link := { rxRecent := [(ty, 0, 0)] } }) 0 ty 5 = none) ∧
    ((linked {}).accept 0 1 (xslot 1 (mkw [(48, 3), (53, 9)]))).2.isSome = true ∧ ((linked {}).accept 0 2 (xslot 2 5)).2.isSome = true ∧
    (let x := (linked { mot := { state := .streaming } }).accept 0 3 (xslot 3 (mkw [(48, 1)])); x.2.any (bit · 48) = true ∧ (x.1.mot 0).state ≠ .outOfService) ∧
    (let x := (linked { mot := { state := .outOfService } }).accept 0 3 (xslot 3 (mkw [(48, 1)])); x.2.any (bit · 48) = true ∧ (x.1.mot 0).state = .outOfService) ∧
    ((gives (linked {}) 0 3 0).any (fun p => bit p 48 = false) = true) ∧
    (∀ w ∈ [0, 0x200, 0x400], let x := (linked {}).accept 0 4 (xslot 4 (BitVec.ofNat 64 (w + 16 * 65536)))
      x.2.any (fun p => bit p 12 = false ∧ (fld p 31 16 + 65536 - (x.1.ln 0).rxUncorr.toNat) % 65536 = 16) = true ∧
        (((x.1.ln 0).window.filter fun k => decide (0 < k + 1048576)) ++ List.replicate (min 17 16) 0).length ≤ 16) ∧
    (let x := (linked {}).accept 0 4 (xslot 4 (BitVec.ofNat 64 (0x1000 + 17 * 65536)))
     x.2.any (fun p => bit p 12 = true ∧ (fld p 31 16 + 65536 - (x.1.ln 0).rxUncorr.toNat) % 65536 = 17) = true ∧
       16 < (((x.1.ln 0).window.filter fun k => decide (0 < k + 1048576)) ++ List.replicate (min 17 17) 0).length) := by decide +kernel

/-! The control engine. -/

/-- Slot `k` of transport 0. -/
def withSlot (k : Nat) (z : Slot) (m : Motion := { state := .streaming, vel := 1000 }) (others : Tab Slot := []) : State :=
  withTp up { mot := m, slots := Tab.set k z others }
def runW0 (input : Nat := 0) : Word := mkw [(0, 1), (8, input), (40, 3)]
theorem test_hyp_SlotsReleaseRunAndCommit :
    (¬ (8 < 8) ∧ (withSlot 5 {}).slotRuns 0 5 = false) ∧
    (∀ rel, let s := withSlot 5 { w0 := runW0, released := rel }; s.slotRuns 0 5 = true ∧ (s.slot 0 5).released = rel ∧ s.jobAhead 0 5 = false) ∧
    (let s := withSlot 5 { w0 := runW0, released := true } {} [(4, { w0 := runW0, released := true })]; (s.slotRuns 0 4 = false ∧ s.jobAhead 0 5 = false)) ∧
    (let s := withSlot 6 { w0 := runW0, released := true } { state := .streaming } [(5, { w0 := runW0, released := true })]; s.jobAhead 0 6 = true) ∧
    (∀ src ∈ [6, 7], let s := withSlot 5 { w0 := runW0 (0x10 + src), released := true } {} [(src, { w0 := runW0, hold := true })]
      s.slotRuns 0 5 = false) ∧
    (∀ slow, let s := withTp up { mot := { state := .parked, vel := 0 }, slots := [(2, { w0 := runW0 ||| 2, released := true, sensorless := true })],
                                  fe := { speedRaw := if slow then 0 else 65535 }, gu := { ratioA := 0xFFFFFFFF } }
      s.slotRuns 0 2 = true ∧ (s.slot 0 2).sensorless = true ∧ s.reelSlow 0 2 = slow) ∧
    (up.tpExists 3 = false ∧ ((withTp up { ld := { resetting := true } }).tp 0).ld.resetting = true ∧ up.tpExists 0 = true ∧ ((withSlot 5 {}).tp 0).ld.resetting = false) ∧
    (let z := (withSlot 5 {}).slot 0 5; coefFirstBad z.w0 z.shadow = none) ∧
    (let z := (withSlot 5 { shadow := [0x10000] }).slot 0 5; coefFirstBad z.w0 z.shadow = some 2) := by decide +kernel
theorem test_hyp_LostFeedbackIsAnswered :
    (∀ rel, ((withSlot 7 { released := rel }).slot 0 7).released = rel ∧ 7 < 8) ∧
    ((withSlot 5 {}).slotRuns 0 5 = false ∧ (withSlot 5 { w0 := runW0 }).slotRuns 0 5 = true) ∧
    (∀ n ∈ [2, 3], let s := withSlot 5 { w0 := runW0, sameRun := n, out := 1 }; let z := s.slot 0 5
      s.slotRuns 0 5 = true ∧ 3 < 5 ∧ 0 < loopFreezeM z.w0 ∧ (decide (loopFreezeM z.w0 ≤ z.sameRun) = decide (n = 3)) ∧
        ((loopFreezeThr z.w1 : Nat) : Int) < (z.out.natAbs : Int)) ∧
    (∀ v ∈ [999, 1000], let s := withSlot 2 { w0 := runW0, sameRun := 3, out := 1 } { state := .streaming, vel := v }
      s.slotRuns 0 2 = true ∧ ¬ (3 < 2) ∧ (decide (1000 ≤ (s.mot 0).vel.natAbs) = decide (v = 1000))) ∧
    (∀ b, ((withSlot 0 { hold := b }).slot 0 0).hold = b) ∧ up.tpExists 3 = false ∧
    (∀ b, ((withTp up { gu := { permit := b } }).tp 0).gu.permit = b) ∧
    (let s := withSlot 5 {}; ¬ ((s.slot 0 2).sensorless = true ∨ (s.slot 0 3).sensorless = true ∨ (s.slot 0 4).fault = true)) ∧
    (∀ g ∈ [StopGoal.parked, .outOfService 3], let s := withSlot 2 { sensorless := true } { state := .stopping, stopGoal := g }
      (s.slot 0 2).sensorless = true ∧ (s.mot 0).state = .stopping ∧ (s.mot 0).stopGoal = g) ∧
    (((withSlot 4 { fault := true }).slot 0 4).fault = true ∧ ((withSlot 4 { fault := true }).mot 0).state ≠ .stopping) ∧
    (∀ st ∈ [TState.streaming, .unloading], ∀ k ∈ [0, 2, 3], let m := (withSlot 5 {} { state := st, vel := 1000, attempts := k }).mot 0
      m.state = st ∧ m.vel ≠ 0 ∧ m.servoAcquired = false ∧ (decide (3 ≤ max 1 m.attempts) = decide (k = 3))) ∧
    ((withSlot 5 {} { state := .parked }).mot 0).state = .parked := by decide +kernel

/-! Events, registers, power, epochs and the image. -/

theorem test_hyp_EventsAreCountedAndCleared : (∀ e ∈ [0, 12, 32, 63, 64, 94, 384, 511], evReserved e = false) ∧ (∀ e ∈ [13, 31, 95, 512], evReserved e = true) ∧
    (inPs 0).pm.state ≠ 3 ∧ (inPs 3).pm.state = 3 ∧ up.reach 0 = true ∧ 7 < 8 ∧
    (((up.raise 5).clearEv 6).evSrc 5).sts = true ∧ 6 ≠ 5 := by decide +kernel

/-- A TLP that writes one whole register. -/
def wr (bar off : Nat) (value : Word) : RegWrite := ⟨0, bar, off, (wordBytes value).map fun b => (b, true)⟩
def oneReg (w : RegWrite) (off : Nat) (value : Word) : Prop :=
  tlpUnits (w.bytes.length / 4 + 1) w.offset w.bytes = some [(off, fld value 31 0), (off + 4, fld value 63 32)]
theorem test_hyp_RegisterAndConfigurationWrites_rows : State.reset.reach 0 = false ∧ (∀ k ∈ [2, 3], (inPs k).reach 0 = true ∧ (inPs k).pm.state = k) ∧ (inPs 1).pm.state < 2 ∧
    ((bit 2 1 = true ∧ evTen 0 1 = 385) ∧ fld (mkw [(32, 5), (41, 1)]) 40 32 = 5 ∧ bit (mkw [(32, 5), (41, 1)]) 41 = true ∧ (up.evSrc 5).owner = 0) ∧
    (¬ ((∃ k, k < 8 ∧ 5 = evTen 0 k ∧ bit (2 : Word) k = true) ∨ (5 = fld (2 : Word) 40 32 ∧ bit (2 : Word) 41 = true ∧ (up.evSrc 5).owner = 0))) ∧
    ((lacks (bit28 rdSACHET)).ready rdSACHET = false) ∧ (∀ e ∈ up.sachet.ring, e.held ≠ some (4 : Word).toNat ∨ e.done = true) ∧
    (let s : State := { up with sachet := { ring := [⟨9, 1, [], 0, true, some 4, false⟩] } }
     s.reach 0 = true ∧ s.ready rdSACHET = true ∧ (4 : Word) ≠ 0 ∧ ∃ e ∈ s.sachet.ring, e.held = some (4 : Word).toNat ∧ e.done = false) := by
  refine ⟨by decide +kernel, by decide +kernel, by decide +kernel, by decide +kernel, ?_, by decide +kernel, by decide +kernel, by decide +kernel⟩
  rintro (⟨k, hk, h, -⟩ | ⟨h, -⟩)
  · simp only [evTen] at h
    omega
  · exact absurd h (by decide)
theorem test_hyp_RegisterAndConfigurationWrites_registers :
    (∀ x ∈ ([(2, 0x01018, 1), (2, 0x01020, 90), (2, 0x02810, 0x100), (2, 0x12010, 4), (0, 0x0010, 1), (0, 0x0010, 0), (0, 0x0050, 3), (2, 0x04000, 1),
        (2, 0x04038, 1), (2, 0, 9), (0, 0, 9)] : List (Nat × Nat × Word)),
      let w := wr x.1 x.2.1 x.2.2
      up.reach w.fn = true ∧ (w.bar = 0 ∨ (w.bar = 2 ∧ w.fn = 0)) ∧ w.offset % 4 = 0 ∧ up.pm.state ≠ 3 ∧
        tlpUnits (w.bytes.length / 4 + 1) w.offset w.bytes = some [(x.2.1, fld x.2.2 31 0), (x.2.1 + 4, fld x.2.2 63 32)] ∧ x.2.1 % 8 = 0) ∧
    up.reach 5 = false ∧ (wr 1 0 0).bar ≠ 2 ∧ (wr 0 2 0).offset % 4 ≠ 0 ∧ tlpUnits 2 0 [(0, true), (0, true), (0, false), (0, true)] = none := by
  decide +kernel
/-- In safe mode, with an NVM. -/
def safeNvm (nvm : List Host.Cell) : State := { bare nvm with image := { nvm := nvm, safe := true } }
theorem test_hyp_RegisterAndConfigurationWrites_configuration : State.reset.on = false ∧ (bare []).pins.perstN = true ∧
    ((bare []).on = true ∧ (bare []).pm.state ≠ 3 ∧ (bare []).earlyDone = false) ∧
    (CfgReg.vfOffset = .vfOffset ∧ CfgReg.vfStride = .vfStride ∧ CfgReg.interruptPin = .interruptPin ∧ CfgReg.deviceControl2 = .deviceControl2 ∧
      CfgReg.sriovControl = .sriovControl ∧ CfgReg.bar0 = .bar0 ∧ CfgReg.aerUncorrectable = .aerUncorrectable ∧ CfgReg.aerCorrectable = .aerCorrectable) ∧
    (up.on = true ∧ up.pins.perstN = true ∧ up.pm.state ≠ 3 ∧ up.earlyDone = true ∧ up.fnExists 0 = true ∧ up.fnExists 16 = false ∧ up.image.safe = false) ∧
    (((safeNvm []).earlyDone = true ∧ (safeNvm []).image.safe = true) ∧
    (let s : State := { up with image := { up.image with early := { totalVfs := 3 } }, dev := { ready := 0xFFFFFFF, vfEnable := true, numVfs := 3 } }
     s.earlyDone = true ∧ s.fnExists 3 = true ∧ s.fnExists 4 = false)) := by decide +kernel

theorem test_hyp_PowerStatesEnterAndExit_cut :
    (∀ x ∈ ([(0, .policy), (1, .doorbell), (2, .tlp)] : List (Nat × WakeCause)), let s := inPs x.1
      s.pm.cut = none ∧ (s.modPm fun p => { p with cut := some x.2 }).pm.cut = some x.2 ∧ wakeValid s.pm.state x.2 = false ∧
        s.entryDue (s.pm.state + 1) = true ∧ wakeValid (s.pm.state + 1) x.2 = true ∧ wakeValid (s.pm.state + 1) .perst = (x.1 == 2)) ∧
    ((inPs 3).entryDue 4 = false ∧ (inPs 0 true).entryDue 1 = false) := by decide +kernel
theorem test_hyp_PowerStatesEnterAndExit :
    (up.on = true ∧ up.image.loaded = true ∧ up.pm.state = 0 ∧ up.pm.exiting = false ∧ bit up.cfg.pwr0 0 = true ∧ up.ps1Cond = true ∧ fld up.cfg.pwr0 31 16 ≤ up.pm.idle1) ∧
    (let s := inPs 1; s.pm.state = 1 ∧ s.pm.exiting = false ∧ bit s.cfg.pwr0 1 = true ∧ s.ps1Cond = true ∧ s.ps2Cond = true ∧
      fld s.cfg.pwr0 47 32 * 1000 ≤ s.pm.idle2) ∧
    (let s := inPs 2; s.pm.state = 2 ∧ s.pm.exiting = false ∧ bit s.cfg.pwr0 2 = true ∧ s.ps2Cond = true ∧ s.ps3Cond = true ∧
      fld s.cfg.pwr0 63 48 * 1000 ≤ s.pm.idle3 ∧ s.lanePresent 7 = true) ∧
    ((inState .streaming).ps1Cond = false ∧ (inState .parked).ps1Cond = true ∧ (inState .parked).ps2Cond = false ∧ (inState .relaxed).ps2Cond = true ∧
      (inState .relaxed).ps3Cond = false ∧ (inState .unloaded).ps3Cond = true) ∧
    (wakeValid (inPs 1).pm.state .transportRequest = true ∧ wakeValid (inPs 3).pm.state .perst = true ∧ wakeValid (inPs 3).pm.state .doorbell = false) ∧
    (wakeValid 1 .transportRequest = true ∧ wakeValid 2 .doorbell = true ∧ wakeValid 3 .tlp = true ∧ (wakeValid 1 .tlp = false ∧ wakeValid 0 .tlp = false) ∧
      (wakeValid 2 .perst = false ∧ wakeValid 1 .perst = false)) ∧
    (∀ k ∈ [0, 1, 2], let s : State := { inPs k true with pins := { porN := true, perstN := true, clkreqN := false } }
      s.pm.state = k ∧ s.pm.state ≠ 3 ∧ s.pins.clkreqN = false ∧ s.pm.exiting = true ∧ s.pm.held = [] ∧ s.gpio.held = []) ∧
    (∀ k ∈ [0, 1, 2, 3], (inPs k true).pm.state = k ∧ (inPs k true).pm.exiting = true ∧ (inPs k true).pm.held = [] ∧ (inPs k true).gpio.held = []) ∧
    (inPs 2).pm.exiting = false ∧
    (∀ x ∈ ([(0, false), (1, true)] : List (Nat × Bool)), let c := cmd 0 (ent 0x30 0 0 0 (BitVec.ofNat 64 x.1) 6); let s := withCmd (inPs 1) c
      s.adminCmd 0 0x30 = some c ∧ c.entry.noData = true ∧ (decide (c.entry.w4 = 0) = !x.2) ∧ pwrOk c.entry.w5 c.entry.w6 = true ∧ s.pm.state ≠ 0 ∧
        bit c.entry.w5 (s.pm.state - 1) = false) ∧
    (let c := cmd 0 (ent 0x30 0 0 0 0 7); (withCmd (inPs 1) c).adminCmd 0 0x30 = some c ∧ c.entry.headOk false false = true ∧ c.entry.w7 = 0 ∧
      pwrOk c.entry.w5 c.entry.w6 = true ∧ bit c.entry.w5 ((inPs 1).pm.state - 1) = true) := by decide +kernel

def pooled (ps : Nat) : State := { inPs ps with bm := { segTotal := 100, shared := 90, sharedFree := 90, retired := 1 } }
theorem test_hyp_EpochsAndCommitsRunOnTime_ticks : State.reset.on = false ∧ up.on = true ∧ up.bm.segTotal = 0 ∧ (0 < (pooled 2).bm.segTotal ∧ (pooled 2).pm.state < 3) ∧
    3 ≤ (pooled 3).pm.state ∧
    (∀ b, let s := withTp up { mot := { state := .parked, idleMs := 1000 }, gov := { burst := b } }; let lim := fld s.cfg.pwr1 15 0
      s.tpExists 0 = true ∧ (s.mot 0).state = .parked ∧ lim ≠ 0 ∧ lim * 1000 ≤ (s.mot 0).idleMs ∧
        ¬ (s.startDue 0 = true ∧ s.mayMove 0 = true ∧ s.writable 0 = true ∧ (s.tp 0).gov.burst = true)) ∧
    (let s := withTp up { mot := { state := .parked, idleMs := 999 } }; ¬ fld s.cfg.pwr1 15 0 * 1000 ≤ (s.mot 0).idleMs) ∧
    (let s := rolling { state := .parked, idleMs := 1000 } { sets := [⟨aDataset, 0, 0, true⟩] } false none { burst := true }
     s.startDue 0 = true ∧ s.mayMove 0 = true ∧ s.writable 0 = true ∧ (s.tp 0).gov.burst = true) ∧
    (up.on = true ∧ up.image.loaded = true ∧ up.pm.state ≠ 3 ∧ up.stats.holding = none ∧ up.stats.openUs + up.stats.epochMs * 1000 ≤ 60000000) ∧ (bare []).image.loaded = false ∧
    (let s : State := { up with stats := { holding := some {}, openUs := 5 } }; s.stats.holding = some {} ∧ ¬ s.stats.openUs + s.stats.epochMs * 1000 ≤ 4) := by decide +kernel
theorem test_hyp_EpochsAndCommitsRunOnTime_commits : (lacks (bit28 rdSACHET)).ready rdSACHET = false ∧ up.ready rdSACHET = true ∧ up.sachet.journal.length < 65536 ∧
    (let s : State := { up with sachet := { journal := List.replicate 65536 ⟨0, 0, false, 0, 0, true⟩ } }; s.ready rdSACHET = true ∧ 65536 ≤ s.sachet.journal.length) :=
  ⟨by decide +kernel, by decide +kernel, by decide +kernel, by decide +kernel, by simp only [List.length_replicate]; omega⟩

def iw (len : Nat) (w4 : Word) : Cmd := cmd 0 (ent 0x28 0 len 1 w4)
def ia (b : Nat) : Cmd := cmd 0 (ent 0x29 0 0 0 (BitVec.ofNat 64 b))
theorem test_hyp_ImageCommandsWriteAndCheck_write :
    (∀ q ∈ [3, 4], ({ up with dev := { quiesced := q } } : State).dev.quiesced = q) ∧ (up.dev.quiesced ≠ 3 ∧ up.dev.quiesced ≠ 4) ∧
    (∀ c ∈ [iw 65536 0, iw 65536 (mkw [(32, 1)]), iw 1048576 1, iw 65536 (mkw [(0, 1), (32, 16777216 - 65536)]), iw 131072 (mkw [(32, 16777216 - 65536)])],
      (withCmd up c).imageCmd 0x28 = some c ∧ (withCmd up c).loading = false ∧ (withCmd (bare []) c).imageCmd 0x28 = some c ∧
        (withCmd (bare []) c).loading = true ∧ c.entry.headOk false false = true ∧ c.entry.dataOk ⟨[], []⟩ = true ∧ fld c.entry.w4 31 1 = 0 ∧
        c.entry.w5 = 0 ∧ c.entry.w6 = 0 ∧ c.entry.w7 = 0 ∧ fld c.entry.w4 63 32 < 16777216 ∧ c.entry.len % 65536 = 0 ∧ 65536 ≤ c.entry.len ∧
        c.entry.len ≤ 1048576) ∧
    (∀ c ∈ [iw 65536 0, iw 1048576 1, iw 65536 (mkw [(0, 1), (32, 16777216 - 65536)])],
      fld c.entry.w4 63 32 % 65536 = 0 ∧ fld c.entry.w4 63 32 + c.entry.len ≤ 16777216) ∧
    (fld (iw 65536 (mkw [(32, 1)])).entry.w4 63 32 % 65536 ≠ 0) ∧
    (let c := iw 131072 (mkw [(32, 16777216 - 65536)]); ¬ fld c.entry.w4 63 32 + c.entry.len ≤ 16777216) ∧
    Memory.wf (withCmd up (iw 65536 0)).image.nvm := by decide +kernel
theorem test_hyp_ImageCommandsWriteAndCheck_activate :
    (∀ b ∈ [0, 1, 2], (withCmd (safeNvm []) (ia b)).imageCmd 0x29 = some (ia b) ∧ (withCmd (safeNvm []) (ia b)).loading = false ∧
      (withCmd (bare []) (ia b)).loading = true ∧ (ia b).entry.headOk false false = true ∧ (ia b).entry.noData = true ∧ (ia b).entry.w5 = 0 ∧
      (decide (fld (ia b).entry.w4 63 1 = 0) = decide (b < 2))) ∧
    (chkCopy none none none ((safeNvm []).copyBytes false) = .error (1, 0) ∧ chkCopy none none none ((safeNvm []).copyBytes true) = .error (1, 0)) := by
  refine ⟨by decide +kernel, ?_, ?_⟩
  · have e : chkHeader false ((safeNvm []).copyBytes false 0x40) = .error (1, 0) := by decide +kernel
    unfold chkCopy
    simp [e]
  · have e : chkHeader false ((safeNvm []).copyBytes true 0x40) = .error (1, 0) := by decide +kernel
    unfold chkCopy
    simp [e]
theorem test_hyp_ImageCommandsWriteAndCheck_next :
    (let s := withCmd (safeNvm (nvmCells 0 img)) (ia 0)
     s.imageCmd 0x29 = some (ia 0) ∧ s.loading = false ∧ s.nextLoad [] = some false ∧
       ∃ x, chkCopy s.fuses.keyHash none (failAt [] false) (s.copyBytes false) = .ok x) ∧
    (let s := withCmd (safeNvm (nvmCells 0 img)) (ia 1)
     s.imageCmd 0x29 = some (ia 1) ∧ s.loading = false ∧ s.nextLoad [⟨true, 0⟩] = some false ∧
       chkCopy s.fuses.keyHash none (failAt [⟨true, 0⟩] true) (s.copyBytes true) = .error (0x0F, 0)) ∧
    (safeNvm []).nextLoad [] = none := by
  have a : ∀ c, (withCmd (safeNvm (nvmCells 0 img)) c).copyBytes false = imgRead := fun _ => bare_copyA
  have k : ∀ c, (withCmd (safeNvm (nvmCells 0 img)) c).fuses.keyHash = none := fun _ => rfl
  obtain ⟨x, hx⟩ := img_loads none (.inl rfl)
  have f : failAt [⟨true, 0⟩] false = none := by decide
  refine ⟨⟨by decide +kernel, by decide +kernel, ?_, x, ?_⟩, ⟨by decide +kernel, by decide +kernel, ?_, rfl⟩, ?_⟩
  · simp only [State.nextLoad, failAt, List.find?_nil, Option.map_none, k, a, hx]
    rfl
  · rw [a, k]
    exact hx
  · simp only [State.nextLoad, f, k, a, hx]
    rfl
  · have h := test_hyp_ImageCommandsWriteAndCheck_activate.2
    have k0 : (safeNvm []).fuses.keyHash = none := rfl
    have e : (safeNvm []).earlyOf [] false = .error (1, 0) := by decide +kernel
    simp only [State.nextLoad, failAt, List.find?_nil, Option.map_none, k0, h.1, e]
    simp [Except.toOption, h.2]

/-! The writer, the buffer and Function Level Resets. -/

def aBlock (stage : BlockStage) (raw : Bytes := List.replicate 40 7) : Block :=
  { ordinal := 0, raw := raw, start := 0, cut := 1, bseq := 1, foff := none, isRaw := true, body := [], iv := [], stored := [], placed := 0, dsns := [],
    stage := stage }
theorem test_hyp_BlocksAreCutCompressedAndSealed : up.vol? 1 = none ∧
    (∀ bs ∈ ([[], [7, 7]] : List Bytes), (withVol up { vol0 with opn := bs }).vol? 1 = some { vol0 with opn := bs }) ∧
    (Tab.has vol0.gaps (0#16).toNat = false ∧ Tab.has gapAhead.gaps (0#16).toNat = true) ∧
    (let w : Volume := { vol0 with gapWait := [(0, rec0 8)] }; (withVol up w).roomFor 1 64 = none ∧
      ((withVol up { w with spare := 64 }).roomFor 1 64).isSome = true ∧ w.gapWait ≠ []) ∧
    (up.dev.fatal.getLsbD 3 = false ∧ up.dev.fatal.getLsbD 4 = false) ∧
    (let s : State := { up with dev := { fatal := 0x18 } }; s.dev.fatal.getLsbD 3 = true ∧ s.dev.fatal.getLsbD 4 = true) := by decide +kernel
/-- A legal body of a repeating block: a literal, then a copy of it. -/
def bigRaw : Bytes := List.replicate 40 7
theorem test_hyp_CompressionIsLegalOrRaw :
    (let w : Volume := { vol0 with blocks := [aBlock .sealed, { aBlock .cut with ordinal := 1 }] }
     (withVol up w).vol? 1 = some w ∧ w.blocks.find? (fun b => b.stage == .cut) = some { aBlock .cut with ordinal := 1 } ∧
       (w.blocks.map (·.ordinal)).Nodup ∧ (withVol up w).cutBefore { aBlock .cut with ordinal := 1 } < 4) ∧
    (let w : Volume := { vol0 with blocks := (List.range 5).map fun k => { aBlock .cut with ordinal := k, cutNo := some k } }
     4 ≤ (withVol up w).cutBefore { aBlock .cut with ordinal := 4, cutNo := some 4 }) ∧ oaldoLegal bigRaw bigRaw = false ∧
    oaldoLegal bigRaw [0, 7, 0xA4, 0, 0, 0xFF] = true := by decide +kernel

def fillOf (n : Nat) : Fill := { dsn := 1, gpos := 0, regions := [{ (default : Region) with bytes := List.replicate n 0 }], index := [] }
def ivl (mask : BitVec 32) : IntervalRec :=
  { ord := 2, dsn := some 1, tmask := mask, p := 1, q := 0, v := 2, start := 0, stop := 9, reported := 0, rewrites := [], was := [], seen := [] }
theorem test_hyp_SeparatorsAndRowsDriveTheWriter_dataset : ((rolling {}).fmt 0).fill = none ∧
    (∀ b, let s := rolling { state := .streaming } { fill := some (fillOf 4), closing := b }; (s.fmt 0).fill = some (fillOf 4) ∧ s.closeEarly 0 = b) := by
  decide +kernel
/-- A user area with 652,800 bytes in it has no room. -/
theorem test_hyp_SeparatorsAndRowsDriveTheWriter_full (n : Nat) (hn : n = 652800) :
    let s := rolling { state := .streaming } { fill := some (fillOf n) }
    (s.fmt 0).fill = some (fillOf n) ∧ ∃ r ∈ (fillOf n).regions, s.userRoom 0 (fillOf n) r.vidx = 0 := by
  have h : ((fillOf n).regions.map fun r => r.bytes.length).sum = n := by
    simp only [fillOf, List.map_cons, List.map_nil, List.length_replicate, List.sum_cons, List.sum_nil, Nat.add_zero]
  refine ⟨rfl, _, List.mem_singleton.mpr rfl, ?_⟩
  simp only [State.userRoom, State.userUsed, h]
  omega
def gated (g : Guard) (st : TState := .streaming) : State :=
  { rolling { state := st, vel := 4000 } { writing := true } with tps := [(0, { mot := { state := st, vel := 4000 }, fmt := { writing := true }, gu := g })] }
theorem test_hyp_SeparatorsAndRowsDriveTheWriter_separator :
    (∀ st ∈ [TState.streaming, .unloading], ∀ g ∈ ([{ gate := true }, { permit := true, validRun := 5000 }, { permit := true }, {}] : List Guard), let s := gated g st
      (s.mot 0).state = st ∧ (s.mot 0).vel ≠ 0 ∧ (s.fmt 0).writing = true ∧ s.upLanes 0 ≠ [] ∧ s.dev.quiesced = 0 ∧ (s.tp 0).gu = g) ∧
    (({ permit := true, validRun := 5000 } : Guard).reopen ≤ 5000 ∧ 0 < ({ permit := true } : Guard).reopen) ∧ ((gated {} .parked).mot 0).state = .parked := by
  decide +kernel
theorem test_hyp_SeparatorsAndRowsDriveTheWriter_rows :
    (let s := rolling {} { intervals := [ivl 0xFFFFFFFE] }
     ((s.fmt 0).intervals.find? fun i => i.ord == 2 && !i.tmask.getLsbD 0) = some (ivl 0xFFFFFFFE) ∧
       ((s.fmt 0).intervals.find? fun i => i.ord == 2 && !i.tmask.getLsbD 31) = none ∧
       ((s.fmt 0).intervals.find? fun i => i.ord == 2 && decide (31 < 32) && decide (103 < 104)) = some (ivl 0xFFFFFFFE) ∧
       ((s.fmt 0).intervals.find? fun i => i.ord == 2 && decide (32 < 32) && decide (103 < 104)) = none ∧
       ((s.fmt 0).intervals.find? fun i => i.ord == 2 && decide (31 < 32) && decide (104 < 104)) = none) := by decide +kernel

theorem test_hyp_BufferErrorsRetireSegments : up.bm.segTotal = 0 ∧ (pooled 0).bm.segTotal ≠ 0 ∧
    (100 * (pooled 0).bm.retired ≤ (pooled 0).bm.segTotal ∧ (pooled 0).bm.segTotal < 100 * ((pooled 0).bm.retired + 1)) ∧
    (pooled 0).tpExists 0 = true ∧ (pooled 0).tpExists 3 = false ∧ (pooled 0).vol? 1 = none ∧
    (∀ x ∈ ([([], 5), ([0], 0), ([1], 65536)] : List (List Nat × Nat)), let w : Volume := { vol0 with segs := x.1, bufPos := x.2 }; let k := x.1.headD 0
      (withVol (pooled 0) w).vol? 1 = some w ∧ (k ∉ w.segs ∨ w.bufPos ≤ 65536 * k)) ∧
    (∀ c ∈ [0, 99], let w : Volume := { vol0 with segs := [0], bufPos := 5, spare := 65531, claimed := c }
      (withVol (pooled 0) w).vol? 1 = some w ∧ 0 ∈ w.segs ∧ 65536 * 0 < w.bufPos ∧ (decide ((w.loseSeg 0).spare < w.claimed) = decide (c = 99))) := by
  decide +kernel
theorem test_hyp_FunctionLevelResetsClearTheTenant : State.reset.reach 0 = false ∧ up.reach 0 = true ∧ up.reach 3 = false ∧
    (let s : State := { up with image := { up.image with early := { totalVfs := 3 } }, dev := { ready := 0xFFFFFFF, vfEnable := true, numVfs := 3 } }
     0 < 3 ∧ 3 < 16 ∧ (none : Option Nat) = none ∧ some 0 = some 0 ∧ s.reach 3 = true ∧ s.reach 4 = false ∧ s.ready rdHOST = true) := by decide +kernel

end Sys2Proof.Tests
end

section
/-! PROOF. O17: the completion of Unit Not Ready (R46, R47). The entry's W1 is a word of fields that do not overlap, and what a completion does
before it posts leaves the tenants, the clocks and the outputs alone. -/

namespace Sys2Proof.Machine

/-! ### Words of fields -/

theorem fld_lt (w : Word) (hi lo : Nat) : fld w hi lo < 2 ^ (hi + 1 - lo) := Nat.mod_lt _ (by positivity)

@[simp] theorem mkw_nil : mkw [] = BitVec.ofNat 64 0 := rfl

theorem mkw_eq_ofNat_sum (fs : List (Nat × Nat)) : mkw fs = BitVec.ofNat 64 (fs.map fun f => f.2 * 2 ^ f.1).sum :=
  congrArg (BitVec.ofNat 64) (List.foldl_map.symm.trans List.sum_eq_foldl.symm)

/-- A word of fields is the sum of its fields. -/
theorem mkw_cons (p v : Nat) (fs : List (Nat × Nat)) : mkw ((p, v) :: fs) = BitVec.ofNat 64 (v * 2 ^ p) + mkw fs := by
  rw [mkw_eq_ofNat_sum, mkw_eq_ofNat_sum, List.map_cons, List.sum_cons, BitVec.ofNat_add]

/-- Bit `k` of a word: `d` stands at `k`, `lo` below it and `hi` above it. -/
theorem bit_ofNat_of_split {n k lo hi : Nat} {d : Bool} (hk : k < 64) (hlo : lo < 2 ^ k) (hn : n = 2 ^ k * (b2n d + 2 * hi) + lo) :
    bit (BitVec.ofNat 64 n) k = d := by
  rw [bit, BitVec.getLsbD_ofNat, hn, Nat.testBit_two_pow_mul_add _ hlo]
  cases d <;> simp [hk, b2n, Nat.testBit_zero]

/-! ### W1 of a completion entry (Table 06-2) -/

/-- W1 of a completion entry, before its phase. -/
def Cmd.completionW1 (c : Cmd) (st : Status) (result : Word) (hasDef : Bool) : Word :=
  mkw [(0, c.sqhd % 65536), (16, c.q % 65536), (32, fld c.entry.w0 31 16), (48, st.sc), (56, st.st),
    (59, b2n (st.dnr result)), (60, b2n hasDef), (61, b2n st.logged)]

/-- W1 of a completion entry as it is posted, with the phase of its pair. -/
def Cmd.postedW1 (c : Cmd) (st : Status) (result : Word) (hasDef phase : Bool) : Word :=
  c.completionW1 st result hasDef ||| mkw [(63, b2n phase)]

/-- Bit 59 of W1 is DNR, for a status whose code and type fit their fields. -/
theorem Cmd.bit_completionW1_dnr (c : Cmd) (st : Status) (result : Word) (hasDef : Bool) (hsc : st.sc < 2 ^ 8) (hst : st.st < 2 ^ 3) :
    bit (c.completionW1 st result hasDef) 59 = st.dnr result := by
  have hcid : fld c.entry.w0 31 16 < 2 ^ 16 := fld_lt _ _ _
  have hlo : c.sqhd % 65536 + c.q % 65536 * 2 ^ 16 + fld c.entry.w0 31 16 * 2 ^ 32 + st.sc * 2 ^ 48 + st.st * 2 ^ 56 < 2 ^ 59 := by omega
  simp only [completionW1, mkw_cons, mkw_nil, ← BitVec.ofNat_add]
  exact bit_ofNat_of_split (hi := b2n hasDef + b2n st.logged * 2) (by omega) hlo (by omega)

/-- The phase leaves DNR alone. -/
theorem Cmd.bit_postedW1_dnr (c : Cmd) (st : Status) (result : Word) (hasDef phase : Bool) (hsc : st.sc < 2 ^ 8) (hst : st.st < 2 ^ 3) :
    bit (c.postedW1 st result hasDef phase) 59 = st.dnr result := by
  have hphase : bit (mkw [(63, b2n phase)]) 59 = false := by cases phase <;> decide
  rw [← c.bit_completionW1_dnr st result hasDef hsc hst]
  simp only [bit, postedW1, BitVec.getLsbD_or] at hphase ⊢
  rw [hphase, Bool.or_false]

@[simp] theorem Status.dnr_unitNotReady (result : Word) : Status.unitNotReady.dnr result = !(bit result 8) := if_pos rfl

/-! ### Outputs of posting and signalling -/

/-- An MSI-X message takes no output away. -/
theorem State.mem_out_sendMsix {s : State} {o : Output} (fn vec : Nat) (h : o ∈ s.out) : o ∈ (s.sendMsix fn vec).out := by
  simp only [State.sendMsix]
  split
  · split <;> simp [h]
  · exact h

/-- A CQ's interrupt takes no output away. -/
theorem State.mem_out_signalCq {s : State} {o : Output} (u q : Nat) (h : o ∈ s.out) : o ∈ (s.signalCq u q).out := by
  simp only [State.signalCq]
  split
  · exact mem_out_sendMsix _ _ h
  · split
    · exact mem_out_sendMsix _ _ (by simpa using h)
    · simpa using h

@[simp] theorem State.postCqe_out (s : State) (u q : Nat) (w0 w1 : Word) :
    (s.postCqe u q w0 w1).out = s.out ++ [.completion u q (s.qp u q).cqTail w0 (w1 ||| mkw [(63, b2n (s.qp u q).phase)])] := by
  simp [State.postCqe]

/-! ### A completion, up to its posting -/

/-- Tenants and queue pairs are read off the tenant table. -/
theorem State.tn_congr {s t : State} (u : Nat) (ht : t.tenants = s.tenants) : t.tn u = s.tn u := by rw [State.tn, State.tn, ht]
theorem State.qp_congr {s t : State} (u q : Nat) (ht : t.tenants = s.tenants) : t.qp u q = s.qp u q := by
  rw [State.qp, State.qp, tn_congr u ht]

/-- Whether a completion can be posted is read off the tenants and the clocks. -/
theorem State.canPost_congr {s t : State} (u q : Nat) (ht : t.tenants = s.tenants) (hd : t.dev = s.dev) : t.canPost u q = s.canPost u q := by
  simp only [State.canPost, State.hasQp, State.clkLost, tn_congr u ht, hd]

/-- What a completion does before the Error Log and its posting: the command leaves the fetched list and failures are counted. -/
def State.dropAndCount (s : State) (c : Cmd) (st : Status) : State :=
  let s1 := s.dropCmd c.id
  let s2 := if st = Status.success then s1 else s1.stat (stTen c.u 2) 1
  if st = Status.unitNotReady then s2.stat (stTen c.u 11) 1 else s2

@[simp] theorem State.dropAndCount_tenants (s : State) (c : Cmd) (st : Status) : (s.dropAndCount c st).tenants = s.tenants := by
  simp only [State.dropAndCount]; split <;> split <;> simp
@[simp] theorem State.dropAndCount_dev (s : State) (c : Cmd) (st : Status) : (s.dropAndCount c st).dev = s.dev := by
  simp only [State.dropAndCount]; split <;> split <;> simp

/-- A completion whose status the Error Log does not ask for and whose entry can be posted. -/
theorem State.complete_eq_of_canPost (s : State) (c : Cmd) (st : Status) (r : Reply) (hlog : st.logged = false)
    (hpost : s.canPost c.u c.q = true) :
    s.complete c st r = (((s.dropAndCount c st).postCqe c.u c.q r.result
      (c.completionW1 st r.result (!(s.tn c.u).defLog.entries.isEmpty))).signalCq c.u c.q).rdyDown c.u := by
  have ht := s.dropAndCount_tenants c st
  have hpost' : (s.dropAndCount c st).canPost c.u c.q = true := by rw [canPost_congr _ _ ht (s.dropAndCount_dev c st), hpost]
  rw [← tn_congr c.u ht]
  simp only [State.dropAndCount] at hpost' ⊢
  simp [State.complete, hlog, Cmd.completionW1, hpost']

/-- Such a completion posts its entry at the CQ tail. -/
theorem State.completion_mem_out_complete (s : State) (c : Cmd) (st : Status) (r : Reply) (hlog : st.logged = false)
    (hpost : s.canPost c.u c.q = true) :
    .completion c.u c.q (s.qp c.u c.q).cqTail r.result
      (c.postedW1 st r.result (!(s.tn c.u).defLog.entries.isEmpty) (s.qp c.u c.q).phase) ∈ (s.complete c st r).out := by
  rw [complete_eq_of_canPost s c st r hlog hpost, rdyDown_out]
  apply mem_out_signalCq
  simp [qp_congr c.u c.q (s.dropAndCount_tenants c st), Cmd.postedW1]

/-- Settles O17: the entry posted has DNR at bit 59 of W1, and RETRY is bit 8 of its result (Table 03-6). -/
theorem unitNotReadyDnrInvertsRetry : Obligations.UnitNotReadyDnrInvertsRetry := by
  unfold Obligations.UnitNotReadyDnrInvertsRetry
  intro s c b hpost
  refine ⟨_, _, s.take.completion_mem_out_complete c .unitNotReady { result := s.notReadyResult b } rfl hpost, ?_⟩
  rw [Cmd.bit_postedW1_dnr _ _ _ _ _ (by decide) (by decide), Status.dnr_unitNotReady]

end Sys2Proof.Machine
end

section
/-! PROOF. O51: the status and COUNT of event sources (R335, R338). One equation per operation says what every source reads after it:
an occurrence, a clear, a clear of each source of a list, a write of EV_STS. -/

namespace Sys2Proof.Machine

/-! ### What a source reads -/

/-- A source is read off the event unit. -/
theorem State.evSrc_congr {s t : State} (d : Nat) (h : t.ev = s.ev) : t.evSrc d = s.evSrc d := by rw [State.evSrc, State.evSrc, h]

/-- In PS3 an occurrence is held and nothing else changes (R385). -/
theorem State.raise_of_ps3 (s : State) {e : Nat} (hr : evReserved e = false) (hp : s.pm.state = 3) :
    s.raise e = s.modPm fun p => { p with held := p.held ++ [e] } := by
  simp [State.raise, hr, hp]

/-- Outside PS3 an occurrence changes the event unit at its own source alone: a message to the owner and the statistics are elsewhere. -/
theorem State.raise_ev (s : State) {e : Nat} (hr : evReserved e = false) (hp : s.pm.state ≠ 3) :
    (s.raise e).ev = (s.modEvSrc e fun x => { x with sts := true, count := min 65535 (x.count + 1) }).ev := by
  simp only [State.raise, hr, hp, Bool.false_eq_true, if_false]
  split
  · rw [State.sendMsix_ev, State.stat_ev]
  · rw [State.stat_ev]

/-- An occurrence sets the status of its source and advances its COUNT; every other source reads as before. -/
theorem State.evSrc_raise (s : State) {e : Nat} (d : Nat) (hr : evReserved e = false) (hp : s.pm.state ≠ 3) :
    (s.raise e).evSrc d = if d = e then { s.evSrc e with sts := true, count := min 65535 ((s.evSrc e).count + 1) } else s.evSrc d := by
  rw [evSrc_congr d (s.raise_ev hr hp), evSrc_modEvSrc]

@[simp] theorem State.clearEv_pm (s : State) (e : Nat) : (s.clearEv e).pm = s.pm := rfl

/-- A clear takes the status and COUNT of its source to 0; every other source reads as before. -/
theorem State.evSrc_clearEv (s : State) (e d : Nat) :
    (s.clearEv e).evSrc d = if d = e then { s.evSrc d with sts := false, count := 0 } else s.evSrc d := by
  rw [State.clearEv, evSrc_modEvSrc]
  split
  · next h => rw [h]
  · rfl

/-! ### Several clears at once -/

/-- Clearing the sources that `f` gives for a list clears those and no other. -/
theorem State.evSrc_each_clearEv (s : State) (l : List Nat) (f : Nat → Nat) (d : Nat) :
    (s.each l fun s j => s.clearEv (f j)).evSrc d = if d ∈ l.map f then { s.evSrc d with sts := false, count := 0 } else s.evSrc d := by
  induction l generalizing s with
  | nil => rfl
  | cons j l ih =>
    have hstep : (s.each (j :: l) fun s j => s.clearEv (f j)) = (s.clearEv (f j)).each l fun s j => s.clearEv (f j) := rfl
    rw [hstep, ih, evSrc_clearEv]
    by_cases hj : d = f j <;> simp [hj]

/-- A TLP that wakes the part leaves the event unit alone. -/
@[simp] theorem State.tlp_ev (s : State) : s.tlp.ev = s.ev := by
  simp only [State.tlp, State.wake]
  (repeat' split) <;> rfl

/-- The sources whose bits are 1 in a value written to word `i` of EV_STS (R338). -/
theorem mem_evStsBits_iff (i d : Nat) (value : Word) :
    d ∈ ((List.range 64).filter fun j => bit value j).map (64 * i + ·) ↔ d / 64 = i ∧ bit value (d % 64) = true := by
  simp only [List.mem_map, List.mem_filter, List.mem_range]
  constructor
  · rintro ⟨j, ⟨hj, hbit⟩, rfl⟩
    have hdiv : (64 * i + j) / 64 = i := by omega
    have hmod : (64 * i + j) % 64 = j := by omega
    exact ⟨hdiv, hmod.symm ▸ hbit⟩
  · rintro ⟨rfl, hbit⟩
    exact ⟨d % 64, ⟨Nat.mod_lt _ (by decide), hbit⟩, Nat.div_add_mod d 64⟩

/-- A write of EV_STS clears each status written 1, with its COUNT. -/
theorem State.evSrc_evStsWrite (s : State) {i : Nat} (value : Word) (d : Nat) (hreach : s.reach 0 = true) (hi : i < 8) :
    (s.evStsWrite i value).evSrc d = if d / 64 = i ∧ bit value (d % 64) = true then { s.evSrc d with sts := false, count := 0 } else s.evSrc d := by
  have hguard : (!s.reach 0 || decide (8 ≤ i)) = false := by simp [hreach, hi]
  simp only [State.evStsWrite, hguard, Bool.false_eq_true, if_false, evSrc_each_clearEv, mem_evStsBits_iff, evSrc_congr d s.tlp_ev]

/-- The row EV_STS_CLEAR takes the effect of the write. -/
theorem takes_evStsClear (s : State) (i : Nat) (value : Word) : Safety.Takes (.evStsClear i value) s (s.evStsWrite i value) := rfl

/-- Settles O51: each clause reads one source after an occurrence, a clear, a clear and an occurrence, or a write of EV_STS. -/
theorem eventsAreCountedAndCleared : Obligations.EventsAreCountedAndCleared := by
  unfold Obligations.EventsAreCountedAndCleared
  intro s e
  refine ⟨fun hr hp => ?occurs, fun hr hp => s.raise_of_ps3 hr hp, ?stsClear, ?countClear, fun d hd => ?others, fun i value hreach hi => ?evSts⟩
  case occurs =>
    have hpc : (s.clearEv e).pm.state ≠ 3 := by rwa [State.clearEv_pm]
    rw [s.evSrc_raise e hr hp, (s.clearEv e).evSrc_raise e hr hpc, s.evSrc_clearEv]
    simp
  case stsClear => simp [State.evSrc_clearEv]
  case countClear => simp [State.evSrc_clearEv]
  case others => rw [State.evSrc_clearEv, if_neg hd]
  case evSts => exact ⟨_, takes_evStsClear s i value, fun d => s.evSrc_evStsWrite value d hreach hi⟩

end Sys2Proof.Machine
end

section
/-! PROOF. O1 to O5: what every step keeps. The rows of the table fall into the ordinary ones, which leave the fuses, the NVM and DV_FATAL as they
are, and three named kinds: the resets, the rows that can set a bit of DV_FATAL, and those in which an Image Write can run. -/

namespace Sys2Proof

/-- The rows in which an Image Write can run: its own, and those that end the load for which one may wait (R72). -/
def Instr.runsImageWrite : Instr → Bool
  | .imageWrite _ | .earlyBlockLoaded _ | .imageLoadComplete _ => true
  | _ => false

/-- The rows that reset the part's domains, and with them DV_FATAL. -/
def Instr.resetsFatal : Instr → Bool
  | .porNAssert | .supplyMonitorReset _ _ _ | .perstNFall _ => true
  | _ => false

/-- The rows that can be a device fatal error (R145). -/
def Instr.mayBeFatal : Instr → Bool
  | .clockLoss _ | .crystalStop _ | .sachetMounted _ | .unitSelfTestDone _ _ | .compressDone _ _ _ | .sealDone _ _ | .bufferUncorrectable _ => true
  | _ => false

namespace Machine

/-! ### What each kind keeps -/

/-- An ordinary row leaves the fuses, the NVM, DV_FATAL and the queue of waiting commands as they are. -/
theorem exec_hard (c : Instr) (s : State) (hw : c.runsImageWrite = false) (hr : c.resetsFatal = false) (hf : c.mayBeFatal = false) :
    ∃ z, exec c s = .next z ∧ z.hard = s.hard := by
  cases c with
  | porNAssert | supplyMonitorReset | perstNFall => exact nomatch hr
  | clockLoss | crystalStop | sachetMounted | unitSelfTestDone | compressDone | sealDone | bufferUncorrectable => exact nomatch hf
  | imageWrite | earlyBlockLoaded | imageLoadComplete => exact nomatch hw
  | porNRelease straps => exact execPorNRelease_hard straps s
  | ctlCoreWarmReset c after3s => exact execCtlCoreWarmReset_hard c after3s s
  | perstNRise => exact execPerstNRise_hard s
  | configRequest fn op => exact execConfigRequest_hard fn op s
  | powerFail p => exact execPowerFail_hard p s
  | dieTempMeasure sensors rails => exact execDieTempMeasure_hard sensors rails s
  | gpioInputChange pin level heldMs => exact execGpioInputChange_hard pin level heldMs s
  | tamper pin => exact execTamper_hard pin s
  | bufferInitDone trained => exact execBufferInitDone_hard trained s
  | tqCfgEnable u => exact execTqCfgEnable_hard u s
  | tqCfgDisable u => exact execTqCfgDisable_hard u s
  | sqTailDoorbell u q value entries => exact execSqTailDoorbell_hard u q value entries s
  | cqHeadDoorbell u q value => exact execCqHeadDoorbell_hard u q value s
  | arbitrationDecision a => exact execArbitrationDecision_hard a s
  | ringAccessError u q err => exact execRingAccessError_hard u q err s
  | hostDataError u q err addr => exact execHostDataError_hard u q err addr s
  | cqAggTimer u q => exact execCqAggTimer_hard u q s
  | allocatorDecision => exact execAllocatorDecision_hard s
  | identify u h => exact execIdentify_hard u h s
  | createQueuePair u => exact execCreateQueuePair_hard u s
  | deleteQueuePair u => exact execDeleteQueuePair_hard u s
  | setQueueClass u => exact execSetQueueClass_hard u s
  | getLog u h => exact execGetLog_hard u h s
  | setFeatures u => exact execSetFeatures_hard u s
  | getFeatures u => exact execGetFeatures_hard u s
  | restartQueues u => exact execRestartQueues_hard u s
  | createVolume u => exact execCreateVolume_hard u s
  | deleteVolume u => exact execDeleteVolume_hard u s
  | setVolumeHold u => exact execSetVolumeHold_hard u s
  | loadKey u h => exact execLoadKey_hard u h s
  | clearKey u => exact execClearKey_hard u s
  | tcQuery => exact execTcQuery_hard s
  | tcLoad env => exact execTcLoad_hard env s
  | loadStepTimeout t => exact execLoadStepTimeout_hard t s
  | scanComplete t => exact execScanComplete_hard t s
  | tcUnload x => exact execTcUnload_hard x s
  | latchRelease t => exact execLatchRelease_hard t s
  | tcPark => exact execTcPark_hard s
  | tcRelax => exact execTcRelax_hard s
  | tcOutOfService => exact execTcOutOfService_hard s
  | tcReturnToService => exact execTcReturnToService_hard s
  | tcReset x => exact execTcReset_hard x s
  | tcEmergencyStop => exact execTcEmergencyStop_hard s
  | tcDiscardPending => exact execTcDiscardPending_hard s
  | tcReplacedMechanism => exact execTcReplacedMechanism_hard s
  | lsQuery => exact execLsQuery_hard s
  | lsQuarantine => exact execLsQuarantine_hard s
  | lsQuarantineHeld => exact execLsQuarantineHeld_hard s
  | lsRelease => exact execLsRelease_hard s
  | lsReset => exact execLsReset_hard s
  | csQuery => exact execCsQuery_hard s
  | csTakeOut => exact execCsTakeOut_hard s
  | csReturn => exact execCsReturn_hard s
  | csResetAdaptation => exact execCsResetAdaptation_hard s
  | imageActivate fails => exact execImageActivate_hard fails s
  | setPowerPolicy => exact execSetPowerPolicy_hard s
  | writeRecords u q h => exact execWriteRecords_hard u q h s
  | readRecords u q h => exact execReadRecords_hard u q h s
  | locate u q => exact execLocate_hard u q s
  | writeMark u q => exact execWriteMark_hard u q s
  | flush u q => exact execFlush_hard u q s
  | readPosition u q h => exact execReadPosition_hard u q h s
  | verifyRange u q => exact execVerifyRange_hard u q s
  | excursionStart t => exact execExcursionStart_hard t s
  | excursionEnd t => exact execExcursionEnd_hard t s
  | vfFlr u x => exact execVfFlr_hard u x s
  | pfFlr x => exact execPfFlr_hard x s
  | tqEvtClr u value => exact execTqEvtClr_hard u value s
  | evStsClear k value => exact execEvStsClear_hard k value s
  | pmCtlWake => exact execPmCtlWake_hard s
  | scRingRel lossId => exact execScRingRel_hard lossId s
  | coefCommit t k clrState => exact execCoefCommit_hard t k clrState s
  | registerWrite w => exact execRegisterWrite_hard w s
  | smbReadTemperature => exact execSmbReadTemperature_hard s
  | smbReadPowerState => exact execSmbReadPowerState_hard s
  | smbReadReady => exact execSmbReadReady_hard s
  | smbNack command write => exact execSmbNack_hard command write s
  | pressureEvaluation => exact execPressureEvaluation_hard s
  | burstStart t => exact execBurstStart_hard t s
  | burstStop t => exact execBurstStop_hard t s
  | blockCutTimer v => exact execBlockCutTimer_hard v s
  | datasetClose t => exact execDatasetClose_hard t s
  | intervalStart t => exact execIntervalStart_hard t s
  | turnaround t => exact execTurnaround_hard t s
  | rowStatus t r => exact execRowStatus_hard t r s
  | gapEntryTimer v tag => exact execGapEntryTimer_hard v tag s
  | gapEntryPlace v => exact execGapEntryPlace_hard v s
  | bufferScrub corrected => exact execBufferScrub_hard corrected s
  | directoryCommit => exact execDirectoryCommit_hard s
  | crashSnapshot => exact execCrashSnapshot_hard s
  | lifeCheckpoint => exact execLifeCheckpoint_hard s
  | epochBoundary us => exact execEpochBoundary_hard us s
  | snapshotReady => exact execSnapshotReady_hard s
  | ps1Entry => exact execPs1Entry_hard s
  | ps2Entry => exact execPs2Entry_hard s
  | ps3Entry => exact execPs3Entry_hard s
  | powerStateExit cause => exact execPowerStateExit_hard cause s
  | powerStateExitDone => exact execPowerStateExitDone_hard s
  | relaxTimer t => exact execRelaxTimer_hard t s
  | unloadTimer t dir => exact execUnloadTimer_hard t dir s
  | trainingTimeout n => exact execTrainingTimeout_hard n s
  | trainingRetry n => exact execTrainingRetry_hard n s
  | trainWord n slot => exact execTrainWord_hard n slot s
  | ident n w0 w1 w2 w3 => exact execIdent_hard n w0 w1 w2 w3 s
  | laneUp n => exact execLaneUp_hard n s
  | uncorrectableCodeword n x => exact execUncorrectableCodeword_hard n x s
  | slotLockLoss x => exact execSlotLockLoss_hard x s
  | linkQuarantineRx n slot => exact execLinkQuarantineRx_hard n slot s
  | rejoinStart n => exact execRejoinStart_hard n s
  | linkAck n slot => exact execLinkAck_hard n slot s
  | proposeTimeout n => exact execProposeTimeout_hard n s
  | sampleFrame n f => exact execSampleFrame_hard n f s
  | resendRequest t sn => exact execResendRequest_hard t sn s
  | sampleFrameLost t sn => exact execSampleFrameLost_hard t sn s
  | controlFrame n f sinceMs => exact execControlFrame_hard n f sinceMs s
  | managementResponse n f => exact execManagementResponse_hard n f s
  | managementTimeout t tag => exact execManagementTimeout_hard t tag s
  | cartridgeInserted t env => exact execCartridgeInserted_hard t env s
  | cartridgeRemoved t => exact execCartridgeRemoved_hard t s
  | powerStageFault t => exact execPowerStageFault_hard t s
  | autonomousStop t => exact execAutonomousStop_hard t s
  | servoWord n slot => exact execServoWord_hard n slot s
  | servoTimeout t => exact execServoTimeout_hard t s
  | tachWord n slot => exact execTachWord_hard n slot s
  | senseWord n slot => exact execSenseWord_hard n slot s
  | statusWord n slot => exact execStatusWord_hard n slot s
  | wclkSend t => exact execWclkSend_hard t s
  | solRestate t => exact execSolRestate_hard t s
  | pullinEnd t => exact execPullinEnd_hard t s
  | brakeFault t brake => exact execBrakeFault_hard t brake s
  | slotRelease t k => exact execSlotRelease_hard t k s
  | slotJob t k => exact execSlotJob_hard t k s
  | deadlineMiss t k => exact execDeadlineMiss_hard t k s
  | staleDetect t k kind => exact execStaleDetect_hard t k kind s
  | servoHoldTimeout t => exact execServoHoldTimeout_hard t s
  | servoAcquireFail t => exact execServoAcquireFail_hard t s
  | targetReached t o => exact execTargetReached_hard t o s
  | stopComplete t => exact execStopComplete_hard t s
  | envelopeExit t => exact execEnvelopeExit_hard t s
  | sensorlessStopLimit t => exact execSensorlessStopLimit_hard t s
  | laneResetTimeout n => exact execLaneResetTimeout_hard n s
  | supplyMonitorRelease => exact execSupplyMonitorRelease_hard s

/-- A row that can be a device fatal error keeps the fuses, the NVM and every bit of DV_FATAL that is set. -/
theorem exec_kept_of_mayBeFatal (c : Instr) (s : State) (hf : c.mayBeFatal = true) : s.romKept (exec c s) ∧ s.fatalKept (exec c s) := by
  cases c with
  | clockLoss clk => exact execClockLoss_kept clk s
  | crystalStop us => exact execCrystalStop_kept us s
  | sachetMounted m => exact execSachetMounted_kept m s
  | unitSelfTestDone unit pass => exact execUnitSelfTestDone_kept unit pass s
  | compressDone v body fault => exact execCompressDone_kept v body fault s
  | sealDone v fault => exact execSealDone_kept v fault s
  | bufferUncorrectable target => exact execBufferUncorrectable_kept target s
  | _ => nomatch hf

/-- A reset keeps the fuses and the NVM. -/
theorem exec_romKept_of_resetsFatal (c : Instr) (s : State) (hr : c.resetsFatal = true) : s.romKept (exec c s) := by
  cases c with
  | porNAssert => exact execPorNAssert_rom s
  | supplyMonitorReset rail mv us => exact execSupplyMonitorReset_rom rail mv us s
  | perstNFall p => exact execPerstNFall_rom p s
  | _ => nomatch hr

/-- A row in which an Image Write can run keeps the NVM's canonical form, the fuses and DV_FATAL. -/
theorem exec_nvmKept_of_runsImageWrite (c : Instr) (s : State) (hw : c.runsImageWrite = true) :
    ∃ z, exec c s = .next z ∧ s.nvmKept z ∧ z.pending = s.pending := by
  cases c with
  | imageWrite x => exact execImageWrite_kept x s
  | earlyBlockLoaded fails => exact execEarlyBlockLoaded_kept fails s
  | imageLoadComplete fails => exact execImageLoadComplete_kept fails s
  | _ => nomatch hw

/-! ### What every row keeps -/

/-- A row in which no Image Write can run keeps the fuses and the NVM. -/
theorem exec_romKept (c : Instr) (s : State) (hw : c.runsImageWrite = false) : s.romKept (exec c s) := by
  cases hr : c.resetsFatal with
  | true => exact exec_romKept_of_resetsFatal c s hr
  | false =>
    cases hf : c.mayBeFatal with
    | true => exact (exec_kept_of_mayBeFatal c s hf).1
    | false => exact romKept_of_hard (exec_hard c s hw hr hf)

/-- A row that is no reset keeps every bit of DV_FATAL that is set. -/
theorem exec_fatalKept (c : Instr) (s : State) (hr : c.resetsFatal = false) : s.fatalKept (exec c s) := by
  cases hw : c.runsImageWrite with
  | true =>
    obtain ⟨z, hz, hkept, -⟩ := exec_nvmKept_of_runsImageWrite c s hw
    obtain ⟨-, -, hfatal⟩ := hkept
    exact ⟨z, hz, fun k hk => hfatal ▸ hk⟩
  | false =>
    cases hf : c.mayBeFatal with
    | true => exact (exec_kept_of_mayBeFatal c s hf).2
    | false => exact fatalKept_of_hard (exec_hard c s hw hr hf)

/-- Every command completes and leaves the queue of waiting commands to the step; it keeps the fuses and the NVM's canonical form. -/
theorem exec_completes (c : Instr) (s : State) :
    ∃ z, exec c s = .next z ∧ z.pending = s.pending ∧ z.fuses = s.fuses ∧ (Memory.wf s.image.nvm → Memory.wf z.image.nvm) := by
  cases hw : c.runsImageWrite with
  | true =>
    obtain ⟨z, hz, ⟨hwf, hfuses, -⟩, hpending⟩ := exec_nvmKept_of_runsImageWrite c s hw
    exact ⟨z, hz, hpending, hfuses, hwf⟩
  | false =>
    obtain ⟨z, hz, hfuses, hnvm, hpending⟩ := exec_romKept c s hw
    exact ⟨z, hz, hpending, hfuses, fun h => hnvm ▸ h⟩

/-! ### The step -/

theorem step_nil {s : State} (h : s.pending = []) : step s = .next s := by rw [step, h]

theorem step_cons {s : State} {c : Instr} {rest : List Instr} (h : s.pending = c :: rest) : step s = exec c { s with pending := rest } := by
  rw [step, h]

/-! ### O1 to O5 -/

/-- Settles O1: both halves are the step's two cases. -/
theorem stepRunsFrontCommand : Obligations.StepRunsFrontCommand := by
  unfold Obligations.StepRunsFrontCommand
  exact ⟨fun c s => step_cons rfl, fun s h => step_nil h⟩

/-- Settles O2. -/
theorem everyStepCompletes : Obligations.EveryStepCompletes := by
  unfold Obligations.EveryStepCompletes
  refine ⟨fun c s => ?_, fun s => ?_⟩
  · obtain ⟨z, hz, hpending, -⟩ := exec_completes c s
    exact ⟨z, hz, hpending⟩
  · cases h : s.pending with
    | nil => exact ⟨s, step_nil h, h⟩
    | cons c rest =>
      obtain ⟨z, hz, hpending, -⟩ := exec_completes c { s with pending := rest }
      exact ⟨z, (step_cons h).trans hz, hpending⟩

/-- Settles O3. -/
theorem nvmFormKept : Obligations.NvmFormKept := by
  unfold Obligations.NvmFormKept
  intro s t hwf hstep
  cases h : s.pending with
  | nil =>
    rw [step_nil h] at hstep
    exact Host.Outcome.next.inj hstep ▸ hwf
  | cons c rest =>
    obtain ⟨z, hz, -, -, hkeeps⟩ := exec_completes c { s with pending := rest }
    rw [step_cons h, hz] at hstep
    exact Host.Outcome.next.inj hstep ▸ hkeeps hwf

/-- Settles O4: where no Image Write can run, the row keeps the NVM. -/
theorem nvmChangesOnlyByImageWrite : Obligations.NvmChangesOnlyByImageWrite := by
  unfold Obligations.NvmChangesOnlyByImageWrite
  intro s t c rest h hstep
  rw [step_cons h] at hstep
  refine ⟨?fuses, fun hchanged => ?nvm⟩
  case fuses =>
    obtain ⟨z, hz, -, hfuses, -⟩ := exec_completes c { s with pending := rest }
    rw [hz] at hstep
    exact Host.Outcome.next.inj hstep ▸ hfuses
  case nvm =>
    cases hw : c.runsImageWrite with
    | false =>
      obtain ⟨z, hz, -, hnvm, -⟩ := exec_romKept c { s with pending := rest } hw
      rw [hz] at hstep
      exact absurd (Host.Outcome.next.inj hstep ▸ hnvm) hchanged
    | true =>
      cases c with
      | imageWrite x => exact .inl ⟨x, rfl⟩
      | earlyBlockLoaded fails => exact .inr (.inl ⟨fails, rfl⟩)
      | imageLoadComplete fails => exact .inr (.inr ⟨fails, rfl⟩)
      | _ => nomatch hw

/-- Settles O5: a row that is no reset keeps every bit that is set. -/
theorem fatalBitsStandUntilReset : Obligations.FatalBitsStandUntilReset := by
  unfold Obligations.FatalBitsStandUntilReset
  intro s t c rest k h hstep hset hclear
  rw [step_cons h] at hstep
  cases hr : c.resetsFatal with
  | false =>
    obtain ⟨z, hz, hkeeps⟩ := exec_fatalKept c { s with pending := rest } hr
    rw [hz] at hstep
    have hstands : t.dev.fatal.getLsbD k = true := Host.Outcome.next.inj hstep ▸ hkeeps k hset
    exact Bool.noConfusion (hstands.symm.trans hclear)
  | true =>
    cases c with
    | porNAssert => exact .inl rfl
    | supplyMonitorReset rail mv us => exact .inr (.inl ⟨rail, mv, us, rfl⟩)
    | perstNFall x => exact .inr (.inr ⟨x, rfl⟩)
    | _ => nomatch hr

end Machine
end Sys2Proof
end

section
/-! PROOF. What the operations of tapes, volumes, queues and completions leave alone (`State.still`): the pins, the image, GPIO, the die temperature,
the power state, HOST, DV_FATAL and the quiesce, and of a tenant its EN, FUNC, reset, GEN and snapshot figures. One lemma per operation. -/

namespace Sys2Proof.Machine

/-! ### Bits of a register -/

/-- A bit written reads back as written; every other bit as before. -/
theorem getLsbD_setBit {w : Nat} (x : BitVec w) (n k : Nat) (b : Bool) :
    (setBit x n b).getLsbD k = if k = n then b && decide (k < w) else x.getLsbD k := by
  by_cases hk : k < w
  · rw [setBit, ← BitVec.twoPow_eq]
    cases b <;> by_cases hkn : n = k <;> simp [hk, hkn, eq_comm (a := k)]
  · rw [BitVec.getLsbD_of_ge _ _ (Nat.le_of_not_lt hk), BitVec.getLsbD_of_ge _ _ (Nat.le_of_not_lt hk)]
    simp [hk]

@[simp] theorem rdTRANSPORT_ne_rdHOST (t : Nat) : rdTRANSPORT t ≠ rdHOST := by simp only [rdTRANSPORT, rdHOST]; omega
@[simp] theorem rdLANE_ne_rdHOST (n : Nat) : rdLANE n ≠ rdHOST := by simp only [rdLANE, rdHOST]; omega
@[simp] theorem rdBUFFER_ne_rdHOST : rdBUFFER ≠ rdHOST := by decide

/-! ### What stays -/

/-- What of a tenant only the host, a reset or a snapshot changes. -/
def Tenant.still (x : Tenant) : Nat × Bool × Nat × Bool × Bool × Bool := (x.gen, x.snapRead, x.snapLost, x.func, x.inFlr, x.cfgEn)

/-- What of the device stands through an operation of a tape: readiness bits but HOST, the crossings' counts and the DSN reservations move. -/
def Device.still (d : Device) : Device × Bool := ({ d with ready := 0, xdisc := 0, xid := 0, dsnResv := 0 }, d.ready.getLsbD rdHOST)

/-- What the operations of tapes, volumes, queues and completions leave alone. -/
def State.still (s : State) : (Device × Bool) × (Nat → Nat × Bool × Nat × Bool × Bool × Bool) × Nat × Nat × Fuses × Pins × Image × Gpio × Thermal × Tab Core :=
  (s.dev.still, fun u => (s.tn u).still, s.pm.state, s.msNow, s.fuses, s.pins, s.image, s.gpio, s.therm, s.cores)

theorem State.modDev_still (s : State) (f : Device → Device) (h : ∀ d, (f d).still = d.still) : (s.modDev f).still = s.still := by
  rw [State.still, State.still, State.modDev_dev, h]; rfl
@[simp] theorem State.setReady_still (s : State) (b : Nat) (v : Bool) (h : b ≠ rdHOST) : (s.setReady b v).still = s.still := by
  refine s.modDev_still _ fun d => ?_
  simp only [Device.still, getLsbD_setBit, if_neg h.symm]
@[simp] theorem State.modPm_still (s : State) (f : Power → Power) (h : ∀ p, (f p).state = p.state) : (s.modPm f).still = s.still := by
  simp only [State.still, State.modPm_pm, h]; rfl
@[simp] theorem State.modTn_still (s : State) (u : Nat) (f : Tenant → Tenant)
    (h : ∀ x, (f x).gen = x.gen ∧ (f x).snapRead = x.snapRead ∧ (f x).snapLost = x.snapLost ∧ (f x).func = x.func ∧ (f x).inFlr = x.inFlr ∧
      (f x).cfgEn = x.cfgEn) : (s.modTn u f).still = s.still := by
  have htn : ∀ v, ((s.modTn u f).tn v).still = (s.tn v).still := fun v => by
    rw [State.tn_modTn]
    split
    · next hv =>
      obtain ⟨hgen, hread, hlost, hfunc, hflr, hen⟩ := h (s.tn u)
      rw [hv, Tenant.still, Tenant.still, hgen, hread, hlost, hfunc, hflr, hen]
    · rfl
  simp only [State.still, htn]; rfl
/-- What is read of a table after each of its entries has been changed, for a change that leaves what is read. -/
theorem Tab.get_map_of_eq {α β : Type} (d : α) (m : Tab α) (f : Nat × α → Nat × α) (g : α → β) (hkey : ∀ p, (f p).1 = p.1)
    (hval : ∀ p, g (f p).2 = g p.2) (k : Nat) : g (Tab.get d (m.map f) k) = g (Tab.get d m k) := by
  induction m with
  | nil => rfl
  | cons p r ih =>
    have hhead : f p = (p.1, (f p).2) := Prod.ext (hkey p) rfl
    rw [List.map_cons, hhead, Tab.get, Tab.get]
    split
    · exact hval p
    · exact ih
theorem State.modTenants_still_map (s : State) (f : Nat × Tenant → Nat × Tenant) (hkey : ∀ p, (f p).1 = p.1)
    (hval : ∀ p, (f p).2.still = p.2.still) : (s.modTenants fun m => m.map f).still = s.still := by
  have htn : ∀ v, ((s.modTenants fun m => m.map f).tn v).still = (s.tn v).still :=
    fun v => Tab.get_map_of_eq _ s.tenants f _ hkey hval v
  simp only [State.still, htn]; rfl
@[simp] theorem State.modEv_still (s : State) (f : Tab EvSource → Tab EvSource) : (s.modEv f).still = s.still := rfl
@[simp] theorem State.modStats_still (s : State) (f : Stats → Stats) : (s.modStats f).still = s.still := rfl
@[simp] theorem State.modArb_still (s : State) (f : Arb → Arb) : (s.modArb f).still = s.still := rfl
@[simp] theorem State.modBm_still (s : State) (f : Buffer → Buffer) : (s.modBm f).still = s.still := rfl
@[simp] theorem State.modVols_still (s : State) (f : Tab Volume → Tab Volume) : (s.modVols f).still = s.still := rfl
@[simp] theorem State.modLanes_still (s : State) (f : Tab Lane → Tab Lane) : (s.modLanes f).still = s.still := rfl
@[simp] theorem State.modTps_still (s : State) (f : Tab Transport → Tab Transport) : (s.modTps f).still = s.still := rfl
@[simp] theorem State.modSachet_still (s : State) (f : Sachet → Sachet) : (s.modSachet f).still = s.still := rfl
@[simp] theorem State.emit_still (s : State) (o : Output) : (s.emit o).still = s.still := rfl
@[simp] theorem State.take_still (s : State) : s.take.still = s.still := rfl
@[simp] theorem State.each_still {α : Type} (s : State) (l : List α) (f : State → α → State) (h : ∀ s a, (f s a).still = s.still) :
    (s.each l f).still = s.still := by
  induction l generalizing s with
  | nil => rfl
  | cons a r ih => exact (ih (f s a)).trans (h s a)

/-! ### The operations -/

@[simp] theorem State.modTp_still (s : State) (t : Nat) (f : Transport → Transport) : (State.modTp s t f).still = s.still := by
  unfold State.modTp
  simp
@[simp] theorem State.modMot_still (s : State) (t : Nat) (f : Motion → Motion) : (State.modMot s t f).still = s.still := by
  unfold State.modMot
  simp
@[simp] theorem State.modSol_still (s : State) (t : Nat) (f : Solenoids → Solenoids) : (State.modSol s t f).still = s.still := by
  unfold State.modSol
  simp
@[simp] theorem State.modLd_still (s : State) (t : Nat) (f : Loading → Loading) : (State.modLd s t f).still = s.still := by
  unfold State.modLd
  simp
@[simp] theorem State.modFmt_still (s : State) (t : Nat) (f : Format → Format) : (State.modFmt s t f).still = s.still := by
  unfold State.modFmt
  simp
@[simp] theorem State.modGov_still (s : State) (t : Nat) (f : Governor → Governor) : (State.modGov s t f).still = s.still := by
  unfold State.modGov
  simp
@[simp] theorem State.modVfy_still (s : State) (t : Nat) (f : Verifier → Verifier) : (State.modVfy s t f).still = s.still := by
  unfold State.modVfy
  simp
@[simp] theorem State.modGu_still (s : State) (t : Nat) (f : Guard → Guard) : (State.modGu s t f).still = s.still := by
  unfold State.modGu
  simp
@[simp] theorem State.modLink_still (s : State) (t : Nat) (f : Link → Link) : (State.modLink s t f).still = s.still := by
  unfold State.modLink
  simp
@[simp] theorem State.modSlot_still (s : State) (t k : Nat) (f : Slot → Slot) : (State.modSlot s t k f).still = s.still := by
  unfold State.modSlot
  simp
@[simp] theorem State.setVol_still (s : State) (v : Nat) (x : Volume) : (State.setVol s v x).still = s.still := by
  unfold State.setVol
  simp
@[simp] theorem State.modVol_still (s : State) (v : Nat) (f : Volume → Volume) : (State.modVol s v f).still = s.still := by
  unfold State.modVol
  split <;> simp
@[simp] theorem State.modQp_still (s : State) (u q : Nat) (f : QueuePair → QueuePair) : (State.modQp s u q f).still = s.still := by
  unfold State.modQp
  split <;> simp
@[simp] theorem State.stat_still (s : State) (i n : Nat) : (State.stat s i n).still = s.still := by
  unfold State.stat
  simp
@[simp] theorem State.sendMsix_still (s : State) (fn vec : Nat) : (State.sendMsix s fn vec).still = s.still := by
  unfold State.sendMsix
  simp [apply_ite State.still]
@[simp] theorem State.modEvSrc_still (s : State) (e : Nat) (f : EvSource → EvSource) : (State.modEvSrc s e f).still = s.still := by
  unfold State.modEvSrc
  simp
@[simp] theorem State.raise_still (s : State) (e : Nat) : (State.raise s e).still = s.still := by
  unfold State.raise
  simp [apply_ite State.still]
@[simp] theorem State.setTpReady_still (s : State) (t : Nat) (v : Bool) : (State.setTpReady s t v).still = s.still := by
  unfold State.setTpReady
  split <;> simp
@[simp] theorem State.discard_still (s : State) (xid n : Nat) : (State.discard s xid n).still = s.still := by
  unfold State.discard
  split
  · rfl
  · rw [State.stat_still, State.raise_still]
    exact s.modDev_still _ fun _ => rfl
@[simp] theorem State.discards_still (s : State) (ds : Discards) : (State.discards s ds).still = s.still := by
  unfold State.discards
  simp
@[simp] theorem State.logError_still (s : State) (u : Nat) (st : Status) (i : ErrInfo) : (State.logError s u st i).still = s.still := by
  unfold State.logError
  simp [apply_ite State.still]
@[simp] theorem State.returnSegs_still (s : State) (u n : Nat) : (State.returnSegs s u n).still = s.still := by
  unfold State.returnSegs
  simp
@[simp] theorem State.ungrant_still (s : State) (u : Nat) (g : Nat × Nat) : (State.ungrant s u g).still = s.still := by
  unfold State.ungrant
  simp
@[simp] theorem State.postCqe_still (s : State) (u q : Nat) (w0 w1 : Word) : (State.postCqe s u q w0 w1).still = s.still := by
  unfold State.postCqe
  simp
@[simp] theorem State.signalCq_still (s : State) (u q : Nat) : (State.signalCq s u q).still = s.still := by
  unfold State.signalCq
  simp [apply_ite State.still]
@[simp] theorem State.giveBack_still (s : State) (u op vol len : Nat) (segs : Nat × Nat) (bound : Bool) : (State.giveBack s u op vol len segs bound).still = s.still := by
  unfold State.giveBack
  (repeat' split) <;> simp
@[simp] theorem State.dropCmd_still (s : State) (id : Nat) : (State.dropCmd s id).still = s.still := by
  unfold State.dropCmd
  split <;> simp
@[simp] theorem State.tryRdy_still (s : State) (u : Nat) : (State.tryRdy s u).still = s.still := by
  unfold State.tryRdy
  simp [apply_ite State.still]
@[simp] theorem State.rdyDown_still (s : State) (u : Nat) : (State.rdyDown s u).still = s.still := by
  unfold State.rdyDown
  simp [apply_ite State.still]
@[simp] theorem State.complete_still (s : State) (c : Cmd) (st : Status) (r : Reply) : (State.complete s c st r).still = s.still := by
  unfold State.complete
  simp only [State.rdyDown_still, apply_ite State.still, State.signalCq_still, State.postCqe_still, ite_self, State.logError_still, State.stat_still,
    State.dropCmd_still]
@[simp] theorem State.succeed_still (s : State) (c : Cmd) (result : Word) : (State.succeed s c result).still = s.still := by
  unfold State.succeed
  simp
@[simp] theorem State.fail_still (s : State) (c : Cmd) (st : Status) : (State.fail s c st).still = s.still := by
  unfold State.fail
  simp
@[simp] theorem State.setStage_still (s : State) (id : Nat) (st : CmdStage) : (State.setStage s id st).still = s.still := by
  unfold State.setStage
  simp
@[simp] theorem State.sachetWrite_still (s : State) (key n bytes : Nat) : (State.sachetWrite s key n bytes).still = s.still := by
  unfold State.sachetWrite
  simp [apply_ite State.still]
@[simp] theorem State.lifeCkpt_still (s : State) : (State.lifeCkpt s).still = s.still := by
  unfold State.lifeCkpt
  simp
@[simp] theorem State.newLoss_still (s : State) : (State.newLoss s).still = s.still := by
  unfold State.newLoss
  simp
@[simp] theorem State.putSlot_still (s : State) (reason : Nat) (vols : List CrashVol) : (State.putSlot s reason vols).still = s.still := by
  unfold State.putSlot
  simp
@[simp] theorem State.snapshot_still (s : State) (reason : Nat) : (State.snapshot s reason).still = s.still := by
  unfold State.snapshot
  simp
@[simp] theorem State.journal_still (s : State) (h : Nat) (isV : Bool) (value : Nat) : (State.journal s h isV value).still = s.still := by
  unfold State.journal
  simp only []
  (repeat' split) <;> simp
@[simp] theorem State.wholeArea_still (s : State) (a : Nat) : (State.wholeArea s a).still = s.still := by
  unfold State.wholeArea
  simp
@[simp] theorem State.commitDir_still (s : State) (t : Nat) : (State.commitDir s t).still = s.still := by
  unfold State.commitDir
  split <;> simp [apply_ite State.still]
@[simp] theorem State.commitDirs_still (s : State) : (State.commitDirs s).still = s.still := by
  unfold State.commitDirs
  simp [apply_ite State.still]
@[simp] theorem State.modDir_still (s : State) (t : Nat) (f : Directory → Directory) : (State.modDir s t f).still = s.still := by
  unfold State.modDir
  simp
@[simp] theorem State.ringDone_still (s : State) (p : RingEntry → Bool) : (State.ringDone s p).still = s.still := by
  unfold State.ringDone
  simp
@[simp] theorem State.ringAppend_still (s : State) (uuid : BitVec 128) (seq : Nat) (body : Bytes) : (State.ringAppend s uuid seq body).still = s.still := by
  unfold State.ringAppend
  simp
@[simp] theorem State.sendWord_still (s : State) (t ty : Nat) (payload : Word) : (State.sendWord s t ty payload).still = s.still := by
  unfold State.sendWord
  simp only []
  split
  · rfl
  · rw [State.modLink_still]
    exact s.each_still _ _ fun s n => s.emit_still _
@[simp] theorem State.gateClose_still (s : State) (t cause : Nat) : (State.gateClose s t cause).still = s.still := by
  unfold State.gateClose
  simp [apply_ite State.still]
@[simp] theorem State.sendDrive_still (s : State) (t : Nat) : (State.sendDrive s t).still = s.still := by
  unfold State.sendDrive
  simp
@[simp] theorem State.reelsOff_still (s : State) (t : Nat) : (State.reelsOff s t).still = s.still := by
  unfold State.reelsOff
  simp
@[simp] theorem State.sendSol_still (s : State) (t : Nat) : (State.sendSol s t).still = s.still := by
  unfold State.sendSol
  simp
@[simp] theorem State.solPullin_still (s : State) (t k : Nat) : (State.solPullin s t k).still = s.still := by
  unfold State.solPullin
  simp
@[simp] theorem State.solRelease_still (s : State) (t : Nat) (ks : List Nat) : (State.solRelease s t ks).still = s.still := by
  unfold State.solRelease
  simp only []
  (repeat' split) <;> simp
@[simp] theorem State.brakesOn_still (s : State) (t : Nat) : (State.brakesOn s t).still = s.still := by
  unfold State.brakesOn
  simp
@[simp] theorem State.releaseVol_still (s : State) (h : Nat) : (State.releaseVol s h).still = s.still := by
  unfold State.releaseVol
  split <;> simp
theorem State.takeSeg_still (s : State) (u : Nat) : ∀ s1, State.takeSeg s u = some s1 → s1.still = s.still := by
  unfold State.takeSeg
  simp only []
  (repeat' split) <;> simp
theorem State.roomFor_still (s : State) (h n : Nat) : ∀ s1, State.roomFor s h n = some s1 → s1.still = s.still := by
  intro s1 e
  unfold State.roomFor at e
  split at e
  · simp at e
  · split at e
    · simp_all
    · obtain ⟨a, ha, rfl⟩ := Option.map_eq_some_iff.1 e
      simp [State.takeSeg_still _ _ a ha]
@[simp] theorem State.placeGap_still (s : State) (h : Nat) (bs : Bytes) : (State.placeGap s h bs).still = s.still := by
  unfold State.placeGap
  simp
@[simp] theorem State.gapLog_still (s : State) (h : Nat) (w : Volume) (tag : Nat) (g : GapOpen) : (State.gapLog s h w tag g).still = s.still := by
  unfold State.gapLog
  simp
@[simp] theorem State.dropGaps_still (s : State) (h : Nat) : (State.dropGaps s h).still = s.still := by
  unfold State.dropGaps
  split <;> simp
@[simp] theorem State.closeGap_still (s : State) (h tag : Nat) : (State.closeGap s h tag).still = s.still := by
  unfold State.closeGap
  split
  · rfl
  · split
    · simp only []
      split
      · rename_i s4 e
        split at e
        · simp [State.roomFor_still _ _ _ _ e]
        · simp at e
      · simp
    · rfl
@[simp] theorem State.closeGaps_still (s : State) (h : Nat) : (State.closeGaps s h).still = s.still := by
  unfold State.closeGaps
  split <;> simp
@[simp] theorem State.cut_still (s : State) (h code : Nat) : (State.cut s h code).still = s.still := by
  unfold State.cut
  simp
@[simp] theorem State.syncDir_still (s : State) (h : Nat) : (State.syncDir s h).still = s.still := by
  unfold State.syncDir
  split <;> simp
@[simp] theorem State.raiseV_still (s : State) (h : Nat) : (State.raiseV s h).still = s.still := by
  unfold State.raiseV
  (repeat' split) <;> simp
@[simp] theorem State.replayCheck_still (s : State) (h : Nat) : (State.replayCheck s h).still = s.still := by
  unfold State.replayCheck
  (repeat' split) <;> simp
@[simp] theorem State.addLost_still (s : State) (t : Nat) (r : LostRange) : (State.addLost s t r).still = s.still := by
  unfold State.addLost
  simp
@[simp] theorem State.reportLoss_still (s : State) (h : Nat) (w : Volume) (cause gen first last : Nat) : (State.reportLoss s h w cause gen first last).still = s.still := by
  unfold State.reportLoss
  simp [apply_ite State.still]
@[simp] theorem State.flushCarries_still (s : State) (h : Nat) (w : Volume) (rs : List (Nat × Nat × Nat)) :
    (State.flushCarries s h w rs).still = s.still := by
  unfold State.flushCarries
  refine State.each_still _ _ _ fun s c => ?_
  simp only []
  (repeat' split) <;> simp
@[simp] theorem State.loseRecords_still (s : State) (h cause : Nat) (rep : Bool) (p : BufRec → Bool) : (State.loseRecords s h cause rep p).still = s.still := by
  unfold State.loseRecords
  split <;> simp [apply_ite State.still]
@[simp] theorem State.zeroise_still (s : State) (h : Nat) : (State.zeroise s h).still = s.still := by
  unfold State.zeroise
  simp
@[simp] theorem State.dropVol_still (s : State) (h : Nat) : (State.dropVol s h).still = s.still := by
  unfold State.dropVol
  split
  · rfl
  · simp only [State.returnSegs_still, State.modVols_still]
    refine (State.modTenants_still_map _ _ ?key ?val).trans (State.modArb_still _ _)
    · exact fun _ => rfl
    · exact fun _ => rfl
@[simp] theorem State.takeDsn_still (s : State) (t : Nat) : (State.takeDsn s t).2.still = s.still := by
  unfold State.takeDsn
  simp only []
  split
  · dsimp only
    refine (State.modDev_still _ _ ?dev).trans ?rest
    · exact fun _ => rfl
    · simp
  · simp
@[simp] theorem State.reuseGroup_still (s : State) (t g : Nat) : (State.reuseGroup s t g).still = s.still := by
  unfold State.reuseGroup
  simp
@[simp] theorem State.halt_still (s : State) (t : Nat) : (State.halt s t).still = s.still := by
  unfold State.halt
  simp [apply_ite State.still]
@[simp] theorem State.packOn_still (s : State) (t : Nat) : (State.packOn s t).still = s.still := by
  unfold State.packOn
  (repeat' split) <;> simp
@[simp] theorem State.retarget_still (s : State) (t : Nat) : (State.retarget s t).still = s.still := by
  unfold State.retarget
  split <;> simp [apply_ite State.still]
@[simp] theorem State.closeGroup_still (s : State) (t : Nat) : (State.closeGroup s t).still = s.still := by
  unfold State.closeGroup
  simp only []
  (repeat' split) <;> simp
@[simp] theorem State.groupCheck_still (s : State) (t : Nat) : (State.groupCheck s t).still = s.still := by
  unfold State.groupCheck
  simp [apply_ite State.still]
@[simp] theorem State.closeRegion_still (s : State) (t off : Nat) (r : Region) : (State.closeRegion s t off r).2.still = s.still := by
  unfold State.closeRegion
  split <;> simp
@[simp] theorem State.closeDataset_still (s : State) (t : Nat) : (State.closeDataset s t).still = s.still := by
  have fold : ∀ (l : List Region) (a : List Region × Nat × State), (l.foldl (fun (a : List Region × Nat × State) r =>
      let (r1, s') := a.2.2.closeRegion t a.2.1 r
      (a.1 ++ [r1], a.2.1 + (regionAll r1).length, s')) a).2.2.still = a.2.2.still := by
    intro l
    induction l with
    | nil => intro a; rfl
    | cons r l ih => intro a; rw [List.foldl_cons, ih]; simp
  unfold State.closeDataset
  split
  · rfl
  · simp only [State.groupCheck_still]
    refine (State.each_still _ _ _ fun s r => ?_).trans ?_
    · split <;> simp
    · simp only [State.modFmt_still]
      exact fold _ _
theorem State.fillFor_still (s : State) (t vidx : Nat) (force : Bool) : ∀ s1, State.fillFor s t vidx force = some s1 → s1.still = s.still := by
  unfold State.fillFor
  simp only []
  (repeat' split) <;> simp
@[simp] theorem State.placeBlock_still (force : Bool) (n h ord : Nat) (s : State) : (State.placeBlock force n h ord s).still = s.still := by
  induction n generalizing s with
  | zero => rfl
  | succ n ih =>
    unfold State.placeBlock
    split
    · rfl
    · split
      · rfl
      · split
        · rfl
        · split
          · rfl
          · rename_i s1 e
            have e1 := State.fillFor_still _ _ _ _ _ e
            split
            · exact e1
            · simp only [ih]
              split <;> simp [e1]
@[simp] theorem State.placeRest_still (s : State) (h : Nat) : (State.placeRest s h).still = s.still := by
  unfold State.placeRest
  split <;> simp
@[simp] theorem State.sealBlock_still (s : State) (h : Nat) (w : Volume) (b : Block) (dsn idx : Nat) : (State.sealBlock s h w b dsn idx).still = s.still := by
  unfold State.sealBlock
  simp
@[simp] theorem State.sealNext_still (s : State) (h : Nat) (force : Bool) : (State.sealNext s h force).still = s.still := by
  unfold State.sealNext
  simp only []
  split
  · simp
  · split
    · simp
    · split
      · simp
      · split
        · split <;> simp
        · rename_i s1 e
          have e1 : s1.still = s.still := by
            split at e
            · rw [State.fillFor_still _ _ _ _ _ e, State.placeRest_still]
            · simp at e
          split <;> simp [e1]
@[simp] theorem State.compressNext_still (s : State) (h : Nat) (body : Option Bytes) (force : Bool) : (State.compressNext s h body force).still = s.still := by
  unfold State.compressNext
  simp only []
  (repeat' split) <;> simp
@[simp] theorem State.sealAll_still (s : State) (h : Nat) : (State.sealAll s h).still = s.still := by
  unfold State.sealAll
  simp only []
  (repeat' split) <;> simp
@[simp] theorem State.openRegion_still (s : State) (t : Nat) (w : Volume) : (State.openRegion s t w).still = s.still := by
  unfold State.openRegion
  split <;> simp [apply_ite State.still]
@[simp] theorem State.raiseChain_still (s : State) (h : Nat) (e : ChainEntry) : (State.raiseChain s h e).still = s.still := by
  unfold State.raiseChain
  simp only []
  (repeat' split) <;> simp
@[simp] theorem State.modDs_still (s : State) (t dsn : Nat) (f : DsState → DsState) : (State.modDs s t dsn f).still = s.still := by
  unfold State.modDs
  simp
@[simp] theorem State.writeAgain_still (s : State) (t : Nat) (d : Dataset) (again : Bool) : (State.writeAgain s t d again).still = s.still := by
  unfold State.writeAgain
  simp only [State.groupCheck_still]
  rw [State.each_still _ _ _ (fun s r => by split <;> simp)]
  simp
@[simp] theorem State.excludeOld_still (s : State) (t : Nat) (ds : List Dataset) : (State.excludeOld s t ds).still = s.still := by
  unfold State.excludeOld
  simp
@[simp] theorem State.moveWrap_still (s : State) (t : Nat) (ds : List Dataset) (wrap : Nat) : (State.moveWrap s t ds wrap).still = s.still := by
  unfold State.moveWrap
  simp
@[simp] theorem State.toPackWrap_still (s : State) (t : Nat) : (State.toPackWrap s t).still = s.still := by
  unfold State.toPackWrap
  simp [apply_ite State.still]
@[simp] theorem State.unwritable_still (s : State) (t : Nat) : (State.unwritable s t).still = s.still := by
  unfold State.unwritable
  simp
@[simp] theorem State.abandonMove_still (s : State) (t : Nat) : (State.abandonMove s t).still = s.still := by
  unfold State.abandonMove
  simp [apply_ite State.still]
@[simp] theorem State.leaveRest_still (s : State) (t : Nat) : (State.leaveRest s t).still = s.still := by
  unfold State.leaveRest
  simp [apply_ite State.still]
@[simp] theorem State.abandonWrap_still (s : State) (t : Nat) : (State.abandonWrap s t).still = s.still := by
  unfold State.abandonWrap
  simp [apply_ite State.still]
@[simp] theorem State.tryResume_still (s : State) (t : Nat) : (State.tryResume s t).still = s.still := by
  unfold State.tryResume
  simp only []
  (repeat' split) <;> simp
@[simp] theorem State.retry_still (s : State) (t dsn : Nat) (counts : Bool) : (State.retry s t dsn counts).still = s.still := by
  unfold State.retry
  (repeat' split) <;> simp
@[simp] theorem State.cutWrites_still (s : State) (t : Nat) : (State.cutWrites s t).still = s.still := by
  unfold State.cutWrites
  simp only []
  (repeat' split) <;> simp
@[simp] theorem State.syncReady_still (s : State) (t : Nat) : (State.syncReady s t).still = s.still := by
  unfold State.syncReady
  simp
@[simp] theorem State.setTState_still (s : State) (t : Nat) (st : TState) : (State.setTState s t st).still = s.still := by
  unfold State.setTState
  simp
@[simp] theorem State.aim_still (s : State) (t : Nat) (g : Target) : (State.aim s t g).still = s.still := by
  unfold State.aim
  simp
@[simp] theorem State.failTape_still (s : State) (t : Nat) (st : Status) : (State.failTape s t st).still = s.still := by
  unfold State.failTape
  simp
@[simp] theorem State.enterOos_still (s : State) (t cause : Nat) : (State.enterOos s t cause).still = s.still := by
  unfold State.enterOos
  split <;> simp
@[simp] theorem State.dropExc_still (s : State) (t : Nat) : (State.dropExc s t).still = s.still := by
  unfold State.dropExc
  split
  · rfl
  · rw [State.modMot_still, State.each_still _ _ _ (fun s r => by (repeat' split) <;> simp)]
@[simp] theorem State.controlledStop_still (s : State) (t : Nat) (goal : StopGoal) : (State.controlledStop s t goal).still = s.still := by
  unfold State.controlledStop
  (repeat' split) <;> simp [apply_ite State.still]
@[simp] theorem State.orderedStop_still (s : State) (t : Nat) (goal : StopGoal) : (State.orderedStop s t goal).still = s.still := by
  unfold State.orderedStop
  simp [apply_ite State.still]
@[simp] theorem State.closeFor_still (s : State) (t vidx : Nat) : (State.closeFor s t vidx).still = s.still := by
  unfold State.closeFor
  split <;> simp [apply_ite State.still]
@[simp] theorem State.finishDelete_still (s : State) (c : Cmd) : (State.finishDelete s c).still = s.still := by
  unfold State.finishDelete
  simp only []
  (repeat' split) <;> simp
@[simp] theorem State.finishClear_still (s : State) (c : Cmd) : (State.finishClear s c).still = s.still := by
  unfold State.finishClear
  simp only []
  (repeat' split) <;> simp
@[simp] theorem State.withdraw_still (s : State) (u q : Nat) : (State.withdraw s u q).still = s.still := by
  unfold State.withdraw
  simp only []
  (repeat' split) <;> simp
@[simp] theorem State.closePair_still (s : State) (u q : Nat) : (State.closePair s u q).still = s.still := by
  unfold State.closePair
  simp
@[simp] theorem State.offer_still (s : State) (t n : Nat) : (State.offer s t n).still = s.still := by
  unfold State.offer
  simp
@[simp] theorem State.tamperEffects_still (s : State) (pin : Nat) : (State.tamperEffects s pin).still = s.still := by
  unfold State.tamperEffects
  simp
theorem State.grow_still (s : State) (h n : Nat) : ∀ s1, State.grow s h n = some s1 → s1.still = s.still := by
  intro s1 e
  unfold State.grow at e
  split at e
  · simp at e
  · simp only [] at e
    split at e
    · obtain rfl := Option.some.inj e
      simp
    · simp at e
@[simp] theorem State.storeRecord_still (s : State) (h seq : Nat) (rec : Bytes) (urgent : Bool) : (State.storeRecord s h seq rec urgent).still = s.still := by
  unfold State.storeRecord
  simp
@[simp] theorem State.bindCmd_still (s : State) (c : Cmd) (len more : Nat) : (State.bindCmd s c len more).still = s.still := by
  unfold State.bindCmd
  simp
theorem State.roomForWrite_still (s : State) (c : Cmd) (w : Volume) : ∀ s1, State.roomForWrite s c w = some s1 → s1.still = s.still := by
  intro s1 e
  unfold State.roomForWrite at e
  simp only [] at e
  (repeat' split at e) <;> simp at e
  · rw [e]
  · rw [← e]; simp
  · obtain ⟨a, ha, rfl⟩ := e
    simp [State.grow_still _ _ _ _ ha]
@[simp] theorem State.pruneRecord_still (s : State) (c : Cmd) (t level : Nat) (r : Bytes) : (State.pruneRecord s c t level r).still = s.still := by
  unfold State.pruneRecord
  simp
@[simp] theorem State.takeRecord_still (s : State) (c : Cmd) (t : Nat) (r : Bytes) : (State.takeRecord s c t r).still = s.still := by
  unfold State.takeRecord
  simp only []
  (repeat' split) <;> simp
@[simp] theorem State.admitted_still (s : State) (c : Cmd) : (State.admitted s c).still = s.still := by
  unfold State.admitted
  simp only []
  (repeat' split) <;> simp
theorem State.putList_still (s : State) (c : Cmd) (w : Volume) (rs : List Bytes) : ∀ s1, State.putList s c w rs = some s1 → s1.still = s.still := by
  intro s1 e
  obtain ⟨s2, e2, rfl⟩ := Option.map_eq_some_iff.1 e
  have h2 := State.roomForWrite_still _ _ _ _ e2
  simp [apply_ite State.still, h2]
@[simp] theorem State.flrWrite_still (s : State) (c0 : Cmd) (h : HostData) : (State.flrWrite s c0 h).still = s.still := by
  unfold State.flrWrite
  simp only []
  split
  · rfl
  · split
    · split
      · rfl
      · split
        · rfl
        · rename_i w _ _ _ rs _ _
          cases e : s.putList { c0 with data := h } w rs with
          | none => rfl
          | some s1 => simpa using State.putList_still _ _ _ _ _ e
    · rfl
@[simp] theorem State.orphanDeferred_still (s : State) (u : Nat) : (State.orphanDeferred s u).still = s.still := by
  unfold State.orphanDeferred
  simp
@[simp] theorem State.clearEnables_still (s : State) (u : Nat) : (State.clearEnables s u).still = s.still := by
  unfold State.clearEnables
  simp [apply_ite State.still]
@[simp] theorem State.flrSeal_still (s : State) (l : List (Nat × Volume)) : (State.flrSeal s l).still = s.still := by
  unfold State.flrSeal
  simp [apply_ite State.still]

end Sys2Proof.Machine
end

section
/-! PROOF. O10: the quiesce and a device fatal cause (R145, R162, R164). A step of the quiesce leaves what `State.still` names but for the reason and
the number of the step, so that its steps chain. -/

namespace Sys2Proof.Machine

/-! ### Reading what stays -/

theorem State.host_of_still {s t : State} (h : t.still = s.still) : t.ready rdHOST = s.ready rdHOST := congrArg (fun x => x.1.2) h
theorem State.tn_of_still {s t : State} (h : t.still = s.still) (u : Nat) : (t.tn u).still = (s.tn u).still := congrArg (fun x => x.2.1 u) h
theorem State.pmState_of_still {s t : State} (h : t.still = s.still) : t.pm.state = s.pm.state := congrArg (fun x => x.2.2.1) h
theorem State.quiesced_of_still {s t : State} (h : t.still = s.still) : t.dev.quiesced = s.dev.quiesced := congrArg (fun x => x.1.1.quiesced) h
theorem State.qstep_of_still {s t : State} (h : t.still = s.still) : t.dev.qstep = s.dev.qstep := congrArg (fun x => x.1.1.qstep) h

/-! ### Readiness bits -/

theorem State.ready_setReady (s : State) (b k : Nat) (v : Bool) : (s.setReady b v).ready k = if k = b then v && decide (k < 28) else s.ready k :=
  getLsbD_setBit s.dev.ready b k v

/-- A TRANSPORT bit that clears raises nothing. -/
theorem State.setTpReady_false (s : State) (t : Nat) : s.setTpReady t false = s.setReady (rdTRANSPORT t) false := rfl

/-- Clearing the bits that `f` gives for a list clears those and no other. -/
theorem State.ready_each_clear (s : State) (l : List Nat) (f : Nat → Nat) (k : Nat) :
    (s.each l fun s a => s.setReady (f a) false).ready k = (s.ready k && decide (k ∉ l.map f)) := by
  induction l generalizing s with
  | nil => simp [State.each]
  | cons a r ih =>
    have hstep : (s.each (a :: r) fun s a => s.setReady (f a) false) = (s.setReady (f a) false).each r fun s a => s.setReady (f a) false := rfl
    rw [hstep, ih, ready_setReady]
    by_cases hk : k = f a <;> simp [hk]

/-! ### The steps of the quiesce (Table 08-6) -/

/-- The start of a step: its reason and its number. -/
def State.beginStep (s : State) (reason k : Nat) : State := s.modDev fun d => { d with quiesced := reason, qstep := k }

/-- A later step's reason and number replace those of an earlier one. -/
theorem State.beginStep_still_of_still {s t : State} {reason j : Nat} (k : Nat) (h : t.still = (s.beginStep reason j).still) :
    (t.beginStep reason k).still = (s.beginStep reason k).still :=
  congrArg (fun x => (({ x.1.1 with quiesced := reason, qstep := k }, x.1.2), x.2)) h

/-- A step leaves everything but its reason and its number as it is. -/
theorem State.quiesceStep_still (s : State) (reason k : Nat) : (s.quiesceStep reason k).still = (s.beginStep reason k).still := by
  unfold State.quiesceStep State.beginStep
  simp only []
  split
  · exact State.each_still _ _ _ fun s t => s.gateClose_still t 5
  · exact State.each_still _ _ _ fun s t => s.orderedStop_still t .parked
  · split
    · rfl
    · exact State.commitDirs_still _
  · have hbits : ∀ z : State, ((z.setReady rdBUFFER false).each (List.range 8) fun s t => s.setTpReady t false).still = z.still := fun z =>
      (State.each_still _ _ _ fun s t => s.setTpReady_still t false).trans (z.setReady_still _ _ rdBUFFER_ne_rdHOST)
    have hcommit : ∀ z : State, (if !z.sachetUp then z else if (s.pm.state == 3 && reason == 3) then z.newLoss else
        ((z.newLoss).snapshot reason).lifeCkpt).still = z.still := fun z => by
      split
      · rfl
      · split <;> simp
    split
    · rw [State.raise_still, hbits, hcommit]
    · rw [hbits, hcommit]

/-- The last step clears BUFFER and every TRANSPORT bit. -/
theorem State.ready_quiesceStep_last (s : State) (reason b : Nat) (hb : b = rdBUFFER ∨ ∃ t, t < 8 ∧ b = rdTRANSPORT t) :
    (s.quiesceStep reason 4).ready b = false := by
  have hclear : ∀ z : State, ((z.setReady rdBUFFER false).each (List.range 8) fun s t => s.setReady (rdTRANSPORT t) false).ready b = false := fun z => by
    rw [ready_each_clear, ready_setReady]
    rcases hb with rfl | ⟨t, ht, rfl⟩
    · simp
    · have hmem : rdTRANSPORT t ∈ (List.range 8).map rdTRANSPORT := List.mem_map.2 ⟨t, List.mem_range.2 ht, rfl⟩
      simp [hmem]
  unfold State.quiesceStep
  simp only [setTpReady_false]
  split
  · rw [State.ready, State.raise_dev]
    exact hclear _
  · exact hclear _

/-- The last step of the sequence that PFAIL_N started raises Power Fail. -/
theorem State.powerFail_quiesceStep_last (s : State) (hp : s.pm.state ≠ 3) : ((s.quiesceStep 3 4).evSrc evPowerFail).sts = true := by
  have hstill := s.quiesceStep_still 3 4
  unfold State.quiesceStep at hstill ⊢
  simp only [if_true, State.raise_still] at hstill ⊢
  rw [evSrc_raise _ _ (by decide) (by rw [pmState_of_still hstill]; exact hp), if_pos rfl]

/-! ### The sequence -/

/-- The first `n` steps of a quiesce. -/
def State.firstSteps (s : State) (reason n : Nat) : State := (List.range' 1 n).foldl (fun s k => s.quiesceStep reason k) s

theorem State.firstSteps_succ (s : State) (reason n : Nat) : s.firstSteps reason (n + 1) = (s.firstSteps reason n).quiesceStep reason (n + 1) := by
  rw [firstSteps, List.range'_1_concat, List.foldl_append, Nat.add_comm 1 n]; rfl

/-- A sequence not begun takes its first steps. -/
theorem State.quiesceTo_of_none (s : State) (reason : Nat) {k : Nat} (h : s.dev.quiesced = 0) (hk : k ≤ 4) :
    s.quiesceTo reason k = s.firstSteps reason k := by
  simp only [quiesceTo, h, if_true, firstSteps, Nat.min_eq_left hk, Nat.sub_zero, Nat.zero_add]

/-- After a step has been taken the reason stands and the step is counted. -/
theorem State.firstSteps_still (s : State) (reason n : Nat) : (s.firstSteps reason (n + 1)).still = (s.beginStep reason (n + 1)).still := by
  induction n with
  | zero => exact quiesceStep_still s reason 1
  | succ n ih =>
    rw [firstSteps_succ, quiesceStep_still]
    exact beginStep_still_of_still _ ih

theorem range'_four_split : ∀ n ≤ 4, List.range' 1 4 = List.range' 1 n ++ List.range' (n + 1) (min 4 4 - n) := by decide

/-- Steps taken in two parts are the steps taken in one. -/
theorem State.quiesceTo_quiesceTo (s : State) (reason : Nat) {k : Nat} (h : s.dev.quiesced = 0) (hr : reason ≠ 0) (hk : k ≤ 4) :
    (s.quiesceTo reason k).quiesceTo reason 4 = s.firstSteps reason 4 := by
  rw [quiesceTo_of_none s reason h hk]
  cases k with
  | zero => exact quiesceTo_of_none s reason h (Nat.le_refl 4)
  | succ n =>
    have hstill := s.firstSteps_still reason n
    have hq : (s.firstSteps reason (n + 1)).dev.quiesced = reason := quiesced_of_still hstill
    have hstep : (s.firstSteps reason (n + 1)).dev.qstep = n + 1 := qstep_of_still hstill
    rw [quiesceTo, hq, hstep, if_neg hr, firstSteps, firstSteps, range'_four_split _ hk, List.foldl_append]

theorem State.quiesce_of_none (s : State) (reason : Nat) (h : s.dev.quiesced = 0) : s.quiesce reason = (s.firstSteps reason 3).quiesceStep reason 4 := by
  rw [quiesce, if_neg (by simp [h]), quiesceTo_of_none s reason h (Nat.le_refl 4), firstSteps_succ]

/-- Settles O10. -/
theorem quiesceAndFatalSetTheirState : Obligations.QuiesceAndFatalSetTheirState := by
  unfold Obligations.QuiesceAndFatalSetTheirState
  refine ⟨fun s reason => ⟨?quiesced, fun h => ?done, fun h hr k hk => ?parts⟩, fun s h hp => ?powerFail, fun s cause bits => ?fatal⟩
  case quiesced => exact fun h => if_pos h
  case done =>
    rw [s.quiesce_of_none reason h]
    have hstill := (s.firstSteps reason 3).quiesceStep_still reason 4
    refine ⟨State.quiesced_of_still hstill, State.qstep_of_still hstill, State.ready_quiesceStep_last _ _ _ (.inl rfl), fun t ht => ?_⟩
    exact State.ready_quiesceStep_last _ _ _ (.inr ⟨t, ht, rfl⟩)
  case parts => rw [s.quiesceTo_quiesceTo reason h hr hk, State.firstSteps_succ, s.quiesce_of_none reason h]
  case powerFail =>
    rw [s.quiesce_of_none 3 h]
    exact State.powerFail_quiesceStep_last _ ((State.pmState_of_still (s.firstSteps_still 3 2)).trans_ne hp)
  case fatal => exact congrArg (fun x => x.2.2.1) (s.deviceFatal_hard cause bits)

end Sys2Proof.Machine
end

section
/-! PROOF. O12: what delivered settings leave in force (R65, R67, R4). -/

namespace Sys2Proof.Machine

/-- What each step of a fold leaves, the fold leaves. -/
theorem State.each_invariant {α β : Type} (p : State → β) {f : State → α → State} (h : ∀ s a, p (f s a) = p s) (s : State) (l : List α) :
    p (s.each l f) = p s := by
  induction l generalizing s with
  | nil => rfl
  | cons a r ih => exact (ih (f s a)).trans (h s a)

theorem State.image_of_still {s t : State} (h : t.still = s.still) : t.image = s.image := congrArg (fun x => x.2.2.2.2.2.2.1) h
theorem State.pins_of_still {s t : State} (h : t.still = s.still) : t.pins = s.pins := congrArg (fun x => x.2.2.2.2.2.1) h
theorem State.gpio_of_still {s t : State} (h : t.still = s.still) : t.gpio = s.gpio := congrArg (fun x => x.2.2.2.2.2.2.2.1) h

/-! ### Links that start, and events that take their routes -/

@[simp] theorem State.modLn_still (s : State) (n : Nat) (f : Lane → Lane) : (s.modLn n f).still = s.still := rfl
@[simp] theorem State.shadowImage_still (s : State) (g : Settings) : (s.shadowImage g).still = s.still := by
  unfold State.shadowImage
  simp [apply_ite State.still]
@[simp] theorem State.setEna_still (s : State) (e : Nat) (on : Bool) : (s.setEna e on).still = s.still := by
  unfold State.setEna
  simp [apply_ite State.still]
@[simp] theorem State.trainStart_still (s : State) (n : Nat) : (s.trainStart n).still = s.still := by
  unfold State.trainStart
  simp
@[simp] theorem State.loadSlots_still (s : State) (t : Nat) : (s.loadSlots t).still = s.still := by
  unfold State.loadSlots
  simp
@[simp] theorem State.startLink_still (s : State) (t : Nat) : (s.startLink t).still = s.still := by
  unfold State.startLink
  simp only [State.modMot_still, State.loadSlots_still]
  exact State.each_still s (s.lanesOf t) _ fun s n => by simp

/-- A link that starts leaves the statistics but for their counters. -/
theorem State.startLink_epochMs (s : State) (t : Nat) : (s.startLink t).stats.epochMs = s.stats.epochMs := by
  have hlane : ∀ (s : State) (n : Nat), ((s.modLn n fun x => { x with state := .down }).trainStart n).stats.epochMs = s.stats.epochMs := fun _ _ => rfl
  exact State.each_invariant (fun s => s.stats.epochMs) hlane s (s.lanesOf t)

/-! ### Delivered settings -/

/-- What delivery starts: the links of the cores that are not held. -/
def State.startLinks (s : State) (g : Settings) : State :=
  s.each (g.tpList.filter fun t => !s.dev.ctlPending.getLsbD (coreOf t)) fun s t => (s.startLink t).modGov t fun x => { x with goal := 0 }

/-- The settings in force, with the events' routes and the shadow in Sachet. -/
def State.putSettings (s : State) (g : Settings) : State :=
  let s1 := s.modImage fun i => { i with img := g, cfg := g, loaded := true }
  let s2 := if s1.ready rdSACHET then s1.shadowImage g else s1
  s2.each g.evt fun s e => (s.modEvSrc e.event fun x => { x with owner := e.owner, vector := e.vector }).setEna e.event e.enable

theorem State.deliver_eq (s : State) (g : Settings) :
    s.deliver g = ((((s.putSettings g).modStats fun x => { x with epochMs := g.epochMs, nextMs := g.epochMs }).modGpio fun p =>
      p.load g.gpio).startLinks g).setReady rdIMAGE true := rfl

theorem State.startLinks_still (s : State) (g : Settings) : (s.startLinks g).still = s.still := State.each_still _ _ _ fun s t => by simp

theorem State.startLinks_epochMs (s : State) (g : Settings) : (s.startLinks g).stats.epochMs = s.stats.epochMs :=
  State.each_invariant (fun s => s.stats.epochMs) (f := fun s t => (s.startLink t).modGov t fun x => { x with goal := 0 })
    (fun s t => s.startLink_epochMs t) s _

theorem State.putSettings_still (s : State) (g : Settings) :
    (s.putSettings g).still = (s.modImage fun i => { i with img := g, cfg := g, loaded := true }).still := by
  unfold State.putSettings
  refine (State.each_still _ _ _ fun s e => by simp).trans ?_
  split
  · exact State.shadowImage_still _ _
  · rfl

/-- Settles O12: the operations after the image and GPIO are set leave both alone. -/
theorem deliveredSettingsAreInForce : Obligations.DeliveredSettingsAreInForce := by
  unfold Obligations.DeliveredSettingsAreInForce
  intro s g
  rw [s.deliver_eq g]
  have hput := s.putSettings_still g
  have himage : (s.putSettings g).image = _ := State.image_of_still hput
  have hpins : (s.putSettings g).pins = _ := State.pins_of_still hput
  generalize s.putSettings g = z at himage hpins
  have hlinks := ((z.modStats fun x => { x with epochMs := g.epochMs, nextMs := g.epochMs }).modGpio fun p => p.load g.gpio).startLinks_still g
  refine ⟨(State.image_of_still hlinks).trans himage, ?ready, State.startLinks_epochMs _ _, ?rwl, ?inForce, (State.pins_of_still hlinks).trans hpins⟩
  case ready =>
    rw [State.ready_setReady]
    rfl
  case rwl => exact congrArg Gpio.rwl (State.gpio_of_still hlinks)
  case inForce => exact congrArg Gpio.inForce (State.gpio_of_still hlinks)

end Sys2Proof.Machine
end

section
/-! PROOF. O22: a fetch and the checks at dispatch (R85, R92, R98, R104). What a fetch does before the dispatch is one operation on a state in which
the grant of an entry now Urgent has gone back. -/

namespace Sys2Proof.Machine

/-! ### Queue pairs -/

/-- Updating an existing queue pair writes its tenant's table at that pair alone. -/
theorem State.tn_modQp (s : State) (u q v : Nat) (f : QueuePair → QueuePair) (h : s.hasQp u q = true) :
    (s.modQp u q f).tn v = if v = u then { s.tn u with qps := Tab.set q (f (s.qp u q)) (s.tn u).qps } else s.tn v := by
  simp only [State.modQp, h, if_true, State.tn_modTn]
  rfl

theorem State.hasQp_congr {s t : State} (u q : Nat) (h : t.tenants = s.tenants) : t.hasQp u q = s.hasQp u q := by
  rw [State.hasQp, State.hasQp, tn_congr u h]

@[simp] theorem State.hasQp_modQp (s : State) (u q v p : Nat) (f : QueuePair → QueuePair) : (s.modQp u q f).hasQp v p = s.hasQp v p := by
  cases h : s.hasQp u q with
  | false => rw [modQp_absent s u q f h]
  | true =>
    rw [hasQp, tn_modQp s u q v f h]
    split
    · next hv =>
      subst hv
      rw [hasQp, Tab.has_set]
      by_cases hp : p = q
      · subst hp; simpa [hasQp] using h
      · simp [hp]
    · rfl

/-! ### A grant withdrawn (R97, R98) -/

/-- Giving a grant back touches the pools and the volumes alone. -/
theorem State.giveBack_eq (s : State) (u op vol len : Nat) (segs : Nat × Nat) (bound : Bool) :
    s.giveBack u op vol len segs bound =
      { s with bm := (s.giveBack u op vol len segs bound).bm, vols := (s.giveBack u op vol len segs bound).vols } := by
  unfold State.giveBack
  (repeat' split) <;> rfl

/-- A withdrawal gives the grant back and clears it in its pair. -/
theorem State.withdraw_eq (s : State) (u q : Nat) : ∃ b vs, s.withdraw u q =
    State.modQp { s with bm := b, vols := vs } u q fun x => { x with grant := none, bound := false, lookahead := false } := by
  unfold State.withdraw
  simp only []
  split
  · exact ⟨_, _, congrArg (fun z => State.modQp z u q _) (s.giveBack_eq _ _ _ _ _ _)⟩
  · exact ⟨s.bm, s.vols, rfl⟩

@[simp] theorem State.withdraw_pm (s : State) (u q : Nat) : (s.withdraw u q).pm = s.pm := by
  obtain ⟨b, vs, h⟩ := s.withdraw_eq u q
  rw [h, State.modQp_pm]
@[simp] theorem State.withdraw_arb (s : State) (u q : Nat) : (s.withdraw u q).arb = s.arb := by
  obtain ⟨b, vs, h⟩ := s.withdraw_eq u q
  rw [h, State.modQp_arb]
@[simp] theorem State.hasQp_withdraw (s : State) (u q v p : Nat) : (s.withdraw u q).hasQp v p = s.hasQp v p := by
  obtain ⟨b, vs, h⟩ := s.withdraw_eq u q
  rw [h, State.hasQp_modQp]
  rfl
theorem State.tn_withdraw (s : State) (u q v : Nat) (h : s.hasQp u q = true) : (s.withdraw u q).tn v = if v = u then
    { s.tn u with qps := Tab.set q { s.qp u q with grant := none, bound := false, lookahead := false } (s.tn u).qps } else s.tn v := by
  obtain ⟨b, vs, hw⟩ := s.withdraw_eq u q
  rw [hw]
  exact State.tn_modQp _ u q v _ h
theorem State.qp_withdraw (s : State) (u q v p : Nat) (h : s.hasQp u q = true) : (s.withdraw u q).qp v p =
    if v = u ∧ p = q then { s.qp u q with grant := none, bound := false, lookahead := false } else s.qp v p := by
  obtain ⟨b, vs, hw⟩ := s.withdraw_eq u q
  rw [hw]
  exact State.qp_modQp _ u q v p _ h

/-! ### The fetch, up to the dispatch -/

/-- The state a fetch starts from: an entry now Urgent gives back what another class granted it. -/
def State.ungranted (s : State) (u q : Nat) (cls : QClass) : State := if q != 0 && cls == .urgent then s.withdraw u q else s

/-- The segments of the urgent reserve that an Urgent read draws. -/
def State.urgentDraw (s : State) (q : Nat) (cls : QClass) (e : SubEntry) : Nat :=
  if (q != 0 && cls == .urgent) && e.op == 0x82 && s.ready rdBUFFER then min (ceilDiv e.len 65536) (min 16 s.bm.urgFree) else 0

/-- The command that a fetch makes of an entry. -/
def State.fetchedCmd (s : State) (u q : Nat) (cls : QClass) (e : SubEntry) : Cmd :=
  let urgent := q != 0 && cls == .urgent
  let p := s.qp u q
  { id := s.arb.nextCmd, u := u, q := q, entry := e, sqhd := (p.sqHead + 1) % p.sqDepth, level := s.levelOf e.vol, urgent := urgent, cls := cls,
    segs := if urgent then (s.urgentDraw q cls e, 0) else p.grant.getD (0, 0), bound := p.bound, stage := .fetched,
    seqAt := ((s.vol? e.vol).map fun w => w.nextSeq - 1).getD 0, data := ⟨[], []⟩, pins := s.pinsFor u e,
    sachet := s.ready rdSACHET, ring := if q ≠ 0 && e.op = 0x81 then p.ringNeed else 0 }

/-- The pair after its head entry has been fetched. -/
def QueuePair.headTaken (p : QueuePair) (r : List SubEntry) : QueuePair :=
  { p with sqHead := (p.sqHead + 1) % p.sqDepth, ring := r, lookahead := false, grant := none, bound := false, ringNeed := 0, reserved := p.reserved + 1 }

/-- The head of a pair is taken. -/
def State.takeHead (s : State) (u q : Nat) (r : List SubEntry) : State :=
  s.modQp u q fun x => { x with
    sqHead := ((s.qp u q).sqHead + 1) % (s.qp u q).sqDepth, ring := r, lookahead := false, grant := none, bound := false, ringNeed := 0, reserved := x.reserved + 1 }

/-- A command joins the fetched ones and is counted; an Urgent read draws from the urgent reserve. -/
def State.join (s : State) (c : Cmd) (draw : Nat) : State :=
  ((((s.modArb fun a => { a with nextCmd := a.nextCmd + 1, cmds := a.cmds ++ [c] }).modPm fun p => { p with idle2 := 0 }).stat (stTen c.u 0) 1).stat
    (stTen c.u 1) (b2n (c.q != 0 && c.cls == .urgent))).modBm fun b => { b with urgFree := b.urgFree - draw }

/-- A class other than Urgent charges the entry's cost to its tenant. -/
def State.charge (s : State) (u q : Nat) (cls : QClass) (e : SubEntry) : State :=
  if q ≠ 0 && !(q != 0 && cls == .urgent) then (s.modTn u fun x => { x with deficit := x.deficit - (e.cost : Int) }).stat (stTen u 14) e.cost else s

/-- The head entry leaves the ring and its command joins the fetched ones. -/
def State.headFetched (s : State) (u q : Nat) (cls : QClass) (e : SubEntry) (r : List SubEntry) : State :=
  ((s.takeHead u q r).join (s.fetchedCmd u q cls e) (s.urgentDraw q cls e)).charge u q cls e

theorem State.fetch_eq (s : State) (u q : Nat) (cls : QClass) {e : SubEntry} {r : List SubEntry} (h : ((s.ungranted u q cls).qp u q).ring = e :: r) :
    s.fetch u q cls = ((s.ungranted u q cls).headFetched u q cls e r).dispatch ((s.ungranted u q cls).fetchedCmd u q cls e) := by
  unfold State.ungranted at h ⊢
  unfold State.fetch
  simp only [h]
  rfl

/-- Nothing changes but the tenants, the fetched commands, the statistics, the pools and the power manager. -/
def State.QueueFrame (s z : State) : Prop := z = { s with tenants := z.tenants, arb := z.arb, stats := z.stats, bm := z.bm, pm := z.pm }

theorem State.QueueFrame.trans {s z y : State} (h : s.QueueFrame z) (k : z.QueueFrame y) : s.QueueFrame y := by
  unfold QueueFrame at *
  rw [k, h]

theorem State.takeHead_frame (s : State) (u q : Nat) (r : List SubEntry) : s.QueueFrame (s.takeHead u q r) := by
  unfold takeHead modQp
  split <;> rfl
theorem State.stat_frame (s : State) (i n : Nat) : s.QueueFrame (s.stat i n) := rfl
theorem State.modArb_frame (s : State) (f : Arb → Arb) : s.QueueFrame (s.modArb f) := rfl
theorem State.modPm_frame (s : State) (f : Power → Power) : s.QueueFrame (s.modPm f) := rfl
theorem State.modBm_frame (s : State) (f : Buffer → Buffer) : s.QueueFrame (s.modBm f) := rfl
theorem State.join_frame (s : State) (c : Cmd) (draw : Nat) : s.QueueFrame (s.join c draw) :=
  ((((s.modArb_frame _).trans (State.modPm_frame _ _)).trans (State.stat_frame _ _ _)).trans (State.stat_frame _ _ _)).trans (State.modBm_frame _ _)
theorem State.charge_frame (s : State) (u q : Nat) (cls : QClass) (e : SubEntry) : s.QueueFrame (s.charge u q cls e) := by
  unfold charge
  split <;> rfl
theorem State.headFetched_frame (s : State) (u q : Nat) (cls : QClass) (e : SubEntry) (r : List SubEntry) : s.QueueFrame (s.headFetched u q cls e r) :=
  ((s.takeHead_frame u q r).trans (State.join_frame _ _ _)).trans (State.charge_frame _ _ _ _ _)

@[simp] theorem State.charge_arb (s : State) (u q : Nat) (cls : QClass) (e : SubEntry) : (s.charge u q cls e).arb = s.arb := by unfold charge; split <;> simp
@[simp] theorem State.charge_bm (s : State) (u q : Nat) (cls : QClass) (e : SubEntry) : (s.charge u q cls e).bm = s.bm := by unfold charge; split <;> simp
@[simp] theorem State.charge_pm (s : State) (u q : Nat) (cls : QClass) (e : SubEntry) : (s.charge u q cls e).pm = s.pm := by unfold charge; split <;> simp

theorem State.headFetched_arb (s : State) (u q : Nat) (cls : QClass) (e : SubEntry) (r : List SubEntry) : (s.headFetched u q cls e r).arb =
    { s.arb with nextCmd := s.arb.nextCmd + 1, cmds := s.arb.cmds ++ [s.fetchedCmd u q cls e] } := by
  simp [headFetched, join, takeHead]
theorem State.headFetched_bm (s : State) (u q : Nat) (cls : QClass) (e : SubEntry) (r : List SubEntry) : (s.headFetched u q cls e r).bm =
    { s.bm with urgFree := s.bm.urgFree - s.urgentDraw q cls e } := by
  simp [headFetched, join, takeHead]
theorem State.headFetched_pm (s : State) (u q : Nat) (cls : QClass) (e : SubEntry) (r : List SubEntry) :
    (s.headFetched u q cls e r).pm = { s.pm with idle2 := 0 } := by
  simp [headFetched, join, takeHead]

/-- The charge of a class other than Urgent is all that `State.charge` writes of a tenant. -/
theorem State.tn_charge (s : State) (u q v : Nat) (cls : QClass) (e : SubEntry) : (s.charge u q cls e).tn v = if v = u then
    { s.tn u with deficit := (s.tn u).deficit - (if q ≠ 0 ∧ cls ≠ .urgent then (e.cost : Int) else 0) } else s.tn v := by
  unfold charge
  by_cases hcharged : q ≠ 0 ∧ cls ≠ .urgent
  · rw [if_pos (by simp [hcharged]), if_pos hcharged]
    rw [tn_congr v (State.stat_tenants _ _ _)]
    exact State.tn_modTn s u v _
  · rw [if_neg (by simpa using fun hq => by simpa [hq] using hcharged), if_neg hcharged, Int.sub_zero]
    split
    · next hv => rw [hv]
    · rfl

/-- The tenants after a fetch: the pair's head is taken, and a class other than Urgent is charged. -/
theorem State.tn_headFetched (s : State) (u q v : Nat) (cls : QClass) (e : SubEntry) (r : List SubEntry) (h : s.hasQp u q = true) :
    (s.headFetched u q cls e r).tn v = if v = u then
      { s.tn u with qps := Tab.set q ((s.qp u q).headTaken r) (s.tn u).qps
                    deficit := (s.tn u).deficit - (if q ≠ 0 ∧ cls ≠ .urgent then (e.cost : Int) else 0) } else s.tn v := by
  have hjoin : ∀ v, ((s.takeHead u q r).join (s.fetchedCmd u q cls e) (s.urgentDraw q cls e)).tn v = (s.takeHead u q r).tn v := fun v =>
    tn_congr v (by simp [join])
  have hhead : ∀ v, (s.takeHead u q r).tn v = if v = u then { s.tn u with qps := Tab.set q ((s.qp u q).headTaken r) (s.tn u).qps } else s.tn v :=
    fun v => s.tn_modQp u q v _ h
  rw [headFetched, tn_charge, hjoin, hjoin, hhead, hhead, if_pos rfl]
  split <;> rfl

/-- The pairs after a fetch. -/
theorem State.qp_headFetched (s : State) (u q k : Nat) (cls : QClass) (e : SubEntry) (r : List SubEntry) (h : s.hasQp u q = true) :
    (s.headFetched u q cls e r).qp u k = if k = q then (s.qp u q).headTaken r else s.qp u k := by
  rw [State.qp, State.tn_headFetched s u q u cls e r h, if_pos rfl]
  exact Tab.get_set _ _ _ _ _

/-- The state a fetch starts from has the pair with the ring, the head and the charge as they were. -/
theorem State.ungranted_facts (s : State) (u q : Nat) (cls : QClass) (h : s.hasQp u q = true) :
    let w := s.ungranted u q cls
    w.hasQp u q = true ∧ w.pm = s.pm ∧ w.arb = s.arb ∧ (w.qp u q).ring = (s.qp u q).ring ∧ (w.qp u q).sqHead = (s.qp u q).sqHead ∧
      (w.qp u q).sqDepth = (s.qp u q).sqDepth ∧ (w.qp u q).reserved = (s.qp u q).reserved ∧ (w.tn u).deficit = (s.tn u).deficit ∧
      (∀ v, v ≠ u → w.tn v = s.tn v) ∧ ∀ k, k ≠ q → w.qp u k = s.qp u k := by
  unfold State.ungranted
  split
  · simp only [hasQp_withdraw, withdraw_pm, withdraw_arb, qp_withdraw s u q u _ h, tn_withdraw s u q _ h]
    exact ⟨h, trivial, trivial, rfl, rfl, rfl, rfl, rfl, fun v hv => if_neg hv, fun k hk => if_neg fun hq => hk hq.2⟩
  · exact ⟨h, rfl, rfl, rfl, rfl, rfl, rfl, rfl, fun _ _ => rfl, fun _ _ => rfl⟩

/-! ### The checks at dispatch (R104) -/

theorem State.dispatch_unknown (s : State) (c : Cmd) (h : (if c.q = 0 then adminOps else ioOps).contains c.entry.op = false) :
    s.dispatch c = s.complete c ⟨0, 1⟩ {} := by
  simp only [State.dispatch, h]
  rfl
theorem State.dispatch_steward (s : State) (c : Cmd) (h : (if c.q = 0 then adminOps else ioOps).contains c.entry.op = true)
    (hs : stewardOnly c.u c.entry = true) : s.dispatch c = s.complete c ⟨0, 4⟩ {} := by
  simp only [State.dispatch, h, hs]
  rfl
/-- A command that passes the first two checks is tested for its units' readiness, then for its action. -/
theorem State.dispatch_of_allowed (s : State) (c : Cmd) (h : (if c.q = 0 then adminOps else ioOps).contains c.entry.op = true)
    (hs : stewardOnly c.u c.entry = false) : s.dispatch c = (s.missing c.entry).elim
      (if actionKnown c.entry then s else s.complete c ⟨0, 2⟩ {}) (s.failNotReady c) := by
  simp only [State.dispatch, h, hs]
  cases s.missing c.entry <;> rfl

/-- Settles O22. -/
theorem fetchAndDispatchInOrder : Obligations.FetchAndDispatchInOrder := by
  unfold Obligations.FetchAndDispatchInOrder
  refine ⟨fun s u q cls e r hq hring => ?fetch, fun e => rfl, fun s c => ?dispatch⟩
  case fetch =>
    obtain ⟨hqw, hpm, harb, hringw, hhead, hdepth, hres, hdef, htn, hqp⟩ := s.ungranted_facts u q cls hq
    have hframe := (s.ungranted u q cls).headFetched_frame u q cls e r
    have hcmds := (s.ungranted u q cls).headFetched_arb u q cls e r
    have hpools := (s.ungranted u q cls).headFetched_bm u q cls e r
    have hpower := (s.ungranted u q cls).headFetched_pm u q cls e r
    have htaken := (s.ungranted u q cls).qp_headFetched u q
    refine ⟨s.ungranted u q cls, fun hu => ?withdrawn, fun hu => ?kept, (s.ungranted u q cls).headFetched u q cls e r,
      (s.ungranted u q cls).fetchedCmd u q cls e, s.fetch_eq u q cls (hringw.trans hring), ?frame, ?cmds, ?id, rfl, rfl, rfl, rfl, rfl, ?sqhd,
      fun hu => ?grant, fun hu => ?draw, ?pair, fun hq0 hc => ?charged, fun hfree => ?free, fun v hv => ?tenants, fun k hk => ?pairs⟩
    case withdrawn => exact if_pos (by simpa using hu)
    case kept => exact if_neg (by simpa using hu)
    case frame =>
      rw [hpm] at hpower
      rw [State.QueueFrame, hpower] at hframe
      exact hframe
    case cmds => rw [harb] at hcmds; exact hcmds
    case id => exact congrArg Arb.nextCmd harb
    case sqhd => rw [← hhead, ← hdepth]; rfl
    case grant =>
      have hw : s.ungranted u q cls = s := if_neg (by simpa using hu)
      have hc : ¬ (q != 0 && cls == .urgent) = true := by simpa using hu
      refine ⟨?_, ?_⟩
      · simp only [State.fetchedCmd, hw, if_neg hc]
      · rw [hw] at hpools
        rw [hw, hpools, State.urgentDraw, Bool.eq_false_of_not_eq_true hc]
        rfl
    case draw =>
      have hc : (q != 0 && cls == .urgent) = true := by simpa using hu
      have hsegs : ((s.ungranted u q cls).fetchedCmd u q cls e).segs = ((s.ungranted u q cls).urgentDraw q cls e, 0) := if_pos hc
      have hdraw : (s.ungranted u q cls).urgentDraw q cls e ≤ min 16 (s.ungranted u q cls).bm.urgFree := by
        unfold State.urgentDraw
        split <;> omega
      rw [hsegs]
      exact ⟨rfl, le_trans hdraw (min_le_left _ _), le_trans hdraw (min_le_right _ _), hpools⟩
    case pair =>
      rw [htaken q cls e r hqw, if_pos rfl, ← hhead, ← hdepth, ← hres]
      rfl
    case charged => rw [State.tn_headFetched _ u q u cls e r hqw, if_pos rfl, ← hdef, if_pos ⟨hq0, hc⟩]
    case free =>
      have hc : ¬ (q ≠ 0 ∧ cls ≠ .urgent) := fun ⟨hq0, hcls⟩ => hfree.elim hq0 hcls
      rw [State.tn_headFetched _ u q u cls e r hqw, if_pos rfl, ← hdef, if_neg hc, Int.sub_zero]
    case tenants => rw [State.tn_headFetched _ u q v cls e r hqw, if_neg hv, htn v hv]
    case pairs => rw [htaken k cls e r hqw, if_neg hk, hqp k hk]
  case dispatch =>
    refine ⟨s.dispatch_unknown c, s.dispatch_steward c, fun hk hs b hb => ?notReady, fun hk hs hb ha => ?action, fun hk hs hb ha => ?passes⟩
    case notReady => rw [s.dispatch_of_allowed c hk hs, hb]; rfl
    case action => rw [s.dispatch_of_allowed c hk hs, hb]; simp [ha]
    case passes => rw [s.dispatch_of_allowed c hk hs, hb]; simp [ha]

end Sys2Proof.Machine
end

section
/-! PROOF. O25: Get Log (R138, R147, R342). -/

namespace Sys2Proof.Machine

/-! ### Rows that execute a fetched command -/

/-- A row that ends in `x` has the effect `x`. -/
theorem takes_of_commit {i : Instr} {s x e : State} (hrow : exec i s = commit s x) (he : x = e) : Safety.Takes i s e := he ▸ hrow

/-- A row that executes a command has the effect of the command fetched. -/
theorem takes_run {i : Instr} {s e : State} {cmd : Option Cmd} {c : Cmd} {f : Cmd → State} (hrow : exec i s = commit s (s.run cmd f))
    (hc : cmd = some c) (he : f c = e) : Safety.Takes i s e := by
  subst hc he
  exact hrow

/-- With no such command fetched the row changes nothing (log 5). -/
theorem takes_run_none {i : Instr} {s : State} {cmd : Option Cmd} {f : Cmd → State} (hrow : exec i s = commit s (s.run cmd f)) (hc : cmd = none) :
    Safety.Takes i s s := by
  subst hc
  exact hrow

/-- A check that fails, and one that passes, as the rows test them. -/
theorem check_fails {b : Bool} {p : Prop} (hb : b = true ↔ p) (h : ¬ p) : (!b) = true := by
  cases b
  · rfl
  · exact absurd (hb.1 rfl) h
theorem check_passes {b : Bool} {p : Prop} (hb : b = true ↔ p) (h : p) : ¬ (!b) = true := by
  rw [hb.2 h]
  decide

/-- A fetched admin command is of its tenant, its admin queue and its opcode. -/
theorem State.of_adminCmd {s : State} {u op : Nat} {c : Cmd} (h : s.adminCmd u op = some c) : c.u = u ∧ c.q = 0 ∧ c.entry.op = op := by
  have hfound := List.find?_some h
  simp only [Bool.and_eq_true, beq_iff_eq] at hfound
  exact ⟨hfound.2.1.1, hfound.2.1.2, hfound.2.2⟩

/-- Data written to host memory is one output; no data is none. -/
theorem State.hostWrite_ite (s : State) (c : Cmd) (data : Bytes) : (if data.isEmpty then s else s.hostWrite c data) =
    { s with out := if data = [] then s.out else s.out ++ [.hostData c.u c.q c.entry.cid data] } := by
  cases data <;> rfl

/-- A free value taken under a condition. -/
theorem State.take_ite (s : State) (p : Prop) [Decidable p] : (if p then s.take else s) = { s with freeCtr := if p then s.freeCtr + 1 else s.freeCtr } := by
  split <;> rfl

/-! ### What a whole read consumes (Table 07-3) -/

/-- The logs in Sachet are tables: clearing one tenant's log leaves the others'. -/
theorem Tab.get_set_log (m : Tab Log) (u v : Nat) (l : Log) : Tab.get ({} : Log) (Tab.set u l m) v = if v = u then l else Tab.get {} m v :=
  Tab.get_set _ _ _ _ _

/-- A read of a log that is not consumed, or is unknown, changes nothing. -/
theorem State.consumeLog_kept (s : State) (u : Nat) {lid : Nat} (h : ∀ k ∈ [2, 3, 4, 5, 6, 8], lid ≠ k) : s.consumeLog u lid = s := by
  simp only [List.mem_cons, List.not_mem_nil, or_false, forall_eq_or_imp, forall_eq] at h
  obtain ⟨h2, h3, h4, h5, h6, h8⟩ := h
  unfold State.consumeLog
  split
  case h_7 => rfl
  all_goals contradiction

/-- What any read leaves: the other tenants, and their logs in Sachet. -/
theorem State.consumeLog_other (s : State) (u lid v : Nat) (hv : v ≠ u) :
    (s.consumeLog u lid).tn v = s.tn v ∧ Tab.get {} (s.consumeLog u lid).sachet.lostRec v = Tab.get ({} : Log) s.sachet.lostRec v ∧
      Tab.get {} (s.consumeLog u lid).sachet.anchors v = Tab.get ({} : Log) s.sachet.anchors v ∧
      Tab.get {} (s.consumeLog u lid).sachet.orphan v = Tab.get ({} : Log) s.sachet.orphan v := by
  have htn : ∀ f, (s.modTn u f).tn v = s.tn v := fun f => (s.tn_modTn u v f).trans (if_neg hv)
  have hget : ∀ (m : Tab Log) (l : Log), Tab.get ({} : Log) (Tab.set u l m) v = Tab.get {} m v := fun m l =>
    (Tab.get_set_log m u v l).trans (if_neg hv)
  unfold State.consumeLog
  split
  case h_1 | h_3 => exact ⟨htn _, rfl, rfl, rfl⟩
  case h_2 => exact ⟨rfl, hget _ _, rfl, rfl⟩
  case h_4 =>
    split
    · exact ⟨htn _, rfl, rfl, rfl⟩
    · exact ⟨rfl, rfl, rfl, rfl⟩
  case h_5 => exact ⟨rfl, rfl, hget _ _, rfl⟩
  case h_6 => exact ⟨rfl, rfl, rfl, hget _ _⟩
  case h_7 => exact ⟨rfl, rfl, rfl, rfl⟩

/-- A read changes the tenants and Sachet alone. -/
theorem State.consumeLog_frame (s : State) (u lid : Nat) :
    s.consumeLog u lid = { s with tenants := (s.consumeLog u lid).tenants, sachet := (s.consumeLog u lid).sachet } := by
  unfold State.consumeLog
  simp only []
  (repeat' split) <;> rfl

/-- Settles O25. -/
theorem logsReturnAndConsume : Obligations.LogsReturnAndConsume := by
  unfold Obligations.LogsReturnAndConsume
  refine ⟨fun s u h c0 hc => ⟨fun hok => ?badField, fun hok h5 hh => ?waits, fun hok h5 hb => ?unknown, fun hok h5 b hb => ?reads⟩, fun s u => ?consumed⟩
  case badField => exact takes_run rfl hc (if_pos (check_fails (by simp [zeros, and_assoc]) hok))
  case waits =>
    refine takes_run rfl hc ((if_neg (check_passes (by simp [zeros, and_assoc]) hok)).trans (if_pos ?_))
    simp [h5, Option.isSome_iff_ne_none, hh]
  case unknown =>
    refine takes_run rfl hc ((if_neg (check_passes (by simp [zeros, and_assoc]) hok)).trans ((if_neg (by rcases h5 with h5 | h5 <;> simp [h5])).trans ?_))
    dsimp only at hb ⊢
    rw [hb]
    rfl
  case reads =>
    obtain ⟨hu, hq, -⟩ := State.of_adminCmd hc
    refine takes_run rfl hc ((if_neg (check_passes (by simp [zeros, and_assoc]) hok)).trans ((if_neg (by rcases h5 with h5 | h5 <;> simp [h5])).trans ?_))
    dsimp only at hb ⊢
    rw [hb]
    simp only [State.hostWrite_ite, State.take_ite, hu, hq, Bool.and_eq_true, decide_eq_true_eq]
  case consumed =>
    refine ⟨?deferred, ?pruning, ?lost, ?anchors, ?orphans, fun hs => ?snapshot, ?errors, ?health, fun lid v hv => s.consumeLog_other u lid v hv,
      s.consumeLog_frame u⟩
    case deferred | pruning => exact (s.tn_modTn u u _).trans (if_pos rfl)
    case lost | anchors | orphans => exact (Tab.get_set_log _ u u _).trans (if_pos rfl)
    case snapshot =>
      have hsome : s.stats.snap.isSome = true := Option.isSome_iff_ne_none.2 hs
      exact (congrArg (fun z => State.tn z u) (if_pos hsome)).trans ((s.tn_modTn u u _).trans (if_pos rfl))
    case errors | health => exact s.consumeLog_kept u (by decide)

end Sys2Proof.Machine
end

section
/-! PROOF. O26: Get and Set Features (R68, R106). -/

namespace Sys2Proof.Machine

/-- The fields of W5 that Get Features takes: an event's number for FID 0x50, else none. -/
theorem featureArg_iff (fid : Nat) (w5 : Word) :
    (if fid = 0x50 then decide (w5.toNat < 512) else w5 == 0) = true ↔ (fid = 0x50 → w5.toNat < 512) ∧ (fid ≠ 0x50 → w5 = 0) := by
  split
  · next h => simp [h]
  · next h => simp [h]

theorem inRange_iff (lo hi n : Nat) : inRange lo hi n = true ↔ lo ≤ n ∧ n ≤ hi := by simp [inRange]

/-- MAX_SPEED overrides the transport's setting alone; the speed in use stands until the governor takes the new one. -/
theorem State.maxSpeed_overrides (s : State) (t n : Nat) :
    let z := (s.modGov t fun g => { g with maxUse := some (g.maxUse.getD (s.trnCfg t).maxSpeed) }).modTrn t fun c => { c with maxSpeed := n }
    z.trnCfg t = { s.trnCfg t with maxSpeed := n } ∧ z.cfg = { s.cfg with trn := z.cfg.trn } ∧ (∀ k, k ≠ t → z.trnCfg k = s.trnCfg k) ∧
      (z.tp t).gov.maxUse ≠ none := by
  refine ⟨(Tab.get_set _ t t _ _).trans (if_pos rfl), rfl, fun k hk => (Tab.get_set _ t k _ _).trans (if_neg hk), ?_⟩
  have htp : ((s.modGov t fun g => { g with maxUse := some (g.maxUse.getD (s.trnCfg t).maxSpeed) }).tp t) = _ := (s.tp_modTp t t _).trans (if_pos rfl)
  have hgov := congrArg (fun x => x.gov.maxUse) htp
  exact fun h => Option.some_ne_none _ (hgov.symm.trans h)

/-- Settles O26. -/
theorem featuresAnswerAndOverride : Obligations.FeaturesAnswerAndOverride := by
  unfold Obligations.FeaturesAnswerAndOverride
  refine ⟨fun s u c => ⟨fun hc => ⟨fun hok harg => ?answers, fun hbad => ?unanswered⟩, fun hc => ⟨fun z hok hz => ?sets, fun hbad => ?refused⟩⟩, fun s u t v => ?overrides⟩
  case answers => exact takes_run rfl hc (if_pos (Bool.and_eq_true_iff.2 ⟨hok, (featureArg_iff _ _).2 harg⟩))
  case unanswered =>
    refine takes_run rfl hc (if_neg fun h => hbad ?_)
    obtain ⟨hok, harg⟩ := Bool.and_eq_true_iff.1 h
    exact ⟨hok, (featureArg_iff _ _).1 harg⟩
  case sets =>
    refine takes_run rfl hc ((if_neg (by simp [hok])).trans ?_)
    rw [hz]
  case refused =>
    by_cases hok : s.featureOk c.entry = true
    · have hnone := hbad.resolve_left (by simp [hok])
      refine takes_run rfl hc ((if_neg (by simp [hok])).trans ?_)
      rw [hnone]
      rfl
    · exact takes_run rfl hc (if_pos (by simpa using hok))
  case overrides =>
    refine ⟨fun h1 h2 => if_pos ((inRange_iff _ _ _).2 ⟨h1, h2⟩), fun h => if_pos h, fun h => if_pos h, fun h => if_pos h,
      fun h => ⟨_, if_pos h, s.maxSpeed_overrides t _⟩, fun h1 h2 => if_pos ((inRange_iff _ _ _).2 ⟨h1, h2⟩), fun h => ?weight,
      fun h => ⟨if_neg (Nat.not_le.2 h), if_neg (Nat.not_le.2 h)⟩, fun h => if_neg (Nat.not_le.2 h), fun h => if_neg (Nat.not_le.2 h), fun h => ?epoch⟩
    case weight => exact if_neg (by rw [inRange_iff]; omega)
    case epoch => exact if_neg (by rw [inRange_iff]; omega)

end Sys2Proof.Machine
end

section

/-! PROOF. The volume a handle names, and O31: what an admitted record leaves in its volume. -/

namespace Sys2Proof.Machine

/-! ### The volume a handle names -/

/-- The entry found first under a key: the one just set, or the one that stood there. -/
theorem Tab.find?_set {α : Type} (k j : Nat) (x : α) (m : Tab α) :
    ((Tab.set k x m).find? fun p => p.1 == j).map (·.2) = if j = k then some x else (m.find? fun p => p.1 == j).map (·.2) := by
  induction m with
  | nil => rcases eq_or_ne j k with rfl | h <;> simp [Tab.set, *, Ne.symm]
  | cons p r ih =>
    obtain ⟨i, w⟩ := p
    unfold Tab.set
    by_cases hik : i = k
    · subst hik
      rcases eq_or_ne j i with rfl | h <;> simp [*, Ne.symm]
    · by_cases hlt : k < i
      · rcases eq_or_ne j k with rfl | h <;> simp [*, Ne.symm]
      · by_cases hij : i = j
        · subst hij; simp [hik, hlt]
        · simpa [hik, hlt, hij] using ih

@[simp] theorem State.vol?_setVol (s : State) (h : Nat) (x : Volume) : (s.setVol h x).vol? h = some x := by
  simpa [State.setVol, State.vol?] using Tab.find?_set h h x s.vols

theorem State.vol?_setVol_other (s : State) {h j : Nat} (x : Volume) (hj : j ≠ h) : (s.setVol h x).vol? j = s.vol? j := by
  simpa [State.setVol, State.vol?, hj] using Tab.find?_set h j x s.vols

theorem State.vol?_modVol {s : State} {h : Nat} {w : Volume} (hw : s.vol? h = some w) (f : Volume → Volume) :
    (s.modVol h f).vol? h = some (f w) := by
  simp [State.modVol, hw]

theorem State.vol?_congr {s s' : State} (hs : s'.vols = s.vols) (h : Nat) : s'.vol? h = s.vol? h := by
  simp [State.vol?, hs]

@[simp] theorem State.sachetWrite_vols (s : State) (key n bytes : Nat) : (s.sachetWrite key n bytes).vols = s.vols := by
  simp only [State.sachetWrite]; split <;> simp

@[simp] theorem State.ringAppend_vols (s : State) (x : BitVec 128) (seq : Nat) (b : Bytes) : (s.ringAppend x seq b).vols = s.vols := by
  simp [State.ringAppend]

/-! ### What a record's bytes do to its volume -/

/-- The bytes of the stream move the packer's block and the blocks cut, and none of the volume's numbers or records. -/
theorem Volume.pour_keeps (n : Nat) : ∀ (seq : Nat) (hdr : Bool) (bs : Bytes) (w : Volume),
    let w' := Volume.pour n seq hdr bs w
    w'.nextSeq = w.nextSeq ∧ w'.uuid = w.uuid ∧ w'.marks = w.marks ∧ w'.recs = w.recs := by
  induction n with
  | zero => intro seq hdr bs w; exact ⟨rfl, rfl, rfl, rfl⟩
  | succ n ih =>
    intro seq hdr bs w
    simp only [Volume.pour]
    split
    · exact ⟨rfl, rfl, rfl, rfl⟩
    · simp only [ih]
      split
      · simp only [Volume.cutBlock]
        split <;> exact ⟨rfl, rfl, rfl, rfl⟩
      · exact ⟨rfl, rfl, rfl, rfl⟩

/-- A record appended to the stream joins the buffered records at the stream's end; the volume's numbers stand. -/
theorem Volume.append_keeps (w : Volume) (r : BufRec) (seq : Nat) :
    let w' := w.append r seq
    w'.nextSeq = w.nextSeq ∧ w'.uuid = w.uuid ∧ w'.marks = w.marks ∧
      w'.recs = w.recs ++ [{ r with start := w.streamPos, place := w.bufPos }] := by
  obtain ⟨hn, hu, hm, hr⟩ := Volume.pour_keeps (r.bytes.length / 65536 + 2) seq true r.bytes
    { (w.store r.bytes.length) with
      recs := w.recs ++ [{ r with start := w.streamPos, place := w.bufPos }], streamPos := w.streamPos + r.bytes.length }
  exact ⟨hn, hu, hm, hr⟩

/-! ### The bits and bytes of a little-endian word -/

/-- Bit `j` of byte `k` stands at bit `8 k + j` of the number. -/
theorem leNat_testBit (bs : Bytes) : ∀ (k j : Nat), j < 8 → (leNat bs).testBit (8 * k + j) = (bs.getD k 0).getLsbD j := by
  induction bs with
  | nil => intro k j _; simp [leNat]
  | cons b r ih =>
    intro k j hj
    have hsum : leNat (b :: r) = 2 ^ 8 * leNat r + b.toNat := by rw [leNat]; omega
    rw [hsum, Nat.testBit_two_pow_mul_add _ b.isLt]
    cases k with
    | zero => simp [hj, BitVec.getLsbD]
    | succ k =>
      have hge : ¬ 8 * (k + 1) + j < 8 := by omega
      have hsub : 8 * (k + 1) + j - 8 = 8 * k + j := by omega
      simpa [hge, hsub] using ih k j hj

theorem slice_eq_take (r : Bytes) (off len : Nat) (h : off + len ≤ r.length) : slice r off len = (r.drop off).take len := by
  have hl : len - min len (r.length - off) = 0 := by omega
  simp [slice, hl]

/-- Bit 52 of a record's word 0 is bit 4 of its byte 6. -/
theorem bit_52_eq (r : Bytes) (h : 32 ≤ r.length) : bit (wordAt r 0) 52 = (r.getD 6 0).getLsbD 4 := by
  have hbyte := leNat_testBit (r.take 8) 6 4 (by omega)
  rw [bit, wordAt, slice_eq_take r 0 8 (by omega), BitVec.getLsbD_ofNat]
  simpa [List.getElem?_take] using hbyte

/-- The mask that clears bit 4 of a byte leaves a byte without it. -/
theorem and_EF_eq (b : Byte) (h : b.getLsbD 4 = false) : b &&& 0xEF = b := by
  have : ∀ b : Byte, b.getLsbD 4 = false → b &&& 0xEF = b := by decide
  exact this b h

/-- The stored copy byte by byte: the header with bit 52 cleared, the number in word 3, the payload. -/
theorem withSeq_eq (r : Bytes) (seq : Nat) (h : 32 ≤ r.length) :
    withSeq r seq = r.take 6 ++ [r.getD 6 0 &&& 0xEF] ++ (r.take 24).drop 7 ++ leBytes 8 seq ++ r.drop 32 := by
  have h1 : (r.drop 6).take 1 = [r.getD 6 0] := by
    rw [List.drop_eq_getElem_cons (by omega : 6 < r.length), List.getD_eq_getElem _ _ (by omega)]; rfl
  rw [withSeq, slice_eq_take r 6 1 (by omega), slice_eq_take r 7 17 (by omega), h1, List.drop_take]
  rfl

/-- With bit 52 clear the header stands as the host wrote it. -/
theorem withSeq_of_bit52 (r : Bytes) (seq : Nat) (h : 32 ≤ r.length) (hb : bit (wordAt r 0) 52 = false) :
    withSeq r seq = r.take 24 ++ leBytes 8 seq ++ r.drop 32 := by
  have hsplit : r.take 24 = r.take 6 ++ [r.getD 6 0] ++ (r.take 24).drop 7 := by
    have h1 : (r.take 24).drop 6 = r.getD 6 0 :: (r.take 24).drop 7 := by
      rw [List.drop_eq_getElem_cons (by simp; omega : 6 < (r.take 24).length), List.getD_eq_getElem _ _ (by omega)]; simp
    have h2 : (r.take 24).take 6 = r.take 6 := by simp [List.take_take]
    calc r.take 24 = (r.take 24).take 6 ++ (r.take 24).drop 6 := (List.take_append_drop 6 _).symm
      _ = _ := by rw [h1, h2]; simp
  rw [withSeq_eq r seq h, and_EF_eq _ ((bit_52_eq r h).symm.trans hb), ← hsplit]

/-! ### The record admitted -/

/-- The buffered record that `storeRecord` appends, before its place in the stream is known. -/
def bufRecOf (s : State) (w : Volume) (seq : Nat) (r : Bytes) (urgent : Bool) : BufRec :=
  { seq := some seq, bytes := r, start := 0, place := 0, tag := fld (wordAt r 0) 47 32, time := (wordAt r 8).toNat,
    durable := bit (wordAt r 0) 50, mark := bit (wordAt r 0) 51, gen := (s.tn w.tenant).gen, urgent := urgent }

/-- Storing a record changes, of the volume, what `append` does. -/
theorem State.vol?_storeRecord {s : State} {h : Nat} {w : Volume} (seq : Nat) (r : Bytes) (urg : Bool) (hw : s.vol? h = some w) :
    ∃ w' b, (s.storeRecord h seq r urg).vol? h = some w' ∧ w'.nextSeq = w.nextSeq ∧ w'.uuid = w.uuid ∧ w'.marks = w.marks ∧
      b ∈ w'.recs ∧ b.seq = some seq ∧ b.bytes = r := by
  obtain ⟨hn, hu, hm, hr⟩ := Volume.append_keeps w (bufRecOf s w seq r urg) seq
  have hmem : { bufRecOf s w seq r urg with start := w.streamPos, place := w.bufPos } ∈ (w.append (bufRecOf s w seq r urg) seq).recs := by
    rw [hr]; exact List.mem_append_right _ (List.mem_singleton.2 rfl)
  exact ⟨_, _, State.vol?_modVol hw _, hn, hu, hm, hmem, rfl, rfl⟩

theorem State.modDir_vols (s : State) (t : Nat) (f : Directory → Directory) : (s.modDir t f).vols = s.vols := rfl

/-- The volume as it stands while a record takes its number. -/
def Volume.numbered (w : Volume) (r : Bytes) : Volume :=
  { w with nextSeq := w.nextSeq + 1, marks := w.marks + b2n (recMark r), markSeqs := if recMark r then w.markSeqs ++ [w.nextSeq] else w.markSeqs }

/-- The volumes after a record is taken: its volume is numbered and stores the copy. -/
theorem State.takeRecord_vols {s : State} {c : Cmd} (t : Nat) {r : Bytes} {w : Volume}
    (hw : (s.closeGap c.entry.vol (recTag r)).vol? c.entry.vol = some w) :
    (s.takeRecord c t r).vols =
      (((s.closeGap c.entry.vol (recTag r)).setVol c.entry.vol (w.numbered r)).storeRecord c.entry.vol w.nextSeq (withSeq r w.nextSeq) c.urgent).vols := by
  simp only [State.takeRecord, hw, State.stat_vols, State.modDir_vols]
  split
  · rw [State.stat_vols, State.ringAppend_vols]; rfl
  · rfl

/-- The volume after a record is taken: its number is taken, its marks counted, and the numbered copy buffered. -/
theorem State.vol?_takeRecord {s : State} {c : Cmd} (t : Nat) {r : Bytes} {w : Volume}
    (hw : (s.closeGap c.entry.vol (recTag r)).vol? c.entry.vol = some w) :
    ∃ w' b, (s.takeRecord c t r).vol? c.entry.vol = some w' ∧ w'.nextSeq = w.nextSeq + 1 ∧ w'.uuid = w.uuid ∧
      w'.marks = w.marks + b2n (recMark r) ∧ b ∈ w'.recs ∧ b.seq = some w.nextSeq ∧ b.bytes = withSeq r w.nextSeq := by
  obtain ⟨w', b, hv, hrest⟩ := State.vol?_storeRecord w.nextSeq (withSeq r w.nextSeq) c.urgent
    (State.vol?_setVol (s.closeGap c.entry.vol (recTag r)) c.entry.vol (w.numbered r))
  exact ⟨w', b, (State.vol?_congr (State.takeRecord_vols t hw) _).trans hv, hrest⟩

/-- Settles O31: taking a record sets its volume's number and stores the copy whose word 3 is that number. -/
theorem admissionNumbersRecords : Obligations.AdmissionNumbersRecords := by
  unfold Obligations.AdmissionNumbersRecords
  intro s c t r w hlen hw
  obtain ⟨w', b, hv, hseq, huuid, hmarks, hmem, hnum, hbytes⟩ := State.vol?_takeRecord (c := c) t hw
  refine ⟨w', hv, hseq, huuid, ?_, b, hmem, hnum, fun hb => ?_, ?_⟩
  · rw [hmarks, recMark]; cases bit (wordAt r 0) 51 <;> rfl
  · rw [hbytes, withSeq_of_bit52 r _ hlen hb]
  · rw [hbytes, withSeq_eq r _ hlen]

end Sys2Proof.Machine

end

section

/-! PROOF. O37. What the operations of a tape leave of every transport's motion (`State.mots`), and Out of Service. -/

namespace Sys2Proof.Machine

/-! ### The motion of every transport stands -/

/-- The motion of every transport. -/
def State.mots (s : State) : Nat → Motion := fun t => s.mot t

theorem State.mots_congr {s s' : State} (h : s'.tps = s.tps) : s'.mots = s.mots := by
  funext t; simp only [State.mots, State.mot, State.tp, h]

theorem State.mot_of_mots {s s' : State} (h : s'.mots = s.mots) (t : Nat) : s'.mot t = s.mot t := congrFun h t

@[simp] theorem State.modTp_mots (s : State) (t : Nat) (f : Transport → Transport) (h : ∀ x, (f x).mot = x.mot) : (s.modTp t f).mots = s.mots := by
  funext v
  simp only [State.mots, State.mot, State.tp_modTp]
  split
  · next hv => rw [h, hv]
  · rfl

theorem State.mot_modMot (s : State) (t v : Nat) (f : Motion → Motion) : (s.modMot t f).mot v = if v = t then f (s.mot v) else s.mot v := by
  simp only [State.mot, State.modMot, State.tp_modTp]
  split
  · next hv => rw [hv]
  · rfl

@[simp] theorem State.mot_modMot_same (s : State) (t : Nat) (f : Motion → Motion) : (s.modMot t f).mot t = f (s.mot t) := by
  simp [State.mot_modMot]

@[simp] theorem State.modDev_mots (s : State) (f : Device → Device) : (s.modDev f).mots = s.mots := rfl
@[simp] theorem State.modPm_mots (s : State) (f : Power → Power) : (s.modPm f).mots = s.mots := rfl
@[simp] theorem State.modEv_mots (s : State) (f : Tab EvSource → Tab EvSource) : (s.modEv f).mots = s.mots := rfl
@[simp] theorem State.modStats_mots (s : State) (f : Stats → Stats) : (s.modStats f).mots = s.mots := rfl
@[simp] theorem State.modTenants_mots (s : State) (f : Tab Tenant → Tab Tenant) : (s.modTenants f).mots = s.mots := rfl
@[simp] theorem State.modArb_mots (s : State) (f : Arb → Arb) : (s.modArb f).mots = s.mots := rfl
@[simp] theorem State.modBm_mots (s : State) (f : Buffer → Buffer) : (s.modBm f).mots = s.mots := rfl
@[simp] theorem State.modVols_mots (s : State) (f : Tab Volume → Tab Volume) : (s.modVols f).mots = s.mots := rfl
@[simp] theorem State.modSachet_mots (s : State) (f : Sachet → Sachet) : (s.modSachet f).mots = s.mots := rfl
@[simp] theorem State.emit_mots (s : State) (o : Output) : (s.emit o).mots = s.mots := rfl
@[simp] theorem State.take_mots (s : State) : s.take.mots = s.mots := rfl

@[simp] theorem State.each_mots {α : Type} (s : State) (l : List α) (f : State → α → State) (h : ∀ s a, (f s a).mots = s.mots) :
    (s.each l f).mots = s.mots := by
  induction l generalizing s with
  | nil => rfl
  | cons a r ih => exact (ih (f s a)).trans (h s a)

@[simp] theorem State.modTn_mots (s : State) (u : Nat) (f : Tenant → Tenant) : (State.modTn s u f).mots = s.mots :=
  State.mots_congr (State.modTn_tps s u f)
@[simp] theorem State.modSol_mots (s : State) (t : Nat) (f : Solenoids → Solenoids) : (State.modSol s t f).mots = s.mots := by
  unfold State.modSol
  simp
@[simp] theorem State.modLd_mots (s : State) (t : Nat) (f : Loading → Loading) : (State.modLd s t f).mots = s.mots := by
  unfold State.modLd
  simp
@[simp] theorem State.modFmt_mots (s : State) (t : Nat) (f : Format → Format) : (State.modFmt s t f).mots = s.mots := by
  unfold State.modFmt
  simp
@[simp] theorem State.modVfy_mots (s : State) (t : Nat) (f : Verifier → Verifier) : (State.modVfy s t f).mots = s.mots := by
  unfold State.modVfy
  simp
@[simp] theorem State.modGu_mots (s : State) (t : Nat) (f : Guard → Guard) : (State.modGu s t f).mots = s.mots := by
  unfold State.modGu
  simp
@[simp] theorem State.modLink_mots (s : State) (t : Nat) (f : Link → Link) : (State.modLink s t f).mots = s.mots := by
  unfold State.modLink
  simp
@[simp] theorem State.modSlot_mots (s : State) (t k : Nat) (f : Slot → Slot) : (State.modSlot s t k f).mots = s.mots := by
  unfold State.modSlot
  simp
@[simp] theorem State.setVol_mots (s : State) (v : Nat) (x : Volume) : (State.setVol s v x).mots = s.mots :=
  State.mots_congr (State.setVol_tps s v x)
@[simp] theorem State.modVol_mots (s : State) (v : Nat) (f : Volume → Volume) : (State.modVol s v f).mots = s.mots :=
  State.mots_congr (State.modVol_tps s v f)
@[simp] theorem State.modQp_mots (s : State) (u q : Nat) (f : QueuePair → QueuePair) : (State.modQp s u q f).mots = s.mots :=
  State.mots_congr (State.modQp_tps s u q f)
@[simp] theorem State.setReady_mots (s : State) (b : Nat) (v : Bool) : (State.setReady s b v).mots = s.mots :=
  State.mots_congr (State.setReady_tps s b v)
@[simp] theorem State.stat_mots (s : State) (i n : Nat) : (State.stat s i n).mots = s.mots :=
  State.mots_congr (State.stat_tps s i n)
@[simp] theorem State.sendMsix_mots (s : State) (fn vec : Nat) : (State.sendMsix s fn vec).mots = s.mots :=
  State.mots_congr (State.sendMsix_tps s fn vec)
@[simp] theorem State.modEvSrc_mots (s : State) (e : Nat) (f : EvSource → EvSource) : (State.modEvSrc s e f).mots = s.mots :=
  State.mots_congr (State.modEvSrc_tps s e f)
@[simp] theorem State.raise_mots (s : State) (e : Nat) : (State.raise s e).mots = s.mots :=
  State.mots_congr (State.raise_tps s e)
@[simp] theorem State.setTpReady_mots (s : State) (t : Nat) (v : Bool) : (State.setTpReady s t v).mots = s.mots := by
  unfold State.setTpReady
  split <;> simp
@[simp] theorem State.logError_mots (s : State) (u : Nat) (st : Status) (i : ErrInfo) : (State.logError s u st i).mots = s.mots :=
  State.mots_congr (State.logError_tps s u st i)
@[simp] theorem State.returnSegs_mots (s : State) (u n : Nat) : (State.returnSegs s u n).mots = s.mots :=
  State.mots_congr (State.returnSegs_tps s u n)
@[simp] theorem State.ungrant_mots (s : State) (u : Nat) (g : Nat × Nat) : (State.ungrant s u g).mots = s.mots :=
  State.mots_congr (State.ungrant_tps s u g)
@[simp] theorem State.postCqe_mots (s : State) (u q : Nat) (w0 w1 : Word) : (State.postCqe s u q w0 w1).mots = s.mots :=
  State.mots_congr (State.postCqe_tps s u q w0 w1)
@[simp] theorem State.signalCq_mots (s : State) (u q : Nat) : (State.signalCq s u q).mots = s.mots :=
  State.mots_congr (State.signalCq_tps s u q)
@[simp] theorem State.giveBack_mots (s : State) (u op vol len : Nat) (segs : Nat × Nat) (bound : Bool) : (State.giveBack s u op vol len segs bound).mots = s.mots :=
  State.mots_congr (State.giveBack_tps s u op vol len segs bound)
@[simp] theorem State.dropCmd_mots (s : State) (id : Nat) : (State.dropCmd s id).mots = s.mots :=
  State.mots_congr (State.dropCmd_tps s id)
@[simp] theorem State.tryRdy_mots (s : State) (u : Nat) : (State.tryRdy s u).mots = s.mots :=
  State.mots_congr (State.tryRdy_tps s u)
@[simp] theorem State.rdyDown_mots (s : State) (u : Nat) : (State.rdyDown s u).mots = s.mots :=
  State.mots_congr (State.rdyDown_tps s u)
@[simp] theorem State.complete_mots (s : State) (c : Cmd) (st : Status) (r : Reply) : (State.complete s c st r).mots = s.mots :=
  State.mots_congr (State.complete_tps s c st r)
@[simp] theorem State.sachetWrite_mots (s : State) (key n bytes : Nat) : (State.sachetWrite s key n bytes).mots = s.mots := by
  unfold State.sachetWrite
  simp [apply_ite State.mots]
@[simp] theorem State.journal_mots (s : State) (h : Nat) (isV : Bool) (value : Nat) : (State.journal s h isV value).mots = s.mots := by
  unfold State.journal
  simp only []
  (repeat' split) <;> simp
@[simp] theorem State.wholeArea_mots (s : State) (a : Nat) : (State.wholeArea s a).mots = s.mots := by
  unfold State.wholeArea
  simp
@[simp] theorem State.commitDir_mots (s : State) (t : Nat) : (State.commitDir s t).mots = s.mots := by
  unfold State.commitDir
  split <;> simp [apply_ite State.mots]
@[simp] theorem State.modDir_mots (s : State) (t : Nat) (f : Directory → Directory) : (State.modDir s t f).mots = s.mots := by
  unfold State.modDir
  simp
@[simp] theorem State.ringDone_mots (s : State) (p : RingEntry → Bool) : (State.ringDone s p).mots = s.mots := by
  unfold State.ringDone
  simp
@[simp] theorem State.sendWord_mots (s : State) (t ty : Nat) (payload : Word) : (State.sendWord s t ty payload).mots = s.mots := by
  unfold State.sendWord
  simp only []
  split
  · rfl
  · rw [State.modLink_mots]
    exact s.each_mots _ _ fun s n => s.emit_mots _
@[simp] theorem State.sendDrive_mots (s : State) (t : Nat) : (State.sendDrive s t).mots = s.mots := by
  unfold State.sendDrive
  simp
@[simp] theorem State.reelsOff_mots (s : State) (t : Nat) : (State.reelsOff s t).mots = s.mots := by
  unfold State.reelsOff
  simp
@[simp] theorem State.sendSol_mots (s : State) (t : Nat) : (State.sendSol s t).mots = s.mots := by
  unfold State.sendSol
  simp
@[simp] theorem State.solPullin_mots (s : State) (t k : Nat) : (State.solPullin s t k).mots = s.mots := by
  unfold State.solPullin
  simp
@[simp] theorem State.solRelease_mots (s : State) (t : Nat) (ks : List Nat) : (State.solRelease s t ks).mots = s.mots := by
  unfold State.solRelease
  simp only []
  (repeat' split) <;> simp
@[simp] theorem State.brakesOn_mots (s : State) (t : Nat) : (State.brakesOn s t).mots = s.mots := by
  unfold State.brakesOn
  simp
@[simp] theorem State.releaseVol_mots (s : State) (h : Nat) : (State.releaseVol s h).mots = s.mots := by
  unfold State.releaseVol
  split <;> simp
@[simp] theorem State.gapLog_mots (s : State) (h : Nat) (w : Volume) (tag : Nat) (g : GapOpen) : (State.gapLog s h w tag g).mots = s.mots := by
  unfold State.gapLog
  simp
@[simp] theorem State.dropGaps_mots (s : State) (h : Nat) : (State.dropGaps s h).mots = s.mots := by
  unfold State.dropGaps
  split <;> simp
@[simp] theorem State.syncDir_mots (s : State) (h : Nat) : (State.syncDir s h).mots = s.mots := by
  unfold State.syncDir
  split <;> simp
@[simp] theorem State.raiseV_mots (s : State) (h : Nat) : (State.raiseV s h).mots = s.mots := by
  unfold State.raiseV
  (repeat' split) <;> simp
@[simp] theorem State.replayCheck_mots (s : State) (h : Nat) : (State.replayCheck s h).mots = s.mots := by
  unfold State.replayCheck
  (repeat' split) <;> simp
@[simp] theorem State.addLost_mots (s : State) (t : Nat) (r : LostRange) : (State.addLost s t r).mots = s.mots := by
  unfold State.addLost
  simp
@[simp] theorem State.reportLoss_mots (s : State) (h : Nat) (w : Volume) (cause gen first last : Nat) : (State.reportLoss s h w cause gen first last).mots = s.mots := by
  unfold State.reportLoss
  simp [apply_ite State.mots]
@[simp] theorem State.flushCarries_mots (s : State) (h : Nat) (w : Volume) (rs : List (Nat × Nat × Nat)) :
    (State.flushCarries s h w rs).mots = s.mots := by
  unfold State.flushCarries
  refine State.each_mots _ _ _ fun s c => ?_
  simp only []
  (repeat' split) <;> simp
@[simp] theorem State.loseRecords_mots (s : State) (h cause : Nat) (rep : Bool) (p : BufRec → Bool) : (State.loseRecords s h cause rep p).mots = s.mots := by
  unfold State.loseRecords
  split <;> simp [apply_ite State.mots]
@[simp] theorem State.takeDsn_mots (s : State) (t : Nat) : (State.takeDsn s t).2.mots = s.mots := by
  unfold State.takeDsn
  simp only []
  (repeat' split) <;> simp
@[simp] theorem State.reuseGroup_mots (s : State) (t g : Nat) : (State.reuseGroup s t g).mots = s.mots := by
  unfold State.reuseGroup
  simp
@[simp] theorem State.halt_mots (s : State) (t : Nat) : (State.halt s t).mots = s.mots := by
  unfold State.halt
  simp [apply_ite State.mots]
@[simp] theorem State.packOn_mots (s : State) (t : Nat) : (State.packOn s t).mots = s.mots := by
  unfold State.packOn
  (repeat' split) <;> simp
@[simp] theorem State.retarget_mots (s : State) (t : Nat) : (State.retarget s t).mots = s.mots := by
  unfold State.retarget
  split <;> simp [apply_ite State.mots]
@[simp] theorem State.closeGroup_mots (s : State) (t : Nat) : (State.closeGroup s t).mots = s.mots := by
  unfold State.closeGroup
  simp only []
  (repeat' split) <;> simp
@[simp] theorem State.groupCheck_mots (s : State) (t : Nat) : (State.groupCheck s t).mots = s.mots := by
  unfold State.groupCheck
  simp [apply_ite State.mots]
@[simp] theorem State.closeRegion_mots (s : State) (t off : Nat) (r : Region) : (State.closeRegion s t off r).2.mots = s.mots := by
  unfold State.closeRegion
  split <;> simp
@[simp] theorem State.closeDataset_mots (s : State) (t : Nat) : (State.closeDataset s t).mots = s.mots := by
  have fold : ∀ (l : List Region) (a : List Region × Nat × State), (l.foldl (fun (a : List Region × Nat × State) r =>
      let (r1, s') := a.2.2.closeRegion t a.2.1 r
      (a.1 ++ [r1], a.2.1 + (regionAll r1).length, s')) a).2.2.mots = a.2.2.mots := by
    intro l
    induction l with
    | nil => intro a; rfl
    | cons r l ih => intro a; rw [List.foldl_cons, ih]; simp
  unfold State.closeDataset
  split
  · rfl
  · simp only [State.groupCheck_mots]
    refine (State.each_mots _ _ _ fun s r => ?_).trans ?_
    · split <;> simp
    · simp only [State.modFmt_mots]
      exact fold _ _
@[simp] theorem State.modDs_mots (s : State) (t dsn : Nat) (f : DsState → DsState) : (State.modDs s t dsn f).mots = s.mots := by
  unfold State.modDs
  simp
@[simp] theorem State.writeAgain_mots (s : State) (t : Nat) (d : Dataset) (again : Bool) : (State.writeAgain s t d again).mots = s.mots := by
  unfold State.writeAgain
  simp only [State.groupCheck_mots]
  rw [State.each_mots _ _ _ (fun s r => by split <;> simp)]
  simp
@[simp] theorem State.excludeOld_mots (s : State) (t : Nat) (ds : List Dataset) : (State.excludeOld s t ds).mots = s.mots := by
  unfold State.excludeOld
  simp
@[simp] theorem State.moveWrap_mots (s : State) (t : Nat) (ds : List Dataset) (wrap : Nat) : (State.moveWrap s t ds wrap).mots = s.mots := by
  unfold State.moveWrap
  simp
@[simp] theorem State.toPackWrap_mots (s : State) (t : Nat) : (State.toPackWrap s t).mots = s.mots := by
  unfold State.toPackWrap
  simp [apply_ite State.mots]
@[simp] theorem State.unwritable_mots (s : State) (t : Nat) : (State.unwritable s t).mots = s.mots := by
  unfold State.unwritable
  simp
@[simp] theorem State.abandonMove_mots (s : State) (t : Nat) : (State.abandonMove s t).mots = s.mots := by
  unfold State.abandonMove
  simp [apply_ite State.mots]
@[simp] theorem State.leaveRest_mots (s : State) (t : Nat) : (State.leaveRest s t).mots = s.mots := by
  unfold State.leaveRest
  simp [apply_ite State.mots]
@[simp] theorem State.abandonWrap_mots (s : State) (t : Nat) : (State.abandonWrap s t).mots = s.mots := by
  unfold State.abandonWrap
  simp [apply_ite State.mots]
@[simp] theorem State.retry_mots (s : State) (t dsn : Nat) (counts : Bool) : (State.retry s t dsn counts).mots = s.mots := by
  unfold State.retry
  (repeat' split) <;> simp
@[simp] theorem State.cutWrites_mots (s : State) (t : Nat) : (State.cutWrites s t).mots = s.mots := by
  unfold State.cutWrites
  simp only []
  (repeat' split) <;> simp
@[simp] theorem State.syncReady_mots (s : State) (t : Nat) : (State.syncReady s t).mots = s.mots := by
  unfold State.syncReady
  simp
@[simp] theorem State.failTape_mots (s : State) (t : Nat) (st : Status) : (State.failTape s t st).mots = s.mots := by
  unfold State.failTape
  simp
/-! ### Out of Service -/

/-- The motion of a transport as it enters Out of Service: at rest, without a target or a cause to start, its first cause kept. -/
def Motion.outOfService (m : Motion) (cause : Nat) : Motion :=
  { m with vel := 0, target := none, pendingTarget := none, starting := none, exc := none, servoAcquired := false,
           stopGoal := .parked, oosCause := if m.state == .outOfService then m.oosCause else cause }

/-- What `enterOos` does before the state changes. -/
def State.oosStopped (s : State) (t cause : Nat) : State :=
  ((((((s.modLd t fun l => { l with resetting := false, env := none }).cutWrites t).modFmt t fun f => { f with closing := false }).reelsOff t).brakesOn t).modMot t
    fun m => m.outOfService cause)

theorem State.mot_oosStopped (s : State) (t cause : Nat) : (s.oosStopped t cause).mot t = (s.mot t).outOfService cause := by
  rw [State.oosStopped, State.mot_modMot_same]
  congr 1
  exact State.mot_of_mots (by simp) t

theorem State.enterOos_of_oos {s : State} {t : Nat} (cause : Nat) (h : (s.mot t).state = .outOfService) :
    s.enterOos t cause = s.oosStopped t cause := by
  simp only [State.enterOos, h]; rfl

theorem State.enterOos_of_ne {s : State} {t : Nat} (cause : Nat) (h : (s.mot t).state ≠ .outOfService) :
    s.enterOos t cause = (((s.oosStopped t cause).setTState t .outOfService).raise (evTp t 1)).failTape t Status.transportOutOfService := by
  simp only [State.enterOos, beq_eq_false_iff_ne.2 h]; rfl

/-- A new state stands, and the time at rest starts again. -/
theorem State.mot_setTState (s : State) (t : Nat) (st : TState) : (s.setTState t st).mot t = { s.mot t with state := st, idleMs := 0 } := by
  rw [State.setTState, State.mot_of_mots (State.syncReady_mots _ t), State.mot_modMot_same]

/-- In a state in which a transport cannot be used its TRANSPORT bit is 0. -/
theorem State.ready_setTState_of_not_usable (s : State) (t : Nat) {st : TState} (h : st.usable = false) :
    (s.setTState t st).ready (rdTRANSPORT t) = false := by
  have hval : ((s.modMot t fun m => { m with state := st, idleMs := 0 }).mot t).state.usable = false := by
    rw [State.mot_modMot_same]; exact h
  rw [State.setTState, State.syncReady, hval]
  simp only [Bool.false_and, State.setTpReady_false, State.ready_setReady, if_true]

theorem State.failTape_dev (s : State) (t : Nat) (st : Status) : (s.failTape t st).dev = s.dev :=
  State.each_invariant (fun x => x.dev) (fun x c => by simp) s _

/-- Out of Service begins: the motion stands still in the new state and TRANSPORT reads 0. -/
theorem State.enterOos_begins {s : State} {t : Nat} (cause : Nat) (h : (s.mot t).state ≠ .outOfService) :
    (s.enterOos t cause).mot t = { (s.mot t).outOfService cause with state := .outOfService, idleMs := 0 } ∧
      (s.enterOos t cause).ready (rdTRANSPORT t) = false := by
  rw [State.enterOos_of_ne cause h]
  constructor
  · rw [State.mot_of_mots (State.failTape_mots _ t _), State.mot_of_mots (State.raise_mots _ _), State.mot_setTState, State.mot_oosStopped]
  · rw [State.ready, State.failTape_dev, State.raise_dev]
    exact State.ready_setTState_of_not_usable _ t rfl

/-! ### The front-end's own stops -/

@[simp] theorem State.wake_tps (s : State) (cause : Nat) : (s.wake cause).tps = s.tps := by
  simp only [State.wake]; split <;> rfl

@[simp] theorem State.notified_tps (s : State) (t : Nat) : (s.notified t).tps = s.tps := by
  simp only [State.notified]; split <;> simp

theorem State.tp_congr {s s' : State} (h : s'.tps = s.tps) (t : Nat) : s'.tp t = s.tp t := by simp only [State.tp, h]

theorem State.tp_notified (s : State) (t v : Nat) : (s.notified t).tp v = s.tp v := State.tp_congr (s.notified_tps t) v

theorem State.mot_notified (s : State) (t v : Nat) : (s.notified t).mot v = s.mot v := congrArg Transport.mot (s.tp_notified t v)

/-- The stop is noted once. -/
def State.stopNoted (s : State) (t : Nat) : State :=
  if (s.tp t).fe.asDone then s else (s.modFe t fun x => { x with asDone := true }).raise (evTp t 28)

/-- A moving tape that the front-end stopped: no gate, no solenoid, no motion. -/
def State.stoppedByFrontEnd (s : State) (t : Nat) : State :=
  ((s.cutWrites t).modSol t fun x => { x with energ := 0, pullin := none, wait := [] }).modMot t fun m =>
    { m with vel := 0, target := none, pendingTarget := none, servoAcquired := false, starting := none }

theorem State.selfStopped_of_rest {s : State} {t : Nat} (h : (s.mot t).state.moving = false) : s.selfStopped t = s.stopNoted t := by
  simp only [State.selfStopped, h, Bool.not_false, if_true]; rfl

/-- What the end of a stopped motion leads to, by the goal its stop had. -/
theorem State.selfStopped_of_moving {s : State} {t : Nat} (h : (s.mot t).state.moving = true) :
    let z := (s.stopNoted t).stoppedByFrontEnd t
    (∀ c, (s.mot t).stopGoal = .outOfService c → s.selfStopped t = z.enterOos t c) ∧
    ((s.mot t).stopGoal = .reload → s.selfStopped t = z.resetTp t) ∧
    ((s.mot t).stopGoal = .parked →
      s.selfStopped t = ((z.modFmt t fun f => { f with closing := false }).dropExc t).setTState t .relaxed) := by
  have hmoves : ¬ (!(s.mot t).state.moving) = true := by simp [h]
  simp only [State.selfStopped, if_neg hmoves, State.stoppedByFrontEnd, State.stopNoted]
  exact ⟨fun c hg => by rw [hg], fun hg => by rw [hg], fun hg => by rw [hg]⟩

theorem State.powerStageFault_row {s e : State} {t : Nat} (hx : s.tpExists t = true)
    (he : (if (s.mot t).state.moving then ((s.notified t).raise (evTp t 27)).emergencyStop t 9
      else ((s.notified t).raise (evTp t 27)).enterOos t 9) = e) : Safety.Settles (.powerStageFault t) s e := by
  subst he
  exact if_neg (by simp [hx])

theorem State.stopNoted_notified (s : State) (t : Nat) : (s.notified t).stopNoted t =
    if (s.tp t).fe.asDone then s.notified t else ((s.notified t).modFe t fun x => { x with asDone := true }).raise (evTp t 28) := by
  rw [State.stopNoted, State.tp_notified]

theorem State.autonomousStop_row {s e : State} {t : Nat} (hx : s.tpExists t = true) (he : (s.notified t).selfStopped t = e) :
    Safety.Settles (.autonomousStop t) s e := by
  subst he
  exact if_pos hx

/-- Settles O37: what `enterOos` leaves of the motion and of TRANSPORT, and the two rows by the transport's state. -/
theorem outOfServiceAndFrontEndStops : Obligations.OutOfServiceAndFrontEndStops := by
  unfold Obligations.OutOfServiceAndFrontEndStops
  refine ⟨fun s t cause _ => ?_, fun s t => ⟨fun hx => ?_, fun hx => ⟨fun hm => ?_, fun hm => ?_, ?_⟩⟩⟩
  · by_cases h : (s.mot t).state = .outOfService
    · rw [State.enterOos_of_oos cause h, State.mot_oosStopped]
      exact ⟨h, by simp [Motion.outOfService], rfl, rfl, rfl, fun hne => absurd h hne⟩
    · obtain ⟨hmot, hready⟩ := State.enterOos_begins cause h
      rw [hmot]
      exact ⟨rfl, by simp [Motion.outOfService, h], rfl, rfl, rfl, fun _ => hready⟩
  · have habs : ¬ s.tpExists t = true := by simp [hx]
    have habs' : (!s.tpExists t) = true := by simp [hx]
    exact ⟨if_neg habs, if_pos habs'⟩
  · exact State.powerStageFault_row hx (if_pos hm)
  · exact State.powerStageFault_row hx (if_neg (by simp [hm]))
  · refine ⟨(s.notified t).stopNoted t, s.stopNoted_notified t, fun hm => ?_, fun hm => ?_⟩
    · exact State.autonomousStop_row hx (State.selfStopped_of_rest (by rw [State.mot_notified, hm]))
    · obtain ⟨hoos, hreload, hparked⟩ := State.selfStopped_of_moving (s := s.notified t) (t := t) (by rw [State.mot_notified, hm])
      rw [State.mot_notified] at hoos hreload hparked
      exact ⟨((s.notified t).stopNoted t).stoppedByFrontEnd t, rfl, fun c hg => State.autonomousStop_row hx (hoos c hg),
        fun hg => State.autonomousStop_row hx (hreload hg), fun hg => State.autonomousStop_row hx (hparked hg)⟩

end Sys2Proof.Machine

end

section

/-! PROOF. O57: the body under which a block is stored. -/

namespace Sys2Proof.Machine

/-- The body that was offered, where it is legal for the block's bytes and saves at least eight of them. -/
def pickBody (raw : Bytes) (body : Option Bytes) : Option Bytes :=
  match body with
  | some x => if x.length + 8 ≤ raw.length && oaldoLegal raw x then some x else none
  | none => none

theorem pickBody_some {raw x : Bytes} {body : Option Bytes} (h : pickBody raw body = some x) :
    body = some x ∧ x.length + 8 ≤ raw.length ∧ oaldoLegal raw x = true := by
  cases body with
  | none => simp [pickBody] at h
  | some y =>
    simp only [pickBody] at h
    split at h
    · next hok =>
      obtain rfl : y = x := Option.some.inj h
      obtain ⟨hlen, hleg⟩ := Bool.and_eq_true_iff.1 hok
      exact ⟨rfl, of_decide_eq_true hlen, hleg⟩
    · cases h

/-- A block compressed: stored under the body picked, or raw. -/
def Block.compress (b : Block) (pick : Option Bytes) (raw : Bytes) : Block :=
  { b with isRaw := pick.isNone, body := pick.getD raw, stage := .compressed }

/-- The block that is compressed next takes its body, and the codec's counts move. -/
theorem State.compressNext_eq {s : State} {v : Nat} {w : Volume} {b : Block} {force : Bool} (body : Option Bytes) (hw : s.vol? v = some w)
    (hb : w.blocks.find? (fun b => b.stage == .cut) = some b) (hgo : force = true ∨ s.cutBefore b < 4) :
    s.compressNext v body force =
      ((((s.setVol v (w.modBlock b.ordinal fun x => x.compress (pickBody b.raw body) b.raw)).stat (stDev 5) 1).stat (stDev 6)
        (b2n (pickBody b.raw body).isNone)).stat (stDev 7) b.raw.length).stat (stDev 8) ((pickBody b.raw body).getD b.raw).length := by
  have hnot : ¬ (!force && decide (4 ≤ s.cutBefore b)) = true := by
    rcases hgo with h | h <;> simp [h]
  simp only [State.compressNext, hw, hb, if_neg hnot, State.modVol]
  rfl

theorem State.compressNext_waits {s : State} {v : Nat} {w : Volume} {b : Block} (body : Option Bytes) (hw : s.vol? v = some w)
    (hb : w.blocks.find? (fun b => b.stage == .cut) = some b) (hfull : 4 ≤ s.cutBefore b) : s.compressNext v body false = s := by
  simp [State.compressNext, hw, hb, hfull]

/-- A state that differs from `s` in its volumes and statistics at most. -/
def State.VolsStatsOnly (s s' : State) : Prop := s' = { s with vols := s'.vols, stats := s'.stats }

theorem State.VolsStatsOnly.stat {s s' : State} (h : s.VolsStatsOnly s') (i n : Nat) : s.VolsStatsOnly (s'.stat i n) := by
  unfold State.VolsStatsOnly at h
  rw [h]; rfl

theorem State.VolsStatsOnly.setVol (s : State) (v : Nat) (x : Volume) : s.VolsStatsOnly (s.setVol v x) := rfl

/-- Among blocks of distinct ordinals the change of the one with `b`'s ordinal is a change of `b`. -/
theorem Volume.modBlock_of_mem {w : Volume} {b : Block} (f : Block → Block) (hmem : b ∈ w.blocks) (hnd : (w.blocks.map (·.ordinal)).Nodup) :
    w.modBlock b.ordinal f = { w with blocks := w.blocks.map fun x => if x.ordinal = b.ordinal then f b else x } := by
  rw [Volume.modBlock]
  congr 1
  refine List.map_congr_left fun x hx => ?_
  by_cases hxb : x.ordinal = b.ordinal
  · rw [List.inj_on_of_nodup_map hnd hx hmem hxb]; simp
  · simp [hxb]

/-- Settles O57: a block waits behind four cut earlier; else the first cut block takes the body picked and only volumes and statistics move. -/
theorem compressionIsLegalOrRaw : Obligations.CompressionIsLegalOrRaw := by
  unfold Obligations.CompressionIsLegalOrRaw
  intro s v body force w b hw hb
  refine ⟨fun hf hfull => hf ▸ State.compressNext_waits body hw hb hfull, fun hgo hnd => ?_⟩
  have heq := State.compressNext_eq body hw hb hgo
  refine ⟨_, b.compress (pickBody b.raw body) b.raw, ?vol, Volume.modBlock_of_mem (fun x => x.compress (pickBody b.raw body) b.raw)
    (List.mem_of_find?_eq_some hb) hnd, rfl, ?raw, ?legal, ?only⟩
  case vol =>
    rw [heq]
    exact (State.vol?_congr (by simp only [State.stat_vols]) v).trans (State.vol?_setVol s v _)
  case raw =>
    intro hraw
    have hnone : pickBody b.raw body = none := Option.isNone_iff_eq_none.1 hraw
    simp [Block.compress, hnone]
  case legal =>
    intro hraw
    obtain ⟨x, hx⟩ : ∃ x, pickBody b.raw body = some x := Option.isSome_iff_exists.1 (Option.isNone_eq_false_iff.1 hraw)
    obtain ⟨hbody, hlen, hleg⟩ := pickBody_some hx
    have hout : (b.compress (pickBody b.raw body) b.raw).body = x := by simp [Block.compress, hx]
    rw [hout]
    exact ⟨hbody, hlen, hleg⟩
  case only =>
    rw [heq]
    exact ((((State.VolsStatsOnly.setVol s v _).stat _ _).stat _ _).stat _ _).stat _ _

end Sys2Proof.Machine

end

section

/-! PROOF. O6 and O7: the state after reset, the cold resets and the releases. -/

namespace Sys2Proof.Machine

/-! ### The state after reset -/

@[simp] theorem State.tn_reset (u : Nat) : State.reset.tn u = {} := rfl

/-- A device register read at its offset is the row of that offset. -/
theorem State.readDevice_reset : State.reset.readDevice 0x00010 = 0 ∧ State.reset.readDevice 0x00020 = 0 ∧ State.reset.readDevice 0x01000 = 0 ∧
    State.reset.readDevice 0x00028 = 0x80008000 ∧ State.reset.readDevice 0x01020 = 100 ∧ State.reset.readDevice 0x02000 = 0xFFFF :=
  ⟨rfl, rfl, rfl, rfl, rfl, rfl⟩

theorem State.readBar0_reset (u : Nat) : State.reset.readBar0 u 0x10 = 0 ∧ State.reset.readBar0 u 0x18 = 0 := ⟨rfl, rfl⟩

/-- Settles O6: field by field of the state after reset. -/
theorem resetLeavesResetValues : Obligations.ResetLeavesResetValues := by
  unfold Obligations.ResetLeavesResetValues
  obtain ⟨hready, hfatal, hpower, htemp, htlim, himage⟩ := State.readDevice_reset
  exact ⟨rfl, by decide, hready, hfatal, hpower, htemp, htlim, himage, rfl, rfl, fun u => ⟨rfl, State.readBar0_reset u⟩, fun _ _ => rfl, fun _ => rfl, fun _ => rfl⟩

/-! ### Cold resets and releases -/

/-- A supply voltage resets the part below its rail's level. -/
theorem lt_monitorLevel_iff (rail : Rail) (mv : Nat) :
    mv < monitorLevel rail ↔ (rail = .vddio ∧ mv < 1620) ∨ (rail = .vddc ∧ mv < 700) ∨ (rail = .vddm ∧ mv < 740) := by
  cases rail <;> simp [monitorLevel]

theorem monitorLevel_le_of {rail : Rail} {mv us : Nat}
    (h : (rail = Rail.vddio ∧ 1620 ≤ mv) ∨ (rail = Rail.vddc ∧ 700 ≤ mv) ∨ (rail = Rail.vddm ∧ 740 ≤ mv) ∨ us < 2) :
    ¬ (decide (mv < monitorLevel rail) && decide (2 ≤ us)) = true := by
  rintro hb
  obtain ⟨hlow, hlong⟩ := Bool.and_eq_true_iff.1 hb
  have hmv := of_decide_eq_true hlow
  have hus := of_decide_eq_true hlong
  cases rail <;> simp [monitorLevel] at h hmv <;> omega

/-- Settles O7: each row is its branch of the model, by the level or the pin it depends on. -/
theorem coldResetsAndReleaseLeaveTheirState : Obligations.ColdResetsAndReleaseLeaveTheirState := by
  unfold Obligations.ColdResetsAndReleaseLeaveTheirState
  refine ⟨fun s => ⟨rfl, fun rail mv us hlow hus => ?_, fun rail mv us h => if_neg (monitorLevel_le_of h)⟩,
    fun s straps hp => if_neg (by simp [hp]), fun s straps hp => if_pos hp, fun s hp hm => if_pos (by simp [hp, hm]), fun s h => ?_⟩
  · have hmv : mv < monitorLevel rail := (lt_monitorLevel_iff rail mv).2 hlow
    exact (if_pos (by simp [hmv, hus])).trans rfl
  · exact if_neg (by rcases h with h | h <;> simp [h])

end Sys2Proof.Machine

end

section

/-! PROOF. O8 and O9: PERST_N falls and rises, and the cores that a warm reset holds. -/

namespace Sys2Proof.Machine

/-! ### Tables kept in part -/

/-- What a table that keeps the keys of `q` alone reads. -/
theorem Tab.get_filter {α : Type} (d : α) (q : Nat → Bool) (m : Tab α) (k : Nat) :
    Tab.get d (m.filter fun p => q p.1) k = if q k then Tab.get d m k else d := by
  induction m with
  | nil => simp [Tab.get]
  | cons p r ih =>
    obtain ⟨j, v⟩ := p
    rw [List.filter_cons]
    by_cases hjk : j = k
    · subst hjk
      cases hq : q j <;> simp [Tab.get, hq, ih]
    · cases hq : q j <;> simp [Tab.get, hjk, ih]

/-- What a table of changed values reads. -/
theorem Tab.get_map {α β : Type} (d : α) (f : α → β) (m : Tab α) (k : Nat) :
    Tab.get (f d) (m.map fun p => (p.1, f p.2)) k = f (Tab.get d m k) := by
  induction m with
  | nil => rfl
  | cons p r ih => simp only [List.map_cons, Tab.get, ih, apply_ite f]

/-! ### PERST_N falls -/

@[simp] theorem State.wake_pins (s : State) (cause : Nat) : (s.wake cause).pins = s.pins := by
  simp only [State.wake]; split <;> rfl
@[simp] theorem State.wake_dev (s : State) (cause : Nat) : (s.wake cause).dev = s.dev := by
  simp only [State.wake]; split <;> rfl

/-- What PERST_N does as it falls: HOST clears, and a part in PS3 wakes. -/
def State.perstFallen (s : State) : State :=
  { (if s.pm.state = 3 then s.wake 9 else s) with
    pins := { s.pins with perstN := false, wakeN := true }, dev := { s.dev with ready := setBit s.dev.ready rdHOST false } }

theorem State.perstFallen_eq (s : State) :
    ((if s.pm.state = 3 then s.wake 9 else s).modPins fun p => { p with perstN := false, wakeN := true }).setReady rdHOST false = s.perstFallen := by
  have hpins : (if s.pm.state = 3 then s.wake 9 else s).pins = s.pins := by split <;> simp
  have hdev : (if s.pm.state = 3 then s.wake 9 else s).dev = s.dev := by split <;> simp
  rw [State.perstFallen, ← hpins, ← hdev]; rfl

/-- The quiesce that PERST_N begins or goes on with. -/
def State.perstQuiesced (s : State) (upTo : Nat) : State :=
  s.perstFallen.quiesceTo (if s.dev.quiesced = 0 then 4 else s.dev.quiesced) upTo

/-- PERST_N falls where it stood high, or where a quiesce of its own was cut short. -/
theorem perstFalls_iff (s : State) : ¬ (!s.pins.perstN && (decide (s.dev.quiesced ≠ 4) || decide (4 ≤ s.dev.qstep))) = true ↔
    (s.pins.perstN = true ∨ (s.dev.quiesced = 4 ∧ s.dev.qstep < 4)) := by
  cases s.pins.perstN <;> simp

theorem perstNFall_row {s : State} (p : PerstLow) (hf : s.pins.perstN = true ∨ (s.dev.quiesced = 4 ∧ s.dev.qstep < 4)) :
    exec (.perstNFall p) s =
      if s.on && 200 ≤ p.ns then
        commit s (if (s.perstQuiesced p.upTo).dev.qstep < 4 then s.perstQuiesced p.upTo
          else ((warmReset (s.perstQuiesced p.upTo) (if s.dev.quiesced = 3 then 2 else 1)).modStats fun x => { x with openUs := p.us }).discards p.disc)
      else commit s s.perstFallen := by
  refine (if_neg ((perstFalls_iff s).2 hf)).trans ?_
  simp only [State.perstFallen_eq, State.perstQuiesced]
  rfl

/-- What a warm reset leaves of the units: a tenant's GEN, and the lanes and transports of the cores held. -/
theorem warmReset_units (q : State) (last : Nat) :
    (∀ u, (warmReset q last).tn u = { gen := (q.tn u).gen }) ∧
    (∀ n, (warmReset q last).ln n = if q.heldCores.getLsbD (coreOf n) then q.ln n else {}) ∧
    ∀ t, (warmReset q last).tp t = if q.heldCores.getLsbD (coreOf t) then (q.tp t).heldPart else {} := by
  refine ⟨fun u => ?_, fun n => ?_, fun t => ?_⟩
  · exact Tab.get_map ({} : Tenant) (fun x => ({ gen := x.gen } : Tenant)) q.tenants u
  · exact Tab.get_filter {} (fun k => q.heldCores.getLsbD (coreOf k)) q.lanes n
  · refine (Tab.get_map ({} : Transport) Transport.heldPart (q.tps.filter fun p => q.heldCores.getLsbD (coreOf p.1)) t).trans ?_
    exact (congrArg Transport.heldPart (Tab.get_filter {} (fun k => q.heldCores.getLsbD (coreOf k)) q.tps t)).trans (apply_ite Transport.heldPart ..)

/-- Settles O8: the row by PERST_N, the 200 ns and the step the quiesce reached, and the warm reset unit by unit. -/
theorem perstFallQuiescesAndResets : Obligations.PerstFallQuiescesAndResets := by
  unfold Obligations.PerstFallQuiescesAndResets
  intro s ns us upTo disc
  refine ⟨fun hn => ?_, fun hf hshort => ?_, fun hf hon hns hq => ?_, fun hf hon hns hq => ?_⟩
  · exact if_pos (not_not.1 (mt (perstFalls_iff s).1 hn))
  · refine (perstNFall_row _ hf).trans (if_neg ?_)
    rcases hshort with h | h
    · simp [h]
    · simp [Nat.not_le.2 h]
  · refine (perstNFall_row _ hf).trans ((if_pos (by simp [hon, hns])).trans ?_)
    exact congrArg (commit s) (if_pos hq)
  · obtain ⟨htn, hln, htp⟩ := warmReset_units (s.perstQuiesced upTo) (if s.dev.quiesced = 3 then 2 else 1)
    refine ⟨(warmReset (s.perstQuiesced upTo) (if s.dev.quiesced = 3 then 2 else 1)).modStats fun x => { x with openUs := us }, ?_,
      rfl, rfl, rfl, rfl, rfl, rfl, rfl, rfl, rfl, rfl, rfl, rfl, rfl, rfl, htn, hln, htp⟩
    refine (perstNFall_row _ hf).trans ((if_pos (by simp [hon, hns])).trans ?_)
    exact congrArg (commit s) (if_neg (Nat.not_lt.2 hq))

end Sys2Proof.Machine

end

section

/-! PROOF. O9: PERST_N rises, and a held core resets. -/

namespace Sys2Proof.Machine

/-! ### PERST_N rises -/

/-- A state that differs from `s` in its tenants at most. -/
def State.TenantsOnly (s s' : State) : Prop := s' = { s with tenants := s'.tenants }

theorem State.TenantsOnly.trans {s s' s'' : State} (h : s.TenantsOnly s') (h' : s'.TenantsOnly s'') : s.TenantsOnly s'' := by
  unfold State.TenantsOnly at *
  rw [h', h]

theorem State.TenantsOnly.each {α : Type} {f : State → α → State} (h : ∀ (s : State) (a : α), s.TenantsOnly (f s a)) (s : State) (l : List α) :
    s.TenantsOnly (s.each l f) := by
  induction l generalizing s with
  | nil => rfl
  | cons a r ih => exact (h s a).trans (ih (f s a))

theorem State.tryRdy_tenantsOnly (s : State) (u : Nat) : s.TenantsOnly (s.tryRdy u) := by
  simp only [State.tryRdy]
  split
  · split <;> rfl
  · rfl

/-- FUNC of one function sets, unless its reset is under way. -/
def State.funcUp (s : State) (u : Nat) : State :=
  if (s.tn u).inFlr then s else (s.modTn u fun x => { x with func := true }).tryRdy u

theorem State.hostUp_eq (s : State) : s.hostUp = (s.setReady rdHOST true).each (List.range 16) State.funcUp := rfl

theorem State.funcUp_tenantsOnly (s : State) (u : Nat) : s.TenantsOnly (s.funcUp u) := by
  simp only [State.funcUp]
  split
  · rfl
  · exact State.TenantsOnly.trans (s' := s.modTn u fun x => { x with func := true }) rfl (State.tryRdy_tenantsOnly _ u)

theorem State.still_tn_of_still {s s' : State} (h : s'.still = s.still) (v : Nat) : (s'.tn v).still = (s.tn v).still := congrFun (congrArg (·.2.1) h) v

theorem State.inFlr_func_tryRdy (s : State) (u v : Nat) :
    ((s.tryRdy u).tn v).inFlr = (s.tn v).inFlr ∧ ((s.tryRdy u).tn v).func = (s.tn v).func := by
  have h := State.still_tn_of_still (s.tryRdy_still u) v
  exact ⟨congrArg (·.2.2.2.2.1) h, congrArg (·.2.2.2.1) h⟩

/-- FUNC sets of the function that comes up; no function's reset and no other function's FUNC moves. -/
theorem State.tn_funcUp (s : State) (u v : Nat) :
    ((s.funcUp u).tn v).inFlr = (s.tn v).inFlr ∧
      ((s.funcUp u).tn v).func = if v = u ∧ (s.tn u).inFlr = false then true else (s.tn v).func := by
  simp only [State.funcUp]
  by_cases hflr : (s.tn u).inFlr = true
  · simp [hflr]
  · obtain ⟨hi, hf⟩ := State.inFlr_func_tryRdy (s.modTn u fun x => { x with func := true }) u v
    rw [if_neg hflr, hi, hf, State.tn_modTn]
    by_cases hv : v = u
    · subst hv; simp [hflr]
    · simp [hv]

/-- Once every function of a list has come up, FUNC of those outside a reset is 1. -/
theorem State.func_each_funcUp (l : List Nat) : ∀ (s : State) (v : Nat), (s.tn v).inFlr = false → (v ∈ l ∨ (s.tn v).func = true) →
    ((s.each l State.funcUp).tn v).func = true := by
  induction l with
  | nil => intro s v _ h; exact h.resolve_left (List.not_mem_nil)
  | cons u r ih =>
    intro s v hflr h
    obtain ⟨hi, hf⟩ := s.tn_funcUp u v
    refine ih (s.funcUp u) v (hi.trans hflr) ?_
    rw [hf]
    by_cases hv : v = u
    · subst hv; right; simp [hflr]
    · rcases h with h | h
      · exact .inl ((List.mem_cons.1 h).resolve_left hv)
      · right; simp [hv, h]

/-! ### A held core resets -/

/-- The units of core `c` at their reset values. -/
def State.coreCleared (s : State) (c : Nat) : State :=
  { s with
    lanes := s.lanes.filter fun p => !(coreOf p.1 == c)
    tps := s.tps.filter fun p => !(coreOf p.1 == c)
    cores := Tab.erase c s.cores
    dev := { s.dev with ctlPending := setBit s.dev.ctlPending c false } }

/-- The readiness bits of the lanes and transports of core `c` clear. -/
def State.coreUnready (s : State) (c : Nat) : State :=
  s.each [2 * c, 2 * c + 1] fun s k => (s.setReady (rdLANE k) false).setReady (rdTRANSPORT k) false

theorem State.coreReset_eq (s : State) (c : Nat) :
    s.coreReset c = if s.image.loaded then
        ((s.coreCleared c).coreUnready c).each (s.tpList.filter fun k => coreOf k == c) fun s t => s.startLink t
      else (s.coreCleared c).coreUnready c := rfl

theorem State.ready_coreUnready (s : State) (c k : Nat) (hk : coreOf k = c) :
    (s.coreUnready c).ready (rdLANE k) = false ∧ (s.coreUnready c).ready (rdTRANSPORT k) = false := by
  have hcases : k = 2 * c ∨ k = 2 * c + 1 := by simp only [coreOf] at hk; omega
  simp only [State.coreUnready, State.each, List.foldl_cons, List.foldl_nil, State.ready_setReady]
  rcases hcases with rfl | rfl <;> simp

theorem ctlCoreWarmReset_row {s : State} {c : Nat} {after3s : Bool} (hc : c < 4) (hp : s.dev.ctlPending.getLsbD c = true)
    (hr : after3s = true ∨ s.coreAtRest c = true) : exec (.ctlCoreWarmReset c after3s) s = commit s (s.coreReset c) :=
  if_pos (by simp [hc, hp, hr])

/-- A link that starts leaves its transport Unloaded and every other as it was. -/
theorem State.mot_startLink (s : State) (t v : Nat) :
    ((s.startLink t).mot v).state = if v = t then .unloaded else (s.mot v).state := by
  have hlanes : ∀ x : State, ((x.lanesOf t).foldl (fun s n => (s.modLn n fun y => { y with state := .down }).trainStart n) x).mots = x.mots :=
    fun x => State.each_mots x (x.lanesOf t) _ fun s n => State.mots_congr (by simp [State.trainStart])
  have hslots : ∀ x : State, (x.loadSlots t).mots = x.mots := fun x => State.modTp_mots x t _ fun _ => rfl
  simp only [State.startLink, State.mot_modMot]
  rw [State.mot_of_mots (hslots _), State.mot_of_mots (hlanes s), apply_ite Motion.state]

/-- Once the links of a list have started, its transports are Unloaded. -/
theorem State.mot_each_startLink (l : List Nat) : ∀ (s : State) (t : Nat), (t ∈ l ∨ (s.mot t).state = .unloaded) →
    ((s.each l fun s t => s.startLink t).mot t).state = .unloaded := by
  induction l with
  | nil => intro s t h; exact h.resolve_left (List.not_mem_nil)
  | cons k r ih =>
    intro s t h
    refine ih (s.startLink k) t ?_
    rw [State.mot_startLink]
    by_cases ht : t = k
    · right; simp [ht]
    · rcases h with h | h
      · exact .inl ((List.mem_cons.1 h).resolve_left ht)
      · right; simp [ht, h]

theorem State.ctlPending_of_still {s s' : State} (h : s'.still = s.still) : s'.dev.ctlPending = s.dev.ctlPending :=
  congrArg (fun x => x.1.1.ctlPending) h

/-- Settles O9: the rise by its two conditions, and a held core's reset with the image loaded and without it. -/
theorem perstRiseAndHeldCores : Obligations.PerstRiseAndHeldCores := by
  unfold Obligations.PerstRiseAndHeldCores
  refine ⟨fun s => ⟨fun hp => if_pos hp, fun hp hoff => ?_, fun hp hon hearly => ?_⟩, fun s c a => ⟨fun h => ?_, fun hc hp hr hl => ?_, fun hc hp hr hl => ?_⟩⟩
  · refine (if_neg (by simp [hp])).trans (congrArg (commit s) (if_neg ?_))
    rcases hoff with h | h <;> simp [h]
  · have hpins : (s.modPins fun p => { p with perstN := true, clkreqN := if s.on then false else p.clkreqN }) =
        { s with pins := { s.pins with perstN := true, clkreqN := false } } := by simp only [hon]; rfl
    refine ⟨_, (if_neg (by simp [hp])).trans (congrArg (commit s) (if_pos (by simp [hon, hearly]))), ?_, fun u hu hflr => ?_⟩
    · rw [hpins, State.hostUp_eq]
      exact State.TenantsOnly.each State.funcUp_tenantsOnly _ _
    · rw [State.hostUp_eq]
      exact State.func_each_funcUp _ _ u hflr (.inl (List.mem_range.2 hu))
  · refine if_neg ?_
    rcases h with h | h | ⟨ha, hrest⟩
    · simp [h]
    · simp [h]
    · simp [ha, hrest]
  · refine ⟨_, ctlCoreWarmReset_row hc hp hr, ?_⟩
    rw [State.coreReset_eq, if_neg (by simp [hl])]
    refine ⟨rfl, fun k => ?_, fun k => ?_, fun k hk => State.ready_coreUnready _ c k hk⟩
    · refine (Tab.get_filter {} (fun k => !(coreOf k == c)) s.lanes k).trans ?_
      by_cases hk : coreOf k = c <;> simp [hk, State.ln]
    · refine (Tab.get_filter {} (fun k => !(coreOf k == c)) s.tps k).trans ?_
      by_cases hk : coreOf k = c <;> simp [hk, State.tp]
  · refine ⟨_, ctlCoreWarmReset_row hc hp hr, ?_⟩
    rw [State.coreReset_eq, if_pos hl]
    have hstill := State.each_still ((s.coreCleared c).coreUnready c) (s.tpList.filter fun k => coreOf k == c) (fun s t => s.startLink t)
      fun s t => s.startLink_still t
    refine ⟨State.ctlPending_of_still hstill, (State.image_of_still hstill).trans rfl, fun t ht hk => State.mot_each_startLink _ _ t (.inl ?_)⟩
    have ht8 : t < 8 := by simp only [coreOf] at hk; omega
    exact List.mem_filter.2 ⟨List.mem_filter.2 ⟨List.mem_range.2 ht8, ht⟩, by simp [hk]⟩

end Sys2Proof.Machine

end

section

/-! PROOF. O11: safe mode, the early block, and the end of the image load. -/

namespace Sys2Proof.Machine

/-! ### Safe mode -/

/-- What every entry of a key in a table satisfies, and the default, what is read under the key satisfies. -/
theorem Tab.get_of_forall {α : Type} {p : α → Prop} {d : α} {m : Tab α} {k : Nat} (hd : p d) (hm : ∀ e ∈ m, e.1 = k → p e.2) : p (Tab.get d m k) := by
  induction m with
  | nil => exact hd
  | cons e r ih =>
    obtain ⟨j, v⟩ := e
    rw [Tab.get]
    split
    · next hj => exact hm (j, v) (List.mem_cons_self ..) hj
    · exact ih fun e he => hm e (List.mem_cons_of_mem _ he)

/-- The commands and queues of the virtual functions go. -/
def State.vfsEmptied (s : State) : State :=
  let s1 := s.each (s.cmdsWhere fun c => c.u != 0) fun s c => s.dropCmd c.id
  s1.each (s1.pairs.filter fun x => x.1 != 0) fun s x => s.withdraw x.1 x.2.1

theorem State.vfsEmptied_still (s : State) : s.vfsEmptied.still = s.still := by
  unfold State.vfsEmptied
  exact (State.each_still _ _ _ fun s x => by simp).trans (State.each_still _ _ _ fun s c => by simp)

theorem State.dropVfs_image (s : State) : s.dropVfs.image = s.image := (State.image_of_still s.vfsEmptied_still :)
theorem State.dropVfs_gpio (s : State) : s.dropVfs.gpio = s.gpio := (State.gpio_of_still s.vfsEmptied_still :)
theorem State.dropVfs_pins (s : State) : s.dropVfs.pins = s.pins := (State.pins_of_still s.vfsEmptied_still :)

/-- A virtual function keeps GEN and its Pruning log alone. -/
theorem State.tn_dropVfs (s : State) {u : Nat} (hu : u ≠ 0) : (s.dropVfs.tn u).qps = [] ∧ (s.dropVfs.tn u).func = false := by
  refine Tab.get_of_forall (p := fun x : Tenant => x.qps = [] ∧ x.func = false) ⟨rfl, rfl⟩ fun e he hk => ?_
  obtain ⟨p, _, rfl⟩ := List.mem_map.1 he
  by_cases hp : p.1 = 0
  · simp only [hp, if_true] at hk
    exact absurd hk.symm hu
  · simp [hp]

theorem State.enterSafe_image (s : State) :
    s.enterSafe.image = { s.image with safe := true, loaded := false, early := default, img := default, cfg := default } := by
  rw [← s.dropVfs_image]; rfl

theorem State.enterSafe_gpio (s : State) : s.enterSafe.gpio = { s.gpio with rwl := 0, inForce := 0, debounce := [] } := by
  rw [← s.dropVfs_gpio]; rfl

theorem State.enterSafe_pins (s : State) : s.enterSafe.pins = s.pins := s.dropVfs_pins

theorem State.tn_enterSafe (s : State) {u : Nat} (hu : u ≠ 0) : (s.enterSafe.tn u).qps = [] ∧ (s.enterSafe.tn u).func = false := by
  have htn : s.enterSafe.tenants = s.dropVfs.tenants := rfl
  rw [State.tn, htn]
  exact s.tn_dropVfs hu

theorem State.enterSafe_vf (s : State) : s.enterSafe.dev.vfEnable = false ∧ s.enterSafe.dev.numVfs = 0 := ⟨rfl, rfl⟩

/-! ### The early block -/

theorem State.TenantsOnly.image {s s' : State} (h : s.TenantsOnly s') : s'.image = s.image := by
  unfold State.TenantsOnly at h
  rw [h]

theorem State.image_hostUp (s : State) : s.hostUp.image = s.image := by
  rw [State.hostUp_eq]
  exact State.each_invariant State.image (fun s u => (s.funcUp_tenantsOnly u).image) _ _

/-- HOST sets where PERST_N is high. -/
def State.hostIf (s : State) (perst : Bool) : State := if perst then s.hostUp else s

theorem State.image_hostIf (s : State) (perst : Bool) : (s.hostIf perst).image = s.image := by
  unfold State.hostIf
  split
  · exact s.image_hostUp
  · rfl

/-- What the early block's check leaves, before HOST sets. -/
def State.earlyTaken (s : State) (fails : List NvmFail) : State :=
  let use : Bool → Bytes × EarlyCfg → State := fun b x => s.modImage fun i => { i with earlyFrom := some b, earlyBytes := x.1, early := x.2 }
  if s.pins.straps.getLsbD 0 then s.enterSafe
  else match s.earlyOf fails false with
    | .ok x => use false x
    | .error a => match s.earlyOf fails true with
      | .ok x => (use true x).modImage fun i => { i with aCode := a.1, aOff := a.2 }
      | .error b => (s.modImage fun i => { i with aCode := a.1, aOff := a.2, bCode := b.1, bOff := b.2 }).enterSafe

theorem earlyBlockLoaded_row {s : State} (fails : List NvmFail) (hon : s.on = true) (he : s.earlyDone = false) :
    exec (.earlyBlockLoaded fails) s =
      let s1 := s.earlyTaken fails
      let s2 := s1.hostIf s1.pins.perstN
      commit s (if s2.image.safe then s2.runAfterLoad fails else s2) :=
  if_neg (by simp [hon, he])

/-- With an early block in force the row ends as HOST has set. -/
theorem earlyBlockLoaded_takes {s z : State} {fails : List NvmFail} (hon : s.on = true) (he : s.earlyDone = false) (hz : s.earlyTaken fails = z)
    (hpins : z.pins = s.pins) (hsafe : z.image.safe = s.image.safe) :
    Safety.Takes (.earlyBlockLoaded fails) s (if s.pins.perstN then z.hostUp else z) := by
  have hno : ¬ (z.hostIf z.pins.perstN).image.safe = true := by
    rw [State.image_hostIf, hsafe]
    simp only [State.earlyDone, Bool.or_eq_false_iff] at he
    simp [he.2]
  refine (earlyBlockLoaded_row fails hon he).trans ?_
  simp only [hz, if_neg hno]
  rw [State.hostIf, hpins]; rfl

/-- In safe mode the image commands that waited then run. -/
theorem earlyBlockLoaded_safe {s x : State} {fails : List NvmFail} (hon : s.on = true) (he : s.earlyDone = false) (hz : s.earlyTaken fails = x.enterSafe)
    (hpins : x.pins = s.pins) :
    Safety.Takes (.earlyBlockLoaded fails) s ((if s.pins.perstN then x.enterSafe.hostUp else x.enterSafe).runAfterLoad fails) := by
  have hyes : (x.enterSafe.hostIf x.enterSafe.pins.perstN).image.safe = true := by
    rw [State.image_hostIf, State.enterSafe_image]
  refine (earlyBlockLoaded_row fails hon he).trans ?_
  simp only [hz, if_pos hyes]
  rw [State.hostIf, State.enterSafe_pins, hpins]; rfl

/-! ### The end of a load -/

theorem imageLoadComplete_row {s z : State} {fails : List NvmFail} (hon : s.on = true) (hf : s.image.earlyFrom ≠ none) (hl : s.loading = true)
    (hz : s.loadImage fails = z) :
    exec (.imageLoadComplete fails) s = commit s
      ((if z.image.loaded then (z.modGpio fun g => { g with held := [] }).each z.gpio.held (fun s n => s.tamperEffects n) else z).runAfterLoad fails) := by
  subst hz
  exact if_neg (by simp [hon, hl, hf])

theorem State.deliver_loaded (s : State) (g : Settings) : (s.deliver g).image.loaded = true := by
  obtain ⟨himage, _⟩ := deliveredSettingsAreInForce s g
  rw [himage]

/-- A load that delivers issues the Tamper assertions held. -/
theorem imageLoadComplete_delivers {s z : State} {fails : List NvmFail} (hon : s.on = true) (hf : s.image.earlyFrom ≠ none) (hl : s.loading = true)
    (hz : s.loadImage fails = z) (hloaded : z.image.loaded = true) :
    Safety.Takes (.imageLoadComplete fails) s
      (((z.modGpio fun g => { g with held := [] }).each z.gpio.held fun s n => s.tamperEffects n).runAfterLoad fails) := by
  refine (imageLoadComplete_row hon hf hl hz).trans ?_
  rw [if_pos hloaded]; rfl

/-- Settles O11: the early block and the load by what each copy's check says, and safe mode field by field. -/
theorem earlyBlockAndImageLoad : Obligations.EarlyBlockAndImageLoad := by
  unfold Obligations.EarlyBlockAndImageLoad
  refine ⟨fun s fails => ⟨fun h => ?_, fun hon he hs x hx => ?_, fun hon he hs a x ha hx => ?_, fun hon he hs a b ha hb => ?_, fun hon he hs => ?_⟩,
    fun s fails => ⟨fun h => ?_, fun hon hf hl x hx => ?_, fun hon hf hl a x ha hx => ?_, fun hon hf hl a b ha hb => ?_⟩,
    fun s => ⟨s.enterSafe_image, s.enterSafe_vf.1, s.enterSafe_vf.2, s.enterSafe_gpio, fun u hu _ => s.tn_enterSafe (Nat.one_le_iff_ne_zero.1 hu)⟩⟩
  · refine if_pos ?_
    rcases h with h | h <;> simp [h]
  · exact earlyBlockLoaded_takes hon he (by simp only [State.earlyTaken, hs, hx]; rfl) rfl rfl
  · exact earlyBlockLoaded_takes hon he (by simp only [State.earlyTaken, hs, ha, hx]; rfl) rfl rfl
  · exact earlyBlockLoaded_safe hon he (by simp only [State.earlyTaken, hs, ha, hb]; rfl) rfl
  · exact earlyBlockLoaded_safe hon he (by simp only [State.earlyTaken, hs]; rfl) rfl
  · refine if_pos ?_
    rcases h with h | h | h <;> simp [h]
  · refine ⟨_, rfl, imageLoadComplete_delivers hon hf hl ?_ (State.deliver_loaded _ _)⟩
    simp only [State.loadImage, hx]; rfl
  · refine ⟨_, rfl, imageLoadComplete_delivers hon hf hl ?_ ?_⟩
    · simp only [State.loadImage, ha, hx]; rfl
    · rw [State.raise_image]; exact State.deliver_loaded _ _
  · refine (imageLoadComplete_row hon hf hl (by simp only [State.loadImage, ha, hb]; rfl)).trans ?_
    rw [if_neg (by rw [State.enterSafe_image]; simp)]; rfl

end Sys2Proof.Machine

end

section

/-! PROOF. O13: Sachet is mounted, the buffer's pools are built, units pass their self-tests. -/

namespace Sys2Proof.Machine

/-! ### Losses kept -/

/-- Every volume of a loss is kept as pending under its LOSS_ID. -/
theorem State.recordLosses_mem (s : State) (lossId reason : Nat) (vols : List CrashVol) :
    ∀ v ∈ vols, ∃ p ∈ (s.recordLosses lossId reason vols).sachet.pendingLoss, p.vol.uuid = v.uuid ∧ p.lossId = lossId := by
  intro v hv
  simp only [State.recordLosses, State.modSachet_sachet, List.mem_append, List.mem_filter, List.mem_map]
  by_cases hknown : ∃ p ∈ s.sachet.pendingLoss, p.vol.uuid = v.uuid ∧ p.lossId = lossId
  · obtain ⟨p, hp, hu, hl⟩ := hknown
    exact ⟨p, .inl ⟨hp, by simp [hl]⟩, hu, hl⟩
  · refine ⟨_, .inr ⟨v, ⟨hv, ?_⟩, rfl⟩, rfl, rfl⟩
    simp only [Bool.not_eq_true', List.contains_eq_mem, decide_eq_false_iff_not, List.mem_map, Prod.mk.injEq]
    exact hknown

theorem State.sachetWrite_dev (s : State) (key n bytes : Nat) : (s.sachetWrite key n bytes).dev = s.dev := by
  simp only [State.sachetWrite]; split <;> simp

theorem State.sachetWrite_lossId (s : State) (key n bytes : Nat) : (s.sachetWrite key n bytes).sachet.lossId = s.sachet.lossId := by
  simp only [State.sachetWrite]; split <;> simp

theorem State.putSlot_dev (s : State) (reason : Nat) (vols : List CrashVol) : (s.putSlot reason vols).dev = s.dev := by
  simp only [State.putSlot, State.sachetWrite_dev, State.modSachet_dev]

theorem State.putSlot_lossId (s : State) (reason : Nat) (vols : List CrashVol) : (s.putSlot reason vols).sachet.lossId = s.sachet.lossId := by
  simp only [State.putSlot, State.sachetWrite_lossId, State.modSachet_sachet]
  split <;> rfl

theorem State.newLoss_dev (s : State) : s.newLoss.dev = s.dev := by
  simp only [State.newLoss, State.lifeCkpt, State.sachetWrite_dev, State.modSachet_dev]

theorem State.newLoss_lossId (s : State) : s.newLoss.sachet.lossId = s.sachet.lossId + 1 := by
  simp only [State.newLoss, State.lifeCkpt, State.sachetWrite_lossId, State.modSachet_sachet]

/-! ### Sachet is mounted -/

/-- Sachet mounted without its image in force: SACHET sets. -/
def State.mountedAs (s : State) (m : MountFinding) : State := (s.modSachet fun x => x.mount m).setReady rdSACHET true

/-- A good mount without the image's settings: the losses of the crash record last written. -/
theorem sachetMounted_row {s : State} {m : MountFinding} (hon : s.on = true) (hr : s.ready rdSACHET = false) (hf : s.dev.fatal.getLsbD 2 = false)
    (hm : m.bad = []) (hi : s.image.loaded = false) :
    exec (.sachetMounted m) s =
      let x := s.sachet.mount m
      if x.current.snapSeq = 0 then commit s (s.mountedAs m)
      else if x.current.reason = 3 || x.current.reason = 4 || x.current.reason = 5 then
        commit s ((s.mountedAs m).recordLosses x.current.lossId x.current.reason x.recovered)
      else
        let s3 := (s.mountedAs m).newLoss.putSlot 3 x.recovered
        commit s (s3.recordLosses s3.sachet.lossId 3 x.recovered) := by
  refine (if_neg (by simp [hon, hr, hf, -BitVec.getLsbD_eq_getElem])).trans ((if_neg (by simp [hm])).trans ?_)
  have hno : ((s.modSachet fun x => x.mount m).setReady rdSACHET true).image.loaded = false := hi
  simp only [hno, Bool.false_eq_true, if_false]
  rfl

/-! ### The buffer's pools -/

/-- A buffer whose pools hold `total` segments, `shared` of them shared. -/
def poolsWith (g : Settings) (b : Buffer) (total shared : Nat) : Buffer :=
  { b with segTotal := total, shared := shared, sharedFree := shared, urgFree := 1024, floorFree := g.ten.map fun x => (x.1, x.2.floor) }

theorem poolsOf_eq (g : Settings) (b : Buffer) : ∃ total shared, total = bufBytes g / 65536 ∧
    shared = total - 1024 - 768 * g.tpList.length - (g.ten.map fun x => x.2.floor).sum - b.retired ∧ poolsOf g b = poolsWith g b total shared :=
  ⟨_, _, rfl, rfl, rfl⟩

/-- The buffer's training has passed. -/
def State.bufferUp (s : State) : State := (s.modDev fun d => { d with bufInit := 100 }).setReady rdBUFFER true

/-! ### Self-tests -/

/-- What the row of a unit's self-test tells apart. -/
theorem unitSelfTestDone_row {s : State} {unit : SelfTest} {pass : Bool} {cause b : Nat} {served : Bool} (hu : s.unitOf unit = (cause, b, served)) :
    exec (.unitSelfTestDone unit pass) s =
      if !s.image.loaded || !served || s.dev.fatal.getLsbD cause then commit s s
      else if pass then commit s (s.setReady b true) else commit s ((s.deviceFatal cause [b]).settle) := by
  change execUnitSelfTestDone unit pass s = _
  simp only [execUnitSelfTestDone, hu]

/-- Settles O13: the mount by what it finds, the pools, and the self-tests by unit. -/
theorem sachetBufferAndUnitsComeUp : Obligations.SachetBufferAndUnitsComeUp := by
  unfold Obligations.SachetBufferAndUnitsComeUp
  refine ⟨fun s m => ⟨fun h => ?_, fun hon hr hf => ⟨fun hm => ?_, fun hm hi h0 => ?_, fun hm hi h0 hreason => ?_, fun hm hi h0 h3 h4 h5 => ?_⟩⟩,
    fun s trained => ⟨fun h => ?_, fun hi hr ht hq hf => ?_⟩, fun s unit pass cause b served hunit => ?_⟩
  · refine if_pos ?_
    rcases h with h | h | h <;> simp [h]
  · exact (if_neg (by simp [hon, hr, hf, -BitVec.getLsbD_eq_getElem])).trans (if_pos (by simp [hm]))
  · exact (sachetMounted_row hon hr hf hm hi).trans (if_pos h0)
  · refine ⟨_, (sachetMounted_row hon hr hf hm hi).trans ((if_neg h0).trans (if_pos ?_)), rfl, rfl, State.recordLosses_mem _ _ _ _⟩
    rcases hreason with h | h | h <;> simp [h]
  · refine ⟨_, (sachetMounted_row hon hr hf hm hi).trans ((if_neg h0).trans (if_neg (by simp [h3, h4, h5]))), ?ready, ?loss, State.recordLosses_mem _ _ _ _⟩
    case ready =>
      have hdev : ((s.mountedAs m).newLoss.putSlot 3 (s.sachet.mount m).recovered).dev = (s.mountedAs m).dev := by
        rw [State.putSlot_dev, State.newLoss_dev]
      exact (congrArg (fun d : Device => d.ready.getLsbD rdSACHET) hdev).trans (State.ready_setReady _ rdSACHET rdSACHET true)
    case loss => exact (State.putSlot_lossId _ _ _).trans (State.newLoss_lossId _)
  · refine if_pos ?_
    rcases h with h | h | h | h | h <;> simp [h]
  · obtain ⟨total, shared, htotal, hshared, hp⟩ := poolsOf_eq s.cfg s.bm
    refine ⟨({ s with bm := poolsWith s.cfg s.bm total shared } : State).bufferUp, (if_neg ?_).trans ?_, rfl, htotal, rfl, hshared, rfl, rfl, rfl, rfl, rfl⟩
    · simp [hi, hr, ht, hq, hf, -BitVec.getLsbD_eq_getElem]
    · rw [← hp]; rfl
  · have hu : s.unitOf unit = (cause, b, served) := by
      rcases hunit with ⟨rfl, rfl, rfl, rfl⟩ | ⟨rfl, rfl, rfl, rfl⟩ | ⟨c, rfl, rfl, rfl, rfl⟩ <;> rfl
    refine ⟨fun h => (unitSelfTestDone_row hu).trans (if_pos ?_), fun hi hs hf => ⟨fun hp => ?_, fun hp => ?_⟩⟩
    · rcases h with h | h | h <;> simp [h]
    · exact (unitSelfTestDone_row hu).trans ((if_neg (by simp [hi, hs, hf])).trans (if_pos hp))
    · exact (unitSelfTestDone_row hu).trans ((if_neg (by simp [hi, hs, hf])).trans (if_neg (by simp [hp])))

end Sys2Proof.Machine

end

section

/-! PROOF. O14: power fail, lost clocks, the die temperature. -/

namespace Sys2Proof.Machine

/-! ### Power fail -/

/-- There are four steps: a quiesce taken further than the fourth is the whole quiesce. -/
theorem State.quiesceTo_of_ge (s : State) (reason : Nat) {n : Nat} (hn : 4 ≤ n) : s.quiesceTo reason n = s.quiesceTo reason 4 := by
  simp only [State.quiesceTo, Nat.min_eq_right hn, Nat.min_self]

theorem powerFail_due_iff (s : State) (ns : Nat) :
    (s.on && decide (200 ≤ ns) && (s.dev.quiesced == 0 || (s.dev.quiesced == 3 && decide (s.dev.qstep < 4)))) = true ↔
      s.on = true ∧ 200 ≤ ns ∧ (s.dev.quiesced = 0 ∨ (s.dev.quiesced = 3 ∧ s.dev.qstep < 4)) := by
  simp [and_assoc]

/-! ### Lost clocks -/

/-- What the row of a clock that is not a lane's does. -/
theorem clockLoss_row {s : State} {clk : Clk} (hon : s.on = true) (hclk : ∀ n, clk ≠ .lane n) :
    Safety.Settles (.clockLoss clk) s (s.clockFatal (clkIdOf clk) [clkIdOf clk]) := by
  refine (if_neg (by simp [hon])).trans ?_
  cases clk with
  | lane n => exact absurd rfl (hclk n)
  | nv | core | ctl | dsp | pcie | mem => rfl

/-- The PLL that the crystal's stop names first is one of the five. -/
theorem crystalPll_mem (n : Nat) : ([1, 2, 3, 4, 6].getD (n % 5) 1) ∈ [1, 2, 3, 4, 6] := by
  have h : ∀ k < 5, ([1, 2, 3, 4, 6].getD k 1) ∈ [1, 2, 3, 4, 6] := by decide
  exact h _ (Nat.mod_lt _ (by decide))

/-- What the crystal's stop does to the pins and the power state. -/
theorem crystalStop_eq (s : State) :
    (if s.pm.state = 3 then (s.modPins fun p => { p with wakeN := false }).modPm fun p => { p with exiting := true } else s).take.modPins
        (fun p => { p with backup := true }) =
      { s with freeCtr := s.freeCtr + 1
               pins := { s.pins with backup := true, wakeN := if s.pm.state = 3 then false else s.pins.wakeN }
               pm := if s.pm.state = 3 then { s.pm with exiting := true } else s.pm } := by
  by_cases h : s.pm.state = 3
  · simp only [if_pos h]; rfl
  · simp only [if_neg h]; rfl

/-! ### The die temperature -/

/-- A limit that holds from one value up, until below a lower one. -/
theorem hysteresis_eq {lo hi : Int} (c : Int) (was : Bool) :
    (if hi ≤ c then true else if c < lo then false else was) = (decide (hi ≤ c) || (was && decide (lo ≤ c))) := by
  by_cases hhi : hi ≤ c
  · simp [hhi]
  · by_cases hlo : c < lo
    · simp [hhi, hlo, Int.not_le.2 hlo]
    · simp [hhi, hlo, Int.not_lt.1 hlo]

/-- The readings of the die and the supplies, as they are measured. -/
def State.dieMeasured (s : State) (sensors rails : List (BitVec 16)) : State :=
  let v := sensors.foldl maxTemp 0x8000
  let c := v.toInt
  let r := fun (k : Nat) => (rails.getD k 0).toNat
  let on := fun (k : Nat) => if s.pm.state = 3 then 0 else r k
  (s.modTherm fun x =>
    { x with temp := v, peak := maxTemp x.peak v, limit := if 800 ≤ c then true else if c < 760 then false else s.therm.limit,
             shut := if 880 ≤ c then true else if c < 800 then false else s.therm.shut,
             vmon := mkw [(0, r 0), (16, on 1), (32, on 2), (48, r 3)], vmon2 := mkw [(0, r 4), (16, on 5), (32, on 6)] }).peak (stDev 16) c.toNat

/-- The event of a thermal limit that sets. -/
def State.limitTold (s z : State) : State := if z.therm.limit && !s.therm.limit then z.raise evThermalLimit else z

theorem State.limitTold_image (s z : State) : (s.limitTold z).image = z.image := by
  unfold State.limitTold; split <;> simp

/-- THERM_N driven. -/
def State.thermPin (s : State) (v : Bool) : State := (s.modPins fun p => { p with thermN := v }).emit (.thermN v)

/-- What the row of a measurement does, by what the shutdown was and is. -/
theorem dieTempMeasure_row {s e : State} {sensors rails : List (BitVec 16)} (hon : s.on = true) :
    let z := s.dieMeasured sensors rails
    let z1 := s.limitTold z
    (if z.therm.shut && !s.therm.shut then
        ((z1.raise evThermalShutdown).thermPin false).each ((z1.raise evThermalShutdown).thermPin false).tpList fun s t => s.controlledStop t .parked
      else if s.therm.shut && !z.therm.shut then
        (z1.thermPin true).each (z1.thermPin true).tpList fun s t => if (s.upLanes t).isEmpty then s else s.reload t
      else z1) = e → Safety.Settles (.dieTempMeasure sensors rails) s e := by
  intro z z1 he
  subst he
  exact if_neg (by simp [hon])

/-- Settles O14: power fail, each clock, and the measurement by what the shutdown was and is. -/
theorem monitorsActOnTheirLimits : Obligations.MonitorsActOnTheirLimits := by
  unfold Obligations.MonitorsActOnTheirLimits
  refine ⟨⟨fun s ns upTo => ⟨fun h => ?_, fun h => ?_, fun h h0 h4 => ?_⟩, fun s clk h => if_pos (by simp [h]), fun s n hon => ⟨fun hl => ?_, fun hl => ?_⟩,
    fun s clk k bits hon hclk => ?_, fun s us => ⟨fun h => if_neg ?_, fun hon hus => ?_⟩⟩, fun s sensors rails => ⟨fun h => if_pos (by simp [h]), fun hon => ?_⟩⟩
  · exact if_neg (mt (powerFail_due_iff s ns).1 h)
  · exact if_pos ((powerFail_due_iff s ns).2 h)
  · have hq : s.quiesce 3 = s.quiesceTo 3 upTo := by
      rw [State.quiesceTo_of_ge s 3 h4, State.quiesce, if_neg (by simp [h0])]
    rw [hq]
    exact if_pos ((powerFail_due_iff s ns).2 h)
  · exact (if_neg (by simp [hon])).trans (congrArg (commit s) (if_neg (by simp [hl])))
  · exact (if_neg (by simp [hon])).trans (congrArg (commit s) (if_pos hl))
  · rcases hclk with ⟨rfl, rfl, rfl⟩ | ⟨rfl, rfl, rfl⟩ | ⟨rfl, rfl, rfl⟩ | ⟨rfl, rfl, rfl⟩ | ⟨rfl, rfl, rfl⟩ | ⟨rfl, rfl, rfl⟩ <;>
      exact clockLoss_row hon (fun _ => nofun)
  · rcases h with h | h
    · simp [h]
    · simp [Nat.not_le.2 h]
  · refine ⟨_, by simpa using crystalPll_mem s.free.toNat, (if_pos (by simp [hon, hus])).trans ?_⟩
    rw [← crystalStop_eq]
    by_cases h3 : s.pm.state = 3
    · simp only [if_pos h3]; rfl
    · simp only [if_neg h3]; rfl
  · refine ⟨s.dieMeasured sensors rails, rfl, rfl, rfl, hysteresis_eq _ _, hysteresis_eq _ _, fun hs hw => ?_, fun hs hw => ?_, fun hs => ?_⟩
    · exact dieTempMeasure_row hon (if_pos (by simp [hs, hw]))
    · refine dieTempMeasure_row hon ((if_neg (by simp [hs])).trans ((if_pos (by simp [hs, hw])).trans ?_))
      have hlist : ((s.limitTold (s.dieMeasured sensors rails)).thermPin true).tpList = s.tpList :=
        congrArg (fun i : Image => i.cfg.tpList) (s.limitTold_image (s.dieMeasured sensors rails))
      rw [hlist]
      simp only [List.isEmpty_iff]
      rfl
    · refine dieTempMeasure_row hon ((if_neg (by simp [hs])).trans (if_neg (by simp [hs])))

end Sys2Proof.Machine

end

section

/-! PROOF. O15: GPIO changes, Tamper, the SMBus target. -/

namespace Sys2Proof.Machine

/-! ### GPIO changes -/

/-- The debounce of a Tamper pin as its level moves. -/
def GpioPin.moved (d : GpioPin) (asserted : Bool) (heldMs : Nat) : GpioPin :=
  if asserted then { armed := d.armed || decide (10 ≤ heldMs), running := d.armed || decide (10 ≤ heldMs) } else { d with running := false }

/-- A level that moves on a Tamper input: the debounce starts where it may count, or ends. -/
theorem gpioInputChange_debounce {s : State} {pin : Nat} {level : Bool} {heldMs : Nat} (hon : s.on = true) (hpin : pin < 4) (hfunc : s.gpio.func pin = 1)
    (hmoves : s.gpio.level.getLsbD pin ≠ level) :
    exec (.gpioInputChange pin level heldMs) s = commit s
      (let s1 := s.modGpio fun g => { g with level := setBit g.level pin level }
       let d := Tab.get ({} : GpioPin) s.gpio.debounce pin
       s1.modGpio fun g => { g with debounce := Tab.set pin (d.moved (s1.gpio.asserted pin) heldMs) g.debounce }) := by
  refine (if_neg (by simp [hon, hpin])).trans (if_neg fun hb => ?_)
  rcases Bool.or_eq_true_iff.1 hb with hb | hb
  · exact of_decide_eq_true hb hfunc
  · exact hmoves (eq_of_beq hb)

/-! ### Tamper -/

/-- When an assertion of a Tamper pin counts. -/
def State.tamperDue (s : State) (pin : Nat) : Prop :=
  s.on = true ∧ pin < 4 ∧ s.gpio.func pin = 1 ∧ (Tab.get ({} : GpioPin) s.gpio.debounce pin).running = true ∧ s.gpio.asserted pin = true

theorem tamperDue_iff (s : State) (pin : Nat) : ¬ (!s.on || decide (4 ≤ pin) || decide (s.gpio.func pin ≠ 1) ||
    !(Tab.get ({} : GpioPin) s.gpio.debounce pin).running || !s.gpio.asserted pin) = true ↔ s.tamperDue pin := by
  simp [State.tamperDue, and_assoc]

/-- An assertion counted while its effects must wait. -/
theorem tamper_waits {s : State} {pin : Nat} (hdue : s.tamperDue pin) (hw : s.pm.state = 3 ∨ s.image.loaded = false) :
    exec (.tamper pin) s =
      let s2 := (s.modGpio fun g => { g with tamper := setBit g.tamper pin true, debounce := Tab.set pin { running := false, armed := false } g.debounce }).modGpio
        fun g => { g with held := g.held ++ [pin] }
      if s.pm.state = 3 && s.gpio.wake.getLsbD pin then commit s (((s2.modPins fun p => { p with wakeN := false }).emit (.wakeN false)).wake 6)
      else commit s s2 := by
  refine (if_neg ((tamperDue_iff s pin).2 hdue)).trans (if_pos ?_)
  rcases hw with h | h <;> simp [h]

/-- Outside PS0 a wake cause begins the exit. -/
theorem State.wake_of_ne {s : State} (cause : Nat) (h : s.pm.state ≠ 0) :
    s.wake cause = s.modPm fun p => { p with exiting := true, lastWake := if p.exiting then p.lastWake else cause } := if_neg h

/-! ### SMBus -/

theorem smbNack_iff (command : Byte) (write : Bool) :
    (write || !(command == 1 || command == 2 || command == 3)) = true ↔ write = true ∨ (command ≠ 1 ∧ command ≠ 2 ∧ command ≠ 3) := by
  simp [and_assoc]

/-- Settles O15: the GPIO change, Tamper and the SMBus target by their conditions. -/
theorem gpioTamperAndSmbus : Obligations.GpioTamperAndSmbus := by
  unfold Obligations.GpioTamperAndSmbus
  refine ⟨fun s pin level heldMs => ⟨fun h => if_pos ?_, fun hon hpin h => ?_, fun hon hpin hf hm ha => ?_, fun hon hpin hf hm ha => ?_⟩,
    fun s pin => ⟨fun h => ?_, fun hdue hi h3 => ?_, fun hdue hi h3 => ?_, fun hdue h3 hw => ?_, fun hdue h3 hw => ?_⟩,
    fun s => ⟨fun h => ⟨?_, ?_, ?_, fun cmd w => ?_⟩, fun hon => ⟨⟨_, ?_, rfl⟩, ⟨_, ?_, rfl⟩, ⟨_, ?_, rfl⟩, fun cmd w => ⟨fun h => ?_, fun h => ?_⟩⟩⟩⟩
  · rcases h with h | h <;> simp [h]
  · have hwas : (decide ((s.modGpio fun g => { g with level := setBit g.level pin level }).gpio.func pin ≠ 1) || s.gpio.level.getLsbD pin == level) = true := by
      rcases h with h | h
      · exact Bool.or_eq_true_iff.2 (.inl (decide_eq_true h))
      · simp [h]
    exact (if_neg (by simp [hon, hpin])).trans (if_pos hwas)
  · refine (gpioInputChange_debounce hon hpin hf hm).trans ?_
    have ha' : (s.modGpio fun g => { g with level := setBit g.level pin level }).gpio.asserted pin = true := ha
    simp only [ha', GpioPin.moved, if_true]
    rfl
  · refine (gpioInputChange_debounce hon hpin hf hm).trans ?_
    have ha' : (s.modGpio fun g => { g with level := setBit g.level pin level }).gpio.asserted pin = false := ha
    simp only [ha', GpioPin.moved, Bool.false_eq_true, if_false]
    rfl
  · exact if_pos (not_not.1 (mt (tamperDue_iff s pin).1 h))
  · exact (if_neg ((tamperDue_iff s pin).2 hdue)).trans (if_neg (by simp [hi, h3]))
  · exact (tamper_waits hdue (.inr hi)).trans (if_neg (by simp [h3]))
  · exact (tamper_waits hdue (.inl h3)).trans (if_neg (by simp [hw]))
  · refine (tamper_waits hdue (.inl h3)).trans ((if_pos (by simp [h3, hw])).trans (congrArg (commit s) ?_))
    refine (State.wake_of_ne 6 ?_).trans rfl
    exact fun h0 => absurd (h3.symm.trans h0) (by decide)
  · exact congrArg (commit s) (if_neg (by simp [h]))
  · exact congrArg (commit s) (if_neg (by simp [h]))
  · exact congrArg (commit s) (if_neg (by simp [h]))
  · exact congrArg (commit s) (if_neg (by simp [h]))
  · exact congrArg (commit s) (if_pos hon)
  · exact congrArg (commit s) (if_pos hon)
  · exact congrArg (commit s) (if_pos hon)
  · exact congrArg (commit s) (if_pos (by rw [hon, Bool.true_and]; exact (smbNack_iff cmd w).2 h))
  · refine congrArg (commit s) (if_neg ?_)
    rw [hon, Bool.true_and]
    intro hn
    rcases (smbNack_iff cmd w).1 hn with hw | ⟨h1, h2, h3⟩
    · exact absurd (h.1.symm.trans hw) (by decide)
    · rcases h.2 with hc | hc | hc <;> contradiction

end Sys2Proof.Machine

end

section

/-! PROOF. O18: rows of the command set with no such command fetched. -/

namespace Sys2Proof.Machine

/-- The image write's row asks first whether the part is quiesced. -/
theorem imageWrite_of_none {s : State} (x : ImageInput) (hc : s.imageCmd 0x28 = none) : Safety.Takes (.imageWrite x) s s := by
  by_cases hq : (decide (s.dev.quiesced = 3) || decide (s.dev.quiesced = 4)) = true
  · exact if_pos hq
  · exact takes_run_none (if_neg hq) hc

/-- Settles O18: with no command to run, `State.run` leaves the state. -/
theorem rowsWithoutACommandChangeNothing : Obligations.RowsWithoutACommandChangeNothing := by
  unfold Obligations.RowsWithoutACommandChangeNothing
  intro s
  exact ⟨fun _ _ hc => takes_run_none rfl hc, fun _ hc => takes_run_none rfl hc, fun _ hc => takes_run_none rfl hc,
    fun _ hc => takes_run_none rfl hc, fun _ _ hc => takes_run_none rfl hc, fun _ hc => takes_run_none rfl hc, fun _ hc => takes_run_none rfl hc,
    fun _ hc => takes_run_none rfl hc, fun _ hc => takes_run_none rfl hc, fun _ hc => takes_run_none rfl hc, fun _ hc => takes_run_none rfl hc,
    fun _ _ hc => takes_run_none rfl hc, fun _ hc => takes_run_none rfl hc, fun hc => takes_run_none rfl hc, fun _ hc => takes_run_none rfl hc,
    fun _ hc => takes_run_none rfl hc, fun hc => takes_run_none rfl hc, fun hc => takes_run_none rfl hc, fun hc => takes_run_none rfl hc,
    fun hc => takes_run_none rfl hc, fun _ hc => takes_run_none rfl hc, fun hc => takes_run_none rfl hc, fun hc => takes_run_none rfl hc,
    fun hc => takes_run_none rfl hc, fun hc => takes_run_none rfl hc, fun hc => takes_run_none rfl hc, fun hc => takes_run_none rfl hc,
    fun hc => takes_run_none rfl hc, fun hc => takes_run_none rfl hc, fun x hc => imageWrite_of_none x hc, fun _ hc => takes_run_none rfl hc,
    fun hc => takes_run_none rfl hc⟩

end Sys2Proof.Machine

end

section

/-! PROOF. O19: EN of TQ_CFG and the doorbells. -/

namespace Sys2Proof.Machine

/-! ### A TLP that arrives -/

@[simp] theorem State.wake_tenants (s : State) (cause : Nat) : (s.wake cause).tenants = s.tenants := by
  simp only [State.wake]; split <;> rfl
@[simp] theorem State.tlp_tenants (s : State) : s.tlp.tenants = s.tenants := by
  simp only [State.tlp]; split <;> simp
@[simp] theorem State.tlp_dev (s : State) : s.tlp.dev = s.dev := by
  simp only [State.tlp]; split <;> simp

/-- What a doorbell does to the power state. -/
def State.doorbellWake (s : State) : State := if s.pm.state = 2 then s.wake 1 else s.tlp

@[simp] theorem State.doorbellWake_tenants (s : State) : s.doorbellWake.tenants = s.tenants := by
  simp only [State.doorbellWake]; split <;> simp

/-! ### A tenant comes into service -/

/-- EN set, before it is asked whether the tenant comes into service. -/
def State.enabled (s : State) (u : Nat) : State := s.tlp.modTn u fun x => { x with cfgEn := true }

theorem State.tn_enabled (s : State) (u v : Nat) : (s.enabled u).tn v = if v = u then { s.tn u with cfgEn := true } else s.tn v := by
  rw [State.enabled, State.tn_modTn, State.tn_congr v s.tlp_tenants, State.tn_congr u s.tlp_tenants]

theorem State.enabled_eq (s : State) (u : Nat) : s.enabled u = { s.tlp with tenants := Tab.set u { s.tn u with cfgEn := true } s.tenants } := by
  rw [← s.tlp_tenants, ← State.tn_congr u s.tlp_tenants]; rfl

theorem tqCfgEnable_row {s e : State} {u : Nat} (hr : s.reach u = true) (he : (s.tn u).cfgEn = false) (h : (s.enabled u).tryRdy u = e) :
    Safety.Takes (.tqCfgEnable u) s e := by
  subst h
  exact congrArg (commit s) (if_neg (by simp [hr, he]))

/-- What is asked of a tenant that comes into service. -/
def Tenant.comesUp (x : Tenant) (host : Bool) : Bool := x.cfgEn && !x.rdy && !x.disabling && x.func && host

/-- What is wrong with the configuration of queue pair 0. -/
def State.cfgBad (s : State) (u : Nat) : Prop :=
  fld (s.tn u).aqa 7 0 = 0 ∨ fld (s.tn u).aqa 23 16 = 0 ∨ (s.tn u).asq = 0 ∨ (s.tn u).acq = 0 ∨ 1024 ≤ s.pairCount

theorem State.cfgBad_iff (s : State) (u : Nat) :
    (decide (fld (s.tn u).aqa 7 0 = 0) || decide (fld (s.tn u).aqa 23 16 = 0) || decide ((s.tn u).asq = 0) || decide ((s.tn u).acq = 0) ||
      decide (1024 ≤ s.pairCount)) = true ↔ s.cfgBad u := by
  simp [State.cfgBad, or_assoc]

theorem State.tryRdy_of_stays {s : State} {u : Nat} (h : (s.tn u).comesUp (s.ready rdHOST) = false) : s.tryRdy u = s :=
  if_neg (by rw [Tenant.comesUp] at h; simp [h])

theorem State.tryRdy_of_bad {s : State} {u : Nat} (h : (s.tn u).comesUp (s.ready rdHOST) = true) (hb : s.cfgBad u) :
    s.tryRdy u = s.modTn u fun x => { x with cfgErr := true } :=
  (if_pos h).trans (if_pos ((s.cfgBad_iff u).2 hb))

theorem State.tryRdy_of_good {s : State} {u : Nat} (h : (s.tn u).comesUp (s.ready rdHOST) = true) (hb : ¬ s.cfgBad u) :
    s.tryRdy u = s.modTn u fun x =>
      { x with rdy := true, qps := [(0, { sqBase := (s.tn u).asq, cqBase := (s.tn u).acq, sqDepth := fld (s.tn u).aqa 7 0 + 1,
                                          cqDepth := fld (s.tn u).aqa 23 16 + 1 })] } :=
  (if_pos h).trans (if_neg (mt (s.cfgBad_iff u).1 hb))

theorem State.comesUp_enabled (s : State) (u : Nat) :
    ((s.enabled u).tn u).comesUp ((s.enabled u).ready rdHOST) = (!(s.tn u).rdy && !(s.tn u).disabling && (s.tn u).func && s.ready rdHOST) := by
  have hready : (s.enabled u).ready rdHOST = s.ready rdHOST := congrArg (fun d : Device => d.ready.getLsbD rdHOST) s.tlp_dev
  rw [hready, State.tn_enabled, if_pos rfl, Tenant.comesUp, Bool.true_and]

theorem State.pairCount_enabled (s : State) (u : Nat) :
    (s.enabled u).pairCount = ((Tab.set u { s.tn u with cfgEn := true } s.tenants).map fun p => p.2.qps.length).sum := by
  rw [State.enabled_eq]; rfl

theorem State.cfgBad_enabled_iff (s : State) (u : Nat) : (s.enabled u).cfgBad u ↔
    (fld (s.tn u).aqa 7 0 = 0 ∨ fld (s.tn u).aqa 23 16 = 0 ∨ (s.tn u).asq = 0 ∨ (s.tn u).acq = 0 ∨
      1024 ≤ ((Tab.set u { s.tn u with cfgEn := true } s.tenants).map fun p => p.2.qps.length).sum) := by
  rw [State.cfgBad, State.pairCount_enabled, State.tn_enabled, if_pos rfl]

/-- A change of the enabled tenant leaves everything but the tenants as the TLP left it. -/
theorem State.enabled_modTn (s : State) (u : Nat) (f : Tenant → Tenant) :
    let e := (s.enabled u).modTn u f
    e = { s.tlp with tenants := e.tenants } ∧ e.tn u = f { s.tn u with cfgEn := true } ∧ ∀ v, v ≠ u → e.tn v = s.tn v := by
  refine ⟨rfl, ?_, fun v hv => ?_⟩
  · rw [State.tn_modTn, if_pos rfl, State.tn_enabled, if_pos rfl]
  · rw [State.tn_modTn, if_neg hv, State.tn_enabled, if_neg hv]

/-- EN cleared, before the pairs close. -/
def State.disabled (s : State) (u : Nat) : State :=
  s.tlp.modTn u fun x => { x with cfgEn := false, cfgErr := false, frz := {}, disabling := x.rdy }

theorem State.disabled_eq (s : State) (u : Nat) : s.disabled u =
    { s.tlp with tenants := Tab.set u { s.tn u with cfgEn := false, cfgErr := false, frz := {}, disabling := (s.tn u).rdy } s.tenants } := by
  rw [← s.tlp_tenants, ← State.tn_congr u s.tlp_tenants]; rfl

theorem State.qps_disabled (s : State) (u : Nat) : ((s.disabled u).tn u).qps = (s.tn u).qps := by
  rw [State.disabled, State.tn_modTn, if_pos rfl, State.tn_congr u s.tlp_tenants]

theorem tqCfgDisable_row {s : State} {u : Nat} (hr : s.reach u = true) (he : (s.tn u).cfgEn = true) :
    Safety.Settles (.tqCfgDisable u) s
      (State.each { s.tlp with tenants := Tab.set u { s.tn u with cfgEn := false, cfgErr := false, frz := {}, disabling := (s.tn u).rdy } s.tenants }
        (s.tn u).qps fun s p => s.closePair u p.1) := by
  rw [← s.disabled_eq u, ← s.qps_disabled u]
  exact congrArg (commit s) (if_neg (by simp [hr, he]))

/-! ### Doorbells -/

theorem sqTailDoorbell_row {s e : State} {u q : Nat} {value : BitVec 64} {entries : List SubEntry} (hr : s.reach u = true)
    (h : (let p := s.qp u q
      let v := fld value 15 0
      if !s.hasQp u q || !(s.tn u).cfgEn then s.doorbellWake.doorbellInvalid u q
      else if p.deleting then s.doorbellWake
      else if p.sqDepth ≤ v then s.doorbellWake.doorbellInvalid u q
      else
        let n := (v + p.sqDepth - p.sqHead) % p.sqDepth
        let more := n - p.ring.length
        let s2 := if n = 0 then s.doorbellWake.withdraw u q else s.doorbellWake
        s2.modQp u q fun x => { x with sqTail := v, ring := x.ring.take n ++ (entries ++ List.replicate more default).take more }) = e) :
    Safety.Takes (.sqTailDoorbell u q value entries) s e := by
  subst h
  rw [← State.qp_congr u q s.doorbellWake_tenants, ← State.hasQp_congr u q s.doorbellWake_tenants, ← State.tn_congr u s.doorbellWake_tenants]
  exact congrArg (commit s) (if_neg (by simp [hr]))

theorem cqHeadDoorbell_row {s e : State} {u q : Nat} {value : BitVec 64} (hr : s.reach u = true)
    (h : (let p := s.qp u q
      let v := fld value 15 0
      let posted := (p.cqTail + p.cqDepth - p.cqHead) % p.cqDepth
      let used := (v + p.cqDepth - p.cqHead) % p.cqDepth
      if !s.hasQp u q || !((s.tn u).cfgEn || p.deleting) || p.cqDepth ≤ v || posted < used then s.doorbellWake.doorbellInvalid u q
      else s.doorbellWake.modQp u q fun x => { x with cqHead := v }) = e) :
    Safety.Takes (.cqHeadDoorbell u q value) s e := by
  subst h
  rw [← State.qp_congr u q s.doorbellWake_tenants, ← State.hasQp_congr u q s.doorbellWake_tenants, ← State.tn_congr u s.doorbellWake_tenants]
  exact congrArg (commit s) (if_neg (by simp [hr]))

/-- A change of one pair, after the doorbell's TLP, leaves everything but the tenants alone. -/
theorem State.doorbellWake_modQp {s : State} {u q : Nat} (hq : s.hasQp u q = true) (f : QueuePair → QueuePair) :
    let e := s.doorbellWake.modQp u q f
    e = { s.doorbellWake with tenants := e.tenants } ∧ e.tn u = { s.tn u with qps := Tab.set q (f (s.qp u q)) (s.tn u).qps } ∧
      ∀ v, v ≠ u → e.tn v = s.tn v := by
  have hz : s.doorbellWake.hasQp u q = true := (State.hasQp_congr u q s.doorbellWake_tenants).trans hq
  refine ⟨?_, ?_, fun v hv => ?_⟩
  · simp only [State.modQp, hz, if_true]; rfl
  · rw [State.tn_modQp _ _ _ _ _ hz, if_pos rfl, State.tn_congr u s.doorbellWake_tenants, State.qp_congr u q s.doorbellWake_tenants]
  · rw [State.tn_modQp _ _ _ _ _ hz, if_neg hv, State.tn_congr v s.doorbellWake_tenants]

/-- Settles O19: EN set and cleared, and the doorbells by what the pair and the value are. -/
theorem tenantsAndDoorbells : Obligations.TenantsAndDoorbells := by
  unfold Obligations.TenantsAndDoorbells
  refine ⟨fun s u => ⟨fun h => ?_, fun hr he => ⟨fun h => ?_, fun hrdy hdis hfunc hhost => ⟨fun hbad => ?_, fun ha hb hsq hcq hpairs => ?_⟩⟩, fun h => ?_, fun hr he => ?_⟩,
    fun s u q value entries => ⟨fun hr => ⟨?_, ?_⟩, fun hr hq hen hdel hv hn => ?_, fun hr hq hen hdel hv hn => ?_, fun hr hq hen hdel => ?_, fun hr h => ?_,
      fun hr hq hen hv hp => ?_, fun hr h => ?_⟩⟩
  · exact congrArg (commit s) (if_pos (by rcases h with h | h <;> simp [h]))
  · refine tqCfgEnable_row hr he ((State.tryRdy_of_stays ?_).trans (s.enabled_eq u))
    rw [State.comesUp_enabled]
    rcases h with h | h | h | h <;> simp [h]
  · have hup : ((s.enabled u).tn u).comesUp ((s.enabled u).ready rdHOST) = true := by rw [State.comesUp_enabled]; simp [hrdy, hdis, hfunc, hhost]
    refine ⟨_, tqCfgEnable_row hr he (State.tryRdy_of_bad hup ((s.cfgBad_enabled_iff u).2 hbad)), ?_⟩
    exact s.enabled_modTn u _
  · have hup : ((s.enabled u).tn u).comesUp ((s.enabled u).ready rdHOST) = true := by rw [State.comesUp_enabled]; simp [hrdy, hdis, hfunc, hhost]
    have hgood : ¬ (s.enabled u).cfgBad u := by
      rw [State.cfgBad_enabled_iff]
      rintro (h | h | h | h | h)
      exacts [ha h, hb h, hsq h, hcq h, absurd h (Nat.not_le.2 hpairs)]
    refine ⟨_, tqCfgEnable_row hr he (State.tryRdy_of_good hup hgood), ?_⟩
    obtain ⟨hrest, hself, hother⟩ := s.enabled_modTn u fun x =>
      { x with rdy := true, qps := [(0, { sqBase := ((s.enabled u).tn u).asq, cqBase := ((s.enabled u).tn u).acq,
                                          sqDepth := fld ((s.enabled u).tn u).aqa 7 0 + 1, cqDepth := fld ((s.enabled u).tn u).aqa 23 16 + 1 })] }
    refine ⟨hrest, hother, hself.trans ?_⟩
    rw [State.tn_enabled, if_pos rfl]
  · exact congrArg (commit s) (if_pos (by rcases h with h | h <;> simp [h]))
  · exact tqCfgDisable_row hr he
  · exact congrArg (commit s) (if_pos (by simp [hr]))
  · exact congrArg (commit s) (if_pos (by simp [hr]))
  · refine ⟨_, sqTailDoorbell_row hr ((if_neg (by simp [hq, hen])).trans ((if_neg (by simp [hdel])).trans (if_neg (Nat.not_le.2 hv)))), ?_⟩
    simp only [if_neg hn]
    exact State.doorbellWake_modQp hq _
  · refine sqTailDoorbell_row hr ((if_neg (by simp [hq, hen])).trans ((if_neg (by simp [hdel])).trans ((if_neg (Nat.not_le.2 hv)).trans ?_)))
    simp only [hn, if_true, Nat.zero_sub, List.take_zero, List.append_nil]
    rfl
  · exact sqTailDoorbell_row hr ((if_neg (by simp [hq, hen])).trans (if_pos hdel))
  · refine sqTailDoorbell_row hr ?_
    by_cases hpair : (!s.hasQp u q || !(s.tn u).cfgEn) = true
    · exact if_pos hpair
    · obtain ⟨hdel, hv⟩ := (h.resolve_left (by intro hq; simp [hq] at hpair)).resolve_left (by intro hen; simp [hen] at hpair)
      exact (if_neg hpair).trans ((if_neg (by simp [hdel])).trans (if_pos hv))
  · refine ⟨_, cqHeadDoorbell_row hr (if_neg ?_), State.doorbellWake_modQp hq _⟩
    rcases hen with hen | hen <;> simp [hq, hen, hv, hp]
  · refine cqHeadDoorbell_row hr (if_pos ?_)
    rcases h with h | ⟨h, h'⟩ | h | h
    · simp [h]
    · simp [h, h']
    · simp [h]
    · simp [h]

end Sys2Proof.Machine

end

section

/-! PROOF. O20 and O21: errors of the host's rings and data, the aggregation timer, arbitration and the allocator. -/

namespace Sys2Proof.Machine

/-! ### Host errors -/

/-- The AER record of a read: the tenant's registers alone, and the report. -/
theorem State.aerRead_eq (z : State) (u : Nat) (err : ReadError) :
    z.aerRead u err = { z with tenants := (z.aerRead u err).tenants, out := z.out ++ [.aer u false] } := rfl

/-- The AER status registers of a function after an error of a read. -/
def Tenant.aerNoted (x : Tenant) (err : ReadError) : Tenant :=
  { x with fn := { x.fn with
      aerUnc := match aerBit err with
        | some k => x.fn.aerUnc ||| BitVec.ofNat 32 (2 ^ k)
        | none => x.fn.aerUnc
      aerCor := x.fn.aerCor ||| BitVec.ofNat 32 (2 ^ aerAdvisory) } }

theorem State.aerRead_modTn (z : State) (u : Nat) (err : ReadError) :
    z.aerRead u err = (z.modTn u fun x => x.aerNoted err).emit (.aer u false) := rfl

theorem State.tn_aerRead (z : State) (u v : Nat) (err : ReadError) :
    (z.aerRead u err).tn v = if v = u then (z.tn u).aerNoted err else z.tn v := by
  rw [State.aerRead_modTn]
  exact State.tn_modTn z u v fun x => x.aerNoted err

/-- The status bit of the read's error. -/
theorem State.aerUnc_aerRead (z : State) (u : Nat) (err : ReadError) :
    ((z.aerRead u err).tn u).fn.aerUnc = (z.tn u).fn.aerUnc ||| (match err with
      | .poisoned => 0x1000
      | .timeout => 0x4000
      | .unsupportedRequest | .completerAbort => 0) := by
  rw [State.tn_aerRead, if_pos rfl]
  cases err with
  | poisoned | timeout => rfl
  | unsupportedRequest | completerAbort => exact (BitVec.or_zero).symm

/-- A change of a pair that exists is a change of its tenant's table. -/
theorem State.modQp_eq {s : State} {u q : Nat} (h : s.hasQp u q = true) (f : QueuePair → QueuePair) :
    s.modQp u q f = { s with tenants := Tab.set u { s.tn u with qps := Tab.set q (f (s.qp u q)) (s.tn u).qps } s.tenants } := by
  rw [State.modQp, if_pos h]; rfl

/-- Settles O20: each row by the pair and the command it finds, and the AER record field by field. -/
theorem hostErrorsAndAggregation : Obligations.HostErrorsAndAggregation := by
  unfold Obligations.HostErrorsAndAggregation
  intro s u q err
  refine ⟨fun h => if_pos ?_, fun hq hring hlook hstop hdel => ⟨_, rfl, ?_⟩, fun addr hc => takes_run_none rfl hc, fun addr c hc => takes_run rfl hc rfl,
    fun z => ⟨z.aerRead u err, z.aerRead_eq u err, ?_, z.aerUnc_aerRead u err, ?_, fun v hv => ?_⟩, fun hq ht => ⟨_, rfl, ?_⟩, fun h => if_neg ?_⟩
  · rcases h with h | h | h | h | h <;> simp [h]
  · refine (if_neg (by simp [hq, hring, hlook, hstop, hdel])).trans ?_
    rw [State.modQp_eq hq]; rfl
  · rw [State.tn_aerRead, if_pos rfl]; rfl
  · rw [State.tn_aerRead, if_pos rfl]; rfl
  · rw [State.tn_aerRead, if_neg hv]
  · refine (if_pos (by simp [hq, ht])).trans ?_
    rw [State.modQp_eq hq]; rfl
  · rcases h with h | h <;> simp [h]

/-! ### Arbitration -/

/-- The rows of a decision in PS0 and PS1. -/
theorem arbitrationDecision_admin {s e : State} {ring : List (Nat × Nat × Nat)} (hp : s.pm.state < 2) (h : s.adminDecision = e) :
    Safety.Settles (.arbitrationDecision ⟨true, ring⟩) s e := by
  subst h
  exact if_neg (Nat.not_le.2 hp)

theorem arbitrationDecision_io {s e : State} {ring : List (Nat × Nat × Nat)} (hp : s.pm.state < 2) (h : (s.noteRing ring).ioDecision = e) :
    Safety.Settles (.arbitrationDecision ⟨false, ring⟩) s e := by
  subst h
  exact if_neg (Nat.not_le.2 hp)

theorem pickFrom_nil (ptr : Nat) : pickFrom ptr [] = none := rfl

/-- The Urgent level is served first while the reserve allows. -/
theorem State.ioDecision_urgent {s z : State} {k : Nat} (hz : s.applyClasses.endBursts = z) (hl : z.urgentReady ≠ []) (hr : z.reserveOk = true)
    (hk : pickFrom (256 * z.arb.urgTenant + z.arb.urgQueue) (z.urgentReady.map fun x => 256 * x.1 + x.2) = some k) :
    s.ioDecision = State.fetch { z with arb := { z.arb with urgTenant := (k + 1) / 256 % 16, urgQueue := (k + 1) % 256 } } (k / 256) (k % 256) .urgent := by
  have hgo : (!z.urgentReady.isEmpty && z.reserveOk) = true := by simp [hl, hr]
  subst hz
  simp only [State.ioDecision, hgo, if_true, hk]
  rfl

/-- Else the tenants are served by deficit. -/
theorem State.ioDecision_drr {s z : State} (hz : s.applyClasses.endBursts = z) (h : z.urgentReady = [] ∨ z.reserveOk = false) :
    s.ioDecision = (if z.urgentReady.isEmpty then z else z.modBm fun b => { b with waitUrg := min (2 ^ 32 - 1) (b.waitUrg + 1) }).drrDecision := by
  have hno : ¬ (!z.urgentReady.isEmpty && z.reserveOk) = true := by rcases h with h | h <;> simp [h]
  subst hz
  simp only [State.ioDecision, if_neg hno]

/-! ### The allocator -/

/-- The urgent reserve is refilled first. -/
theorem State.allocate_refill {s : State} (h : s.bm.urgFree < 1024) (hs : 0 < s.bm.sharedFree) :
    s.allocate = { s with bm := { s.bm with
      urgFree := s.bm.urgFree + min (1024 - s.bm.urgFree) s.bm.sharedFree, sharedFree := s.bm.sharedFree - min (1024 - s.bm.urgFree) s.bm.sharedFree } } :=
  if_pos (by simp [h, hs])

theorem State.allocate_request {s : State} (h : 1024 ≤ s.bm.urgFree ∨ s.bm.sharedFree = 0) :
    s.allocate = match pickFrom s.bm.pointer s.requests with
      | none => s
      | some k =>
        match (s.qp (k / 256) (k % 256)).head? with
        | some e => (s.modBm fun b => { b with pointer := (k + 1) % 4096 }).decideRequest (k / 256) (k % 256) e
        | none => s :=
  if_neg (by rcases h with h | h <;> simp [h])

/-- Settles O21: a decision by its level and its pointer, the allocator by the urgent reserve. -/
theorem decisionsServeByPriority : Obligations.DecisionsServeByPriority := by
  unfold Obligations.DecisionsServeByPriority
  refine ⟨fun s admin ring h => if_pos h, fun s ring hp => ⟨fun h => ?_, fun u hu => ?_, fun k hl hr hk => ?_, fun hl hr => ?_, fun hl => ?_⟩,
    fun s => ⟨fun h => ?_, fun hb hu hs => ?_, fun hb h => ⟨fun hk => ?_, fun k e hk he => ?_⟩⟩⟩
  · refine arbitrationDecision_admin hp ?_
    simp only [State.adminDecision, h, pickFrom_nil]
  · refine arbitrationDecision_admin hp ?_
    simp only [State.adminDecision, hu]
    rfl
  · exact arbitrationDecision_io hp (State.ioDecision_urgent rfl (fun h => hl (List.map_eq_nil_iff.2 h)) hr hk)
  · have hno : ¬ ((s.noteRing ring).applyClasses.endBursts.urgentReady.isEmpty = true) := fun h => hl (List.map_eq_nil_iff.2 (List.isEmpty_iff.1 h))
    exact arbitrationDecision_io hp ((State.ioDecision_drr rfl (.inr hr)).trans (congrArg State.drrDecision (if_neg hno)))
  · have hnil := List.map_eq_nil_iff.1 hl
    exact arbitrationDecision_io hp ((State.ioDecision_drr rfl (.inl hnil)).trans (congrArg State.drrDecision (if_pos (List.isEmpty_iff.2 hnil))))
  · exact congrArg (commit s) (if_neg (by simp [h]))
  · exact ⟨min (1024 - s.bm.urgFree) s.bm.sharedFree, min_choice _ _, Nat.min_le_left _ _, Nat.min_le_right _ _,
      congrArg (commit s) ((if_pos hb).trans (State.allocate_refill hu hs))⟩
  · refine congrArg (commit s) ((if_pos hb).trans ((State.allocate_request h).trans ?_))
    rw [hk]
  · refine congrArg (commit s) ((if_pos hb).trans ((State.allocate_request h).trans ?_))
    simp only [hk, he]
    rfl

end Sys2Proof.Machine

end

section

/-! PROOF. O23 and O24: the commands of queue pairs, and Identify. -/

namespace Sys2Proof.Machine

/-! ### A pair's schedule -/

theorem schedOf_weight (w4 : Word) : (schedOf w4).weight = if fld w4 24 16 = 0 then 1 else fld w4 24 16 := by
  simp only [schedOf]
  split <;> omega

theorem schedOf_cls (w4 : Word) : (fld w4 9 8 = 0 → (schedOf w4).cls = .medium) ∧ (fld w4 9 8 = 1 → (schedOf w4).cls = .high) ∧
    (fld w4 9 8 = 2 → (schedOf w4).cls = .low) ∧ (fld w4 9 8 = 3 → (schedOf w4).cls = .urgent) := by
  refine ⟨fun h => ?_, fun h => ?_, fun h => ?_, fun h => ?_⟩ <;> simp [schedOf, h]

/-! ### Create Queue Pair, after its fields -/

/-- The fields of a Create Queue Pair that make a pair. -/
def State.pairFieldsOk (s : State) (u : Nat) (e : SubEntry) : Prop :=
  e.headOk false false = true ∧ e.noData = true ∧ fld e.w4 15 10 = 0 ∧ fld e.w4 31 28 = 0 ∧ fld e.w4 47 44 = 0 ∧ fld e.w4 63 54 = 0 ∧
    fld e.w7 63 32 = 0 ∧ fld e.w4 7 0 ≠ 0 ∧ fld e.w5 11 0 = 0 ∧ fld e.w6 11 0 = 0 ∧ 2 ≤ fld e.w4 43 32 + 1 ∧
    fld e.w4 43 32 + 1 ≤ (s.tenCfg u).maxQdepth ∧ fld e.w4 53 48 < vectorCount u ∧ fld e.w4 24 16 ≤ 256

theorem State.pairFieldsOk_iff (s : State) (u : Nat) (e : SubEntry) :
    (e.headOk false false && e.noData && fld e.w4 15 10 == 0 && fld e.w4 31 28 == 0 && fld e.w4 47 44 == 0 && fld e.w4 63 54 == 0 &&
      fld e.w7 63 32 == 0 && fld e.w4 7 0 != 0 && fld e.w5 11 0 == 0 && fld e.w6 11 0 == 0 && decide (2 ≤ fld e.w4 43 32 + 1) &&
      decide (fld e.w4 43 32 + 1 ≤ (s.tenCfg u).maxQdepth) && decide (fld e.w4 53 48 < vectorCount u) && decide (fld e.w4 24 16 ≤ 256)) = true ↔
      s.pairFieldsOk u e := by
  simp [State.pairFieldsOk, and_assoc]

/-- What follows the test of the fields: the ID, the Urgent limit, the table. -/
theorem createQueuePair_row {s e : State} {u : Nat} {c : Cmd} (hc : s.adminCmd u 0x02 = some c) (hok : s.pairFieldsOk u c.entry)
    (h : (let q := fld c.entry.w4 7 0
      let full := decide ((s.tenCfg u).maxQp ≤ (s.tn u).qps.length) || decide (1024 ≤ s.pairCount)
      if !full && (s.hasQp u q || decide ((s.tenCfg u).maxQp ≤ q)) then s.fail c Status.invalidField
      else if fld c.entry.w4 9 8 == 3 && decide (2 ≤ s.urgentOthers u q) then s.fail c Status.urgentLimit
      else if full then s.fail c Status.queueLimit
      else (s.modTn u fun x => { x with qps := Tab.set q (newPair c.entry) x.qps }).succeed c) = e) : Safety.Takes (.createQueuePair u) s e := by
  subst h
  exact takes_run rfl hc (if_neg (check_passes (s.pairFieldsOk_iff u c.entry) hok))

/-! ### Restart Queues -/

/-- The freeze of a tenant ends and its stopped queues go on. -/
def Tenant.restarted (x : Tenant) : Tenant := { x with frz := {}, qps := x.qps.map fun p => (p.1, { p.2 with stopped := false }) }

theorem State.qp_restarted (s : State) (u q : Nat) : (s.modTn u Tenant.restarted).qp u q = { s.qp u q with stopped := false } := by
  rw [State.qp, State.tn_modTn, if_pos rfl]
  exact Tab.get_map ({} : QueuePair) (fun p => { p with stopped := false }) (s.tn u).qps q

/-- Settles O23: each command by its fields, then by what it finds. -/
theorem queuePairCommands : Obligations.QueuePairCommands := by
  unfold Obligations.QueuePairCommands
  refine ⟨fun s u c hc => ⟨fun h => ?_, fun hok hid h3 => ?_, fun hok h3 hfull => ?_, fun hok hid h3 hfull => ?_⟩,
    fun s u c hc => ⟨fun h => ?_, fun hok => ?_⟩, fun s u c hc => ⟨fun h => ?_, fun hok h3 => ?_, fun hok h3 => ?_⟩,
    fun s u c hc => ⟨fun h => ?_, fun hok => ?_⟩⟩
  · by_cases hok : s.pairFieldsOk u c.entry
    · have hid := h.resolve_left (not_not.2 hok)
      simp only [not_or, not_and, Nat.not_lt, Nat.not_le] at hid
      obtain ⟨⟨hlen, hcount⟩, hq⟩ := hid
      refine createQueuePair_row hc hok (if_pos ?_)
      cases hhas : s.hasQp u (fld c.entry.w4 7 0)
      · simp [Nat.not_le.2 hlen, Nat.not_le.2 hcount, hq hhas]
      · simp [Nat.not_le.2 hlen, Nat.not_le.2 hcount]
    · exact takes_run rfl hc (if_pos (check_fails (s.pairFieldsOk_iff u c.entry) hok))
  · refine createQueuePair_row hc hok ((if_neg ?_).trans (if_pos (by simp [h3])))
    rcases hid with (hf | hf) | ⟨hq, hlt⟩
    · simp [hf]
    · simp [hf]
    · simp [hq, hlt]
  · refine createQueuePair_row hc hok ((if_neg ?_).trans ((if_neg ?_).trans (if_pos ?_)))
    · rcases hfull with hf | hf <;> simp [hf]
    · simpa using h3
    · simpa using hfull
  · obtain ⟨hq, hlt⟩ := hid.resolve_left hfull
    refine ⟨newPair c.entry, rfl, rfl, rfl, rfl, rfl, rfl, rfl, rfl, rfl, rfl, rfl, rfl, rfl, rfl,
      createQueuePair_row hc hok ((if_neg ?_).trans ((if_neg ?_).trans (if_neg ?_)))⟩
    · simp [hq, hlt]
    · simpa using h3
    · simpa using hfull
  · exact takes_run rfl hc (if_neg (by simpa [zeros, and_assoc] using h))
  · exact takes_run rfl hc (if_pos (by simpa [zeros, and_assoc] using hok))
  · exact takes_run rfl hc (if_pos (check_fails (by simp [zeros, and_assoc]) h))
  · exact takes_run rfl hc ((if_neg (check_passes (by simp [zeros, and_assoc]) hok)).trans (if_pos (by simpa using h3)))
  · obtain ⟨hm, hh, hl, hu⟩ := schedOf_cls c.entry.w4
    refine ⟨schedOf c.entry.w4, schedOf_weight _, rfl, hm, hh, hl, hu, ?_⟩
    refine takes_run rfl hc ((if_neg (check_passes (by simp [zeros, and_assoc]) hok)).trans ((if_neg (by simpa using h3)).trans ?_))
    obtain ⟨_, _, _, _, _, _, _, _, hq, _⟩ := hok
    rw [State.modQp_eq hq]
  · exact takes_run rfl hc (if_neg (by simpa [zeros, and_assoc] using h))
  · refine ⟨s.modTn u Tenant.restarted, takes_run rfl hc (if_pos (by simpa [zeros, and_assoc] using hok)), rfl, ?_, fun q _ => s.qp_restarted u q, fun v hv => ?_⟩
    · rw [State.tn_modTn, if_pos rfl]; rfl
    · rw [State.tn_modTn, if_neg hv]

/-! ### Identify -/

theorem slice_length (bs : Bytes) (off len : Nat) : (slice bs off len).length = len := by
  simp only [slice, List.length_append, List.length_replicate, List.length_take, List.length_drop]
  omega

theorem page_length (b : Bytes) : (page b).length = 4096 := slice_length b 0 4096

/-- The view that CNS names. -/
def State.identView (s : State) (u cns t first : Nat) : Bytes :=
  match cns with
  | 0 => s.identDevice
  | 1 => s.identTenant u
  | 2 => s.identTransport t
  | 3 => s.identVolumes u first
  | _ => s.identDurations

theorem State.identView_length (s : State) (u cns t first : Nat) : (s.identView u cns t first).length = 4096 := by
  unfold State.identView
  split <;> exact page_length _

theorem State.identOk_iff (s : State) (e : SubEntry) (h : HostData) :
    (e.headOk false false && e.dataOk h && decide (4096 ≤ e.len) && fld e.w4 63 32 == 0 && zeros [e.w5, e.w6, e.w7] &&
      decide (fld e.w4 7 0 ≤ 4) && (if fld e.w4 7 0 = 2 then s.tpExists (fld e.w4 15 8) else fld e.w4 15 8 == 0) &&
      (fld e.w4 7 0 == 3 || fld e.w4 31 16 == 0)) = true ↔
    (e.headOk false false = true ∧ e.dataOk h = true ∧ 4096 ≤ e.len ∧ fld e.w4 63 32 = 0 ∧ e.w5 = 0 ∧ e.w6 = 0 ∧ e.w7 = 0 ∧ fld e.w4 7 0 ≤ 4 ∧
      (fld e.w4 7 0 = 2 → s.tpExists (fld e.w4 15 8) = true) ∧ (fld e.w4 7 0 ≠ 2 → fld e.w4 15 8 = 0) ∧ (fld e.w4 7 0 ≠ 3 → fld e.w4 31 16 = 0)) := by
  by_cases h2 : fld e.w4 7 0 = 2
  · simp [h2, zeros, and_assoc]
  · by_cases h3 : fld e.w4 7 0 = 3
    · simp [h3, zeros, and_assoc]
    · simp [h2, h3, zeros, and_assoc]

/-- Settles O24: the fields, then the view. -/
theorem identifyReturnsItsView : Obligations.IdentifyReturnsItsView := by
  unfold Obligations.IdentifyReturnsItsView
  intro s u h c0 hc
  obtain ⟨hu, hq, _⟩ := State.of_adminCmd hc
  have hiff := s.identOk_iff c0.entry h
  refine ⟨fun hok => takes_run rfl hc (if_pos (check_fails hiff hok)), fun hok =>
    ⟨s.identView u (fld c0.entry.w4 7 0) (fld c0.entry.w4 15 8) (fld c0.entry.w4 31 16), s.identView_length _ _ _ _, ?_, ?_, ?_, ?_, ?_,
      takes_run rfl hc ((if_neg (check_passes hiff hok)).trans ?_)⟩⟩
  · intro hcns; rw [hcns]; rfl
  · intro hcns; rw [hcns]; rfl
  · intro hcns; rw [hcns]; rfl
  · intro hcns; rw [hcns]; rfl
  · intro hcns; rw [hcns]; rfl
  · simp only [State.hostWrite, hu, hq]
    rfl

end Sys2Proof.Machine

end

section

/-! PROOF. O27 and O28: the commands of volumes and of keys. -/

namespace Sys2Proof.Machine

/-! ### Create Volume -/

/-- The fields of a Create Volume. -/
def State.volumeFieldsOk (s : State) (e : SubEntry) : Prop :=
  e.headOk false false = true ∧ e.noData = true ∧ fld e.w4 15 11 = 0 ∧ fld e.w4 63 32 = 0 ∧ e.w7 = 0 ∧ (e.w5 ≠ 0 ∨ e.w6 ≠ 0) ∧
    s.tpExists (fld e.w4 7 0) = true ∧ (bit e.w4 8 = true ∨ fld e.w4 31 16 ≤ 3650)

theorem State.volumeFieldsOk_iff (s : State) (e : SubEntry) :
    (e.headOk false false && e.noData && fld e.w4 15 11 == 0 && fld e.w4 63 32 == 0 && e.w7 == 0 && (e.w5 != 0 || e.w6 != 0) &&
      s.tpExists (fld e.w4 7 0) && (bit e.w4 8 || decide (fld e.w4 31 16 ≤ 3650))) = true ↔ s.volumeFieldsOk e := by
  simp [State.volumeFieldsOk, and_assoc]

/-- The first directory entry of a transport that no volume uses. -/
def State.freeSlot (s : State) (t : Nat) : Option Nat := (List.range 64).find? fun k => !(Tab.get default (s.dir t).vols k).used

/-- A new volume's directory entry. -/
def newVolume (e : SubEntry) (u : Nat) : DirVolume :=
  { (default : DirVolume) with uuid := uuidOf e.w5 e.w6, tenant := u, encrypt := bit e.w4 9, strict := bit e.w4 10, used := true,
                               retention := fld e.w4 31 16, nextSeq := 1, h := chainStart (uuidOf e.w5 e.w6) }

theorem newVolume_fields (e : SubEntry) (u : Nat) :
    let v := newVolume e u
    v.uuid = uuidOf e.w5 e.w6 ∧ v.tenant = u ∧ v.encrypt = bit e.w4 9 ∧ v.strict = bit e.w4 10 ∧ v.used = true ∧ v.deleted = false ∧ v.hold = false ∧
      v.retention = fld e.w4 31 16 ∧ v.nextSeq = 1 ∧ v.v = 0 ∧ v.kcv = 0 ∧ v.chainN = 0 ∧ v.h = chainStart (uuidOf e.w5 e.w6) := by
  simp only [newVolume]
  exact ⟨trivial, trivial, trivial, trivial, trivial, rfl, rfl, trivial, trivial, rfl, rfl, rfl, trivial⟩

/-- What follows where there is room for a volume. -/
def State.createIn (s : State) (c : Cmd) (u h : Nat) : State :=
  let t := fld c.entry.w4 7 0
  if bit c.entry.w4 8 then
    match dirFind (s.dir t) (uuidOf c.entry.w5 c.entry.w6) with
    | none => s.fail c Status.invalidVolume
    | some (k, v) =>
      if v.deleted || v.tenant ≠ u || (s.volAt t k).isSome then s.fail c Status.invalidVolume
      else s.bringOnline c h t k v
  else if (dirFind (s.dir t) (uuidOf c.entry.w5 c.entry.w6)).isSome then s.fail c Status.volumeExists
  else (s.modDir t fun d => { d with vols := Tab.set ((s.freeSlot t).getD 0) (newVolume c.entry u) d.vols }).bringOnline c h t
    ((s.freeSlot t).getD 0) (newVolume c.entry u)

/-- What follows the fields where the directory is readable. -/
theorem createVolume_row {s e : State} {u : Nat} {c : Cmd} (hc : s.adminCmd u 0x10 = some c) (hok : s.volumeFieldsOk c.entry)
    (hdir : (s.tp (fld c.entry.w4 7 0)).ld.dirUnreadable = false)
    (h : (match s.freeHandle with
      | none => s.fail c Status.volumeLimit
      | some h => if (s.tenCfg u).maxVol ≤ (s.volsOfTenant u).length || (s.freeSlot (fld c.entry.w4 7 0)).isNone then s.fail c Status.volumeLimit
        else s.createIn c u h) = e) : Safety.Takes (.createVolume u) s e := by
  subst h
  exact takes_run rfl hc ((if_neg (check_passes (s.volumeFieldsOk_iff c.entry) hok)).trans (if_neg (by simp [hdir])))

/-- A handle, an entry of the tenant and a directory entry are free. -/
theorem createVolume_room {s e : State} {u : Nat} {c : Cmd} {h : Nat} (hc : s.adminCmd u 0x10 = some c) (hok : s.volumeFieldsOk c.entry)
    (hdir : (s.tp (fld c.entry.w4 7 0)).ld.dirUnreadable = false)
    (hroom : s.freeHandle = some h ∧ (s.volsOfTenant u).length < (s.tenCfg u).maxVol ∧ s.freeSlot (fld c.entry.w4 7 0) ≠ none)
    (he : s.createIn c u h = e) : Safety.Takes (.createVolume u) s e := by
  obtain ⟨hh, hmax, hslot⟩ := hroom
  refine createVolume_row hc hok hdir ?_
  rw [hh]
  exact (if_neg (by simp [Nat.not_le.2 hmax, hslot])).trans he

/-! ### Commands that name a volume -/

/-- A Delete Volume or a Clear Key has no field but its volume. -/
theorem bareOk_iff (e : SubEntry) : (e.headOk false true && e.noData && zeros [e.w4, e.w5, e.w6, e.w7]) = true ↔
    (e.headOk false true = true ∧ e.noData = true ∧ e.w4 = 0 ∧ e.w5 = 0 ∧ e.w6 = 0 ∧ e.w7 = 0) := by
  simp [zeros, and_assoc]

theorem holdOk_iff (e : SubEntry) : (e.headOk false true && e.noData && fld e.w4 63 1 == 0 && zeros [e.w5, e.w6, e.w7]) = true ↔
    (e.headOk false true = true ∧ e.noData = true ∧ fld e.w4 63 1 = 0 ∧ e.w5 = 0 ∧ e.w6 = 0 ∧ e.w7 = 0) := by
  simp [zeros, and_assoc]

theorem keyOk_iff (e : SubEntry) : (e.headOk false true && e.dtype == 1 && e.len == 32 && zeros [e.w4, e.w5, e.w6, e.w7]) = true ↔
    (e.headOk false true = true ∧ e.dtype = 1 ∧ e.len = 32 ∧ e.w4 = 0 ∧ e.w5 = 0 ∧ e.w6 = 0 ∧ e.w7 = 0) := by
  simp [zeros, and_assoc]

/-- An encrypted volume that has never had a key. -/
theorem keyless_iff (w : Volume) : ¬ (w.encrypt && w.kcv == 0) = true ↔ (w.encrypt = false ∨ w.kcv ≠ 0) := by
  cases w.encrypt <;> simp

/-- Settles O27: Create Volume by what the directory holds, the other two by what the volume is. -/
theorem volumesAreCreatedDeletedAndHeld : Obligations.VolumesAreCreatedDeletedAndHeld := by
  unfold Obligations.VolumesAreCreatedDeletedAndHeld
  refine ⟨fun s u c hc => ⟨fun h => ?_, fun hok hdir => ?_, fun hok hdir => ⟨fun h => ?_, fun h hroom ho hf => ?_, fun h k v hroom ho hf hv => ?_,
      fun h k v hroom ho hf hdel hten hat => ?_, fun h k hroom ho hs hf => ?_, fun h k hroom ho hs hf => ?_⟩⟩,
    fun s u c => ⟨fun hc => ⟨fun h => ?_, fun hok hw => ?_, fun w hok hw he hk => ?_, fun w hok hw hk hh => ?_, fun w hok hw hk hh => ?_⟩,
      fun hc => ⟨fun h => ?_, fun hok hw => ?_, fun w hok hw he hk => ?_, fun w hok hw hk => ⟨_, rfl, ?_⟩⟩⟩⟩
  · exact takes_run rfl hc (if_pos (check_fails (s.volumeFieldsOk_iff c.entry) h))
  · exact takes_run rfl hc ((if_neg (check_passes (s.volumeFieldsOk_iff c.entry) hok)).trans (if_pos hdir))
  · refine createVolume_row hc hok hdir ?_
    cases hh : s.freeHandle with
    | none => rfl
    | some k =>
      refine if_pos ?_
      rcases h.resolve_left (by simp [hh]) with h | h
      · simp [h]
      · have hslot : s.freeSlot (fld c.entry.w4 7 0) = none := h
        simp [hslot]
  · refine createVolume_room hc hok hdir hroom ?_
    simp only [State.createIn, ho, if_true, hf]
    rfl
  · refine createVolume_room hc hok hdir hroom ?_
    simp only [State.createIn, ho, if_true, hf]
    exact if_pos (by rcases hv with hv | hv | hv <;> simp [hv, Option.isSome_iff_ne_none.2])
  · refine createVolume_room hc hok hdir hroom ?_
    simp only [State.createIn, ho, if_true, hf]
    exact if_neg (by simp [hdel, hten, hat])
  · refine createVolume_room hc hok hdir hroom ?_
    simp only [State.createIn, ho]
    exact if_pos (Option.isSome_iff_ne_none.2 hf)
  · have hslot : s.freeSlot (fld c.entry.w4 7 0) = some k := hs
    obtain ⟨h1, h2, h3, h4, h5, h6, h7, h8, h9, h10, h11, h12, h13⟩ := newVolume_fields c.entry u
    refine ⟨newVolume c.entry u, h1, h2, h3, h4, h5, h6, h7, h8, h9, h10, h11, h12, h13, createVolume_room hc hok hdir hroom ?_⟩
    simp only [State.createIn, ho, hf, hslot, Option.isSome_none, Bool.false_eq_true, if_false, Option.getD_some]
  · exact takes_run rfl hc (if_pos (check_fails (bareOk_iff c.entry) h))
  · refine takes_run rfl hc ((if_neg (check_passes (bareOk_iff c.entry) hok)).trans ?_)
    simp only [hw]; rfl
  · refine takes_run rfl hc ((if_neg (check_passes (bareOk_iff c.entry) hok)).trans ?_)
    simp only [hw]
    exact if_pos (by simp [he, hk])
  · refine takes_run rfl hc ((if_neg (check_passes (bareOk_iff c.entry) hok)).trans ?_)
    simp only [hw]
    exact (if_neg ((keyless_iff w).2 hk)).trans (if_pos hh)
  · refine takes_run rfl hc ((if_neg (check_passes (bareOk_iff c.entry) hok)).trans ?_)
    simp only [hw]
    exact (if_neg ((keyless_iff w).2 hk)).trans (if_neg (by simp [hh]))
  · exact takes_run rfl hc (if_pos (check_fails (holdOk_iff c.entry) h))
  · refine takes_run rfl hc ((if_neg (check_passes (holdOk_iff c.entry) hok)).trans ?_)
    simp only [hw]; rfl
  · refine takes_run rfl hc ((if_neg (check_passes (holdOk_iff c.entry) hok)).trans ?_)
    simp only [hw]
    exact if_pos (by simp [he, hk])
  · refine takes_run rfl hc ((if_neg (check_passes (holdOk_iff c.entry) hok)).trans ?_)
    simp only [hw]
    exact if_neg ((keyless_iff w).2 hk)

/-- Settles O28: each command by its fields, then by the volume's key. -/
theorem keysLoadAndClear : Obligations.KeysLoadAndClear := by
  unfold Obligations.KeysLoadAndClear
  refine fun s u c => ⟨fun hc h => ⟨fun hok => ?_, fun hok hw => ?_, fun w hok hw => ⟨fun he => ?_, fun he hk => ?_, fun k he hk hne => ?_, fun he hk hs => ?_,
      fun he hk hs => ⟨fun h0 hne => ?_, fun h0 heq => ?_, fun h0 => ?_⟩⟩⟩,
    fun hc => ⟨fun h => ?_, fun hok hw => ?_, fun w hok hw he => ?_, fun w hok hw he h0 => ?_, fun w hok hw he h0 => ?_⟩⟩
  · exact takes_run rfl hc (if_pos (check_fails (keyOk_iff c.entry) hok))
  · refine takes_run rfl hc ((if_neg (check_passes (keyOk_iff c.entry) hok)).trans ?_)
    simp only [hw]; rfl
  · refine takes_run rfl hc ((if_neg (check_passes (keyOk_iff c.entry) hok)).trans ?_)
    simp only [hw]
    exact if_pos (by simp [he])
  · refine takes_run rfl hc ((if_neg (check_passes (keyOk_iff c.entry) hok)).trans ?_)
    simp only [hw, he, hk]; rfl
  · refine takes_run rfl hc ((if_neg (check_passes (keyOk_iff c.entry) hok)).trans ?_)
    simp only [hw, he, hk, if_neg hne]; rfl
  · refine takes_run rfl hc ((if_neg (check_passes (keyOk_iff c.entry) hok)).trans ?_)
    simp only [hw, he, hk, if_pos hs]; rfl
  · refine takes_run rfl hc ((if_neg (check_passes (keyOk_iff c.entry) hok)).trans ?_)
    simp only [hw, he, hk, if_neg (Nat.not_le.2 hs), Bool.not_true, Bool.false_eq_true, if_false]
    generalize keyCheck (hostBytes c.entry h) w.uuid = kcv at hne ⊢
    exact if_pos (Bool.and_eq_true_iff.2 ⟨decide_eq_true h0, decide_eq_true hne⟩)
  · refine takes_run rfl hc ((if_neg (check_passes (keyOk_iff c.entry) hok)).trans ?_)
    simp only [hw, he, hk, if_neg (Nat.not_le.2 hs), Bool.not_true, Bool.false_eq_true, if_false]
    generalize keyCheck (hostBytes c.entry h) w.uuid = kcv at heq ⊢
    refine (if_neg (by simp [heq])).trans ?_
    rw [if_neg h0]; rfl
  · refine takes_run rfl hc ((if_neg (check_passes (keyOk_iff c.entry) hok)).trans ?_)
    simp only [hw, he, hk, if_neg (Nat.not_le.2 hs), Bool.not_true, Bool.false_eq_true, if_false]
    generalize keyCheck (hostBytes c.entry h) w.uuid = kcv
    refine (if_neg (by simp [h0])).trans ?_
    rw [if_pos h0]; rfl
  · exact takes_run rfl hc (if_pos (check_fails (bareOk_iff c.entry) h))
  · refine takes_run rfl hc ((if_neg (check_passes (bareOk_iff c.entry) hok)).trans ?_)
    simp only [hw]; rfl
  · refine takes_run rfl hc ((if_neg (check_passes (bareOk_iff c.entry) hok)).trans ?_)
    simp only [hw]
    exact if_pos (by simp [he])
  · refine takes_run rfl hc ((if_neg (check_passes (bareOk_iff c.entry) hok)).trans ?_)
    simp only [hw, he, Bool.not_true, Bool.false_eq_true, if_false]
    exact if_pos h0
  · refine takes_run rfl hc ((if_neg (check_passes (bareOk_iff c.entry) hok)).trans ?_)
    simp only [hw, he, Bool.not_true, Bool.false_eq_true, if_false]
    exact if_neg h0

end Sys2Proof.Machine

end

section

/-! PROOF. O29 and O30: the checks that every I/O command shares, and Write Records. -/

namespace Sys2Proof.Machine

/-! ### The checks that every I/O command shares -/

section ioRun

variable {s : State} {u q op : Nat} {h : HostData} {ok : Cmd → Bool} {f : State → Cmd → Volume → State} {c0 : Cmd} {w : Volume}

theorem State.ioRun_none (hc : s.ioCmd u q op = none) : s.ioRun u q op h ok f = s := by
  simp only [State.ioRun, hc, State.run]

theorem State.ioRun_fields (hc : s.ioCmd u q op = some c0) (hok : ok { c0 with data := h } = false) :
    s.ioRun u q op h ok f = s.fail { c0 with data := h } Status.invalidField := by
  simp only [State.ioRun, hc, State.run, hok, Bool.not_false, if_true]

theorem State.ioRun_noVolume (hc : s.ioCmd u q op = some c0) (hok : ok { c0 with data := h } = true) (hw : s.ownVol { c0 with data := h } = none) :
    s.ioRun u q op h ok f = s.fail { c0 with data := h } Status.invalidVolume := by
  simp only [State.ioRun, hc, State.run, hok, Bool.not_true, Bool.false_eq_true, if_false, hw]

theorem State.ioRun_report {a b : Nat} (hc : s.ioCmd u q op = some c0) (hok : ok { c0 with data := h } = true)
    (hw : s.ownVol { c0 with data := h } = some w) (hr : w.report = some (a, b)) :
    s.ioRun u q op h ok f = (s.setVol c0.entry.vol { w with report := none }).complete { c0 with data := h } Status.deferredWriteError
      { result := mkw [(0, a % 2 ^ 48)], detail := BitVec.ofNat 64 w.transport, first := a, last := b } := by
  simp only [State.ioRun, hc, State.run, hok, Bool.not_true, Bool.false_eq_true, if_false, hw, hr]

theorem State.ioRun_keyless (hc : s.ioCmd u q op = some c0) (hok : ok { c0 with data := h } = true)
    (hw : s.ownVol { c0 with data := h } = some w) (hr : w.report = none) (he : w.encrypt = true) (hk : w.kcv = 0) :
    s.ioRun u q op h ok f = s.fail { c0 with data := h } Status.keyNotLoaded := by
  have hno : (w.encrypt && w.kcv == 0) = true := by simp [he, hk]
  simp only [State.ioRun, hc, State.run, hok, Bool.not_true, Bool.false_eq_true, if_false, hw, hr, hno, if_true]

/-- A command that passes every check does what its row says. -/
theorem State.ioRun_passes (hc : s.ioCmd u q op = some c0) (hok : ok { c0 with data := h } = true)
    (hw : s.ownVol { c0 with data := h } = some w) (hr : w.report = none) (hk : w.encrypt = false ∨ w.kcv ≠ 0) :
    s.ioRun u q op h ok f = f s { c0 with data := h } w := by
  simp only [State.ioRun, hc, State.run, hok, Bool.not_true, Bool.false_eq_true, if_false, hw, hr, if_neg ((keyless_iff w).2 hk)]

end ioRun

/-- The I/O commands, with the codes, the data and the fields of each. -/
def ioRows (u q : Nat) (h : HostData) : List (Instr × Nat × HostData × (Cmd → Bool)) :=
  [(.writeRecords u q h, 0x81, h, Cmd.writeOk), (.readRecords u q h, 0x82, h, Cmd.readOk), (.locate u q, 0x83, ⟨[], []⟩, Cmd.locateOk),
    (.writeMark u q, 0x84, ⟨[], []⟩, Cmd.markOk), (.flush u q, 0x85, ⟨[], []⟩, Cmd.flushOk), (.readPosition u q h, 0x86, h, Cmd.positionOk),
    (.verifyRange u q, 0x87, ⟨[], []⟩, Cmd.verifyOk)]

/-- Every I/O row is the shared checks and what its command then does. -/
theorem exec_ioRow (s : State) (u q : Nat) (h : HostData) : ∀ x ∈ ioRows u q h, (s.dev.quiesced = 0 ∨ (x.2.1 ≠ 0x81 ∧ x.2.1 ≠ 0x84)) →
    ∃ f, exec x.1 s = commit s (s.ioRun u q x.2.1 x.2.2.1 x.2.2.2 f).settle := by
  simp only [ioRows, List.forall_mem_cons]
  refine ⟨fun hq => ⟨_, if_neg ?_⟩, fun _ => ⟨_, rfl⟩, fun _ => ⟨_, rfl⟩, fun hq => ⟨_, if_neg ?_⟩, fun _ => ⟨_, rfl⟩, fun _ => ⟨_, rfl⟩, fun _ => ⟨_, rfl⟩, nofun⟩
  · exact not_not.2 (hq.resolve_right fun h => h.1 rfl)
  · exact not_not.2 (hq.resolve_right fun h => h.2 rfl)

/-- An I/O row settles in what the shared checks and its command leave. -/
theorem settles_of_ioRun {i : Instr} {s x e : State} (hrow : exec i s = commit s x.settle) (he : x = e) : Safety.Settles i s e := he ▸ hrow

/-! ### Writes of a quiesced part -/

/-- A write whose list holds a Durable record. -/
def Cmd.durable (c : Cmd) (h : HostData) : Prop :=
  ∃ rs, parseRecords (fld c.entry.w4 12 0) (hostBytes c.entry h) = some rs ∧ ∃ r ∈ rs, recDurable r = true

theorem State.writeQuiesced_stays {s : State} {u q : Nat} {h : HostData} {c : Cmd} (hc : s.ioCmd u q 0x81 = some c)
    (hn : ¬ (c.durable h ∧ s.dev.fatal.getLsbD 2 = true ∧ c.sachet = true)) : s.writeQuiesced u q h = s := by
  simp only [State.writeQuiesced, hc, State.run]
  cases hrs : parseRecords (fld c.entry.w4 12 0) (hostBytes c.entry h) with
  | none => rfl
  | some rs =>
    refine if_neg fun hb => hn ?_
    simp only [Bool.and_eq_true, List.any_eq_true] at hb
    obtain ⟨⟨hf, hs⟩, hd⟩ := hb
    exact ⟨⟨rs, hrs, hd⟩, hf, hs⟩

theorem State.writeQuiesced_fails {s : State} {u q : Nat} {h : HostData} {c : Cmd} (hc : s.ioCmd u q 0x81 = some c) (hd : c.durable h)
    (hf : s.dev.fatal.getLsbD 2 = true) (hs : c.sachet = true) : s.writeQuiesced u q h = s.fail c Status.deviceFatal := by
  obtain ⟨rs, hrs, hdur⟩ := hd
  simp only [State.writeQuiesced, hc, State.run, hrs]
  refine if_pos ?_
  simp only [hf, hs, Bool.true_and, List.any_eq_true]
  exact hdur

/-- Settles O29: the checks in their order, and the rows of a quiesced part. -/
theorem ioCommandsCheckInOrder : Obligations.IoCommandsCheckInOrder := by
  unfold Obligations.IoCommandsCheckInOrder
  refine ⟨fun s u q h x hx hq => ?_, fun s u q h hq => ⟨if_pos hq, fun hc => ?_, fun c hc => ⟨fun hn => ?_, fun hd hf hs => ?_⟩⟩⟩
  · obtain ⟨f, hrow⟩ := exec_ioRow s u q h x hx hq
    exact ⟨fun hc => settles_of_ioRun hrow (State.ioRun_none hc), fun c0 hc =>
      ⟨fun hok => settles_of_ioRun hrow (State.ioRun_fields hc hok), fun hok hw => settles_of_ioRun hrow (State.ioRun_noVolume hc hok hw),
        fun w a b hok hw hr => settles_of_ioRun hrow (State.ioRun_report (c0 := c0) hc hok hw hr),
        fun w hok hw hr he hk => settles_of_ioRun hrow (State.ioRun_keyless hc hok hw hr he hk)⟩⟩
  · exact settles_of_ioRun (if_pos hq) (by simp only [State.writeQuiesced, hc, State.run])
  · exact settles_of_ioRun (if_pos hq) (State.writeQuiesced_stays hc hn)
  · exact settles_of_ioRun (if_pos hq) (State.writeQuiesced_fails hc hd hf hs)

/-! ### Write Records -/

/-- A volume seals what command `c` gives it: it is not encrypted, or it has a key that no earlier command clears. -/
theorem Volume.noKey_iff (w : Volume) (c : Cmd) :
    w.noKey c = false ↔ (w.encrypt = false ∨ (w.key ≠ none ∧ ∀ d, w.clearing = some d → c.id ≤ d)) := by
  cases he : w.encrypt <;> cases hk : w.key <;> cases hcl : w.clearing <;> simp [Volume.noKey, he, hk, hcl]

/-- What a list whose records are known does. -/
def State.writeRecs (s : State) (c : Cmd) (w : Volume) (rs : List Bytes) : State :=
  if rs.any recDurable && !c.sachet then s.failNotReady c rdSACHET
  else if ringSize < ringNeed rs then s.fail c Status.invalidField
  else if s.cartFull w.transport c.entry.len then s.failFull c w.transport
  else (s.writeList c w rs).getD s

/-- A Write Records that passed the shared checks. -/
theorem writeRecords_row {s e : State} {u q : Nat} {h : HostData} {c0 : Cmd} {w : Volume} (hc : s.ioCmd u q 0x81 = some c0) (hq : s.dev.quiesced = 0)
    (hok : Cmd.writeOk { c0 with data := h } = true) (hw : s.ownVol { c0 with data := h } = some w) (hr : w.report = none)
    (hk : w.encrypt = false ∨ w.kcv ≠ 0)
    (he : (if w.noKey { c0 with data := h } then s.fail { c0 with data := h } Status.keyNotLoaded
      else match parseRecords (fld c0.entry.w4 12 0) (hostBytes c0.entry h) with
        | none => s.fail { c0 with data := h } Status.invalidField
        | some rs => s.writeRecs { c0 with data := h } w rs) = e) : Safety.Settles (.writeRecords u q h) s e := by
  subst he
  exact settles_of_ioRun (if_neg (not_not.2 hq)) (State.ioRun_passes hc hok hw hr hk)

theorem List.any_recDurable_iff (rs : List Bytes) (ready : Bool) :
    ¬ (rs.any recDurable && !ready) = true ↔ ((∀ r ∈ rs, recDurable r = false) ∨ ready = true) := by
  cases ready <;> simp

/-- The list waits behind a replay or a gap entry, for ring space, or for room. -/
theorem State.writeList_waits {s : State} {c : Cmd} {w : Volume} {rs : List Bytes}
    (h : (w.replay ≠ [] ∨ w.gapWait ≠ [] ∨ ringSize < s.sachet.ringUsed + s.ringClaims c + ringNeed (s.kept c rs)) ∨ s.putList c w rs = none) :
    s.writeList c w rs = none := by
  by_cases hb : (!w.replay.isEmpty || !w.gapWait.isEmpty || decide (ringSize < s.sachet.ringUsed + s.ringClaims c + ringNeed (s.kept c rs))) = true
  · exact if_pos hb
  · refine (if_neg hb).trans ?_
    have hput := h.resolve_left fun h => hb (by rcases h with h | h | h <;> simp [h])
    rw [hput]; rfl

/-- Otherwise its records stand in the buffer where the gap entries they close are placed. -/
theorem State.writeList_puts {s z : State} {c : Cmd} {w : Volume} {rs : List Bytes}
    (h : ¬ (w.replay ≠ [] ∨ w.gapWait ≠ [] ∨ ringSize < s.sachet.ringUsed + s.ringClaims c + ringNeed (s.kept c rs))) (hz : s.putList c w rs = some z) :
    s.writeList c w rs = if z.gapsPlaced c.entry.vol then
      some (z.succeed c (mkw [(0, w.nextSeq % 2 ^ 48), (48, rs.length - (s.kept c rs).length), (61, s.pruneLevel c)])) else none := by
  have hb : ¬ (!w.replay.isEmpty || !w.gapWait.isEmpty ||
      decide (ringSize < s.sachet.ringUsed + s.ringClaims c + ringNeed (s.kept c rs))) = true := by
    simpa only [Bool.or_eq_true, decide_eq_true_eq, Bool.not_eq_true', List.isEmpty_eq_false_iff, or_assoc] using h
  refine (if_neg hb).trans ?_
  rw [hz]; rfl

/-- Settles O30: the list by its key, its records, its Durable records, the ring and the cartridge, then the room it finds. -/
theorem writeRecordsAdmitsWholeLists : Obligations.WriteRecordsAdmitsWholeLists := by
  unfold Obligations.WriteRecordsAdmitsWholeLists
  intro s u q h c0 w hc hq c n sealable hok hw hr hk
  have hseal : sealable → ¬ w.noKey c = true := fun hs => by simp [(w.noKey_iff c).2 hs]
  refine ⟨fun hs => ?_, fun hs hp => ?_, fun rs hs hp => ?_⟩
  · refine writeRecords_row hc hq hok hw hr hk (if_pos ?_)
    exact Bool.not_eq_false _ ▸ mt (w.noKey_iff c).1 hs
  · refine writeRecords_row hc hq hok hw hr hk ((if_neg (hseal hs)).trans ?_)
    have hp' : parseRecords (fld c0.entry.w4 12 0) (hostBytes c0.entry h) = none := hp
    rw [hp']; rfl
  · have hrow : ∀ e, s.writeRecs c w rs = e → Safety.Settles (.writeRecords u q h) s e := fun e he => by
      refine writeRecords_row hc hq hok hw hr hk ((if_neg (hseal hs)).trans ?_)
      have hp' : parseRecords (fld c0.entry.w4 12 0) (hostBytes c0.entry h) = some rs := hp
      rw [hp']
      exact he
    refine ⟨fun hd => hrow _ (if_pos (not_not.1 (mt (List.any_recDurable_iff rs c.sachet).1 hd))), fun hd hn => hrow _ ?_, fun hd hn hf => hrow _ ?_,
      fun hd hn hf => ⟨fun hb => hrow _ ?_, fun z hb hz => ⟨fun hg => hrow _ ?_, fun hg => hrow _ ?_⟩⟩⟩
    · exact (if_neg ((List.any_recDurable_iff rs c.sachet).2 hd)).trans (if_pos hn)
    · exact (if_neg ((List.any_recDurable_iff rs c.sachet).2 hd)).trans ((if_neg (Nat.not_lt.2 hn)).trans (if_pos hf))
    all_goals
      refine (if_neg ((List.any_recDurable_iff rs c.sachet).2 hd)).trans ((if_neg (Nat.not_lt.2 hn)).trans ((if_neg (by simp [hf])).trans ?_))
    · rw [State.writeList_waits hb]; rfl
    · rw [State.writeList_puts hb hz, if_neg (by simp [hg])]; rfl
    · rw [State.writeList_puts hb hz, if_pos hg]; rfl

end Sys2Proof.Machine

end

section

/-! PROOF. O32: marks and flushes. -/

namespace Sys2Proof.Machine

/-! ### The words of a mark -/

theorem leNat_leBytes (k : Nat) : ∀ n, leNat (leBytes k n) = n % 256 ^ k := by
  induction k with
  | zero => intro n; simp [leBytes, leNat, Nat.mod_one]
  | succ k ih =>
    intro n
    rw [leBytes, leNat, ih, BitVec.toNat_ofNat]
    exact (Nat.mod_mul (x := n) (a := 256) (b := 256 ^ k)).symm.trans (congrArg (n % ·) (pow_succ' 256 k).symm)

theorem leBytes_length (k : Nat) : ∀ n, (leBytes k n).length = k := by
  induction k with
  | zero => intro n; rfl
  | succ k ih => intro n; rw [leBytes, List.length_cons, ih]

/-- The first word of words stored as bytes. -/
theorem wordAt_wordsBytes_cons (w : Word) (ws : List Word) : wordAt (wordsBytes (w :: ws)) 0 = w := by
  have hlen : (wordBytes w).length = 8 := leBytes_length 8 _
  have hval : leNat (wordBytes w) = w.toNat := by
    rw [wordBytes, leNat_leBytes]
    exact Nat.mod_eq_of_lt w.isLt
  rw [wordsBytes, List.flatMap_cons, wordAt, slice_eq_take _ _ _ (by rw [List.length_append]; omega), List.drop_zero, List.take_left' hlen, hval,
    BitVec.ofNat_toNat, BitVec.setWidth_eq]

/-- Word 0 of a mark. -/
theorem markWord_eq (e : SubEntry) : wordAt (markBytes e) 0 = BitVec.ofNat 64 (fld e.w4 15 0 * 2 ^ 32 + 2 ^ 51) := by
  rw [markBytes, wordAt_wordsBytes_cons, mkw_eq_ofNat_sum]
  simp

/-- A mark: LENGTH 0, MARK 1, CLASS 0, and nothing after its header. -/
theorem markBytes_fields (e : SubEntry) :
    fld (wordAt (markBytes e) 0) 31 0 = 0 ∧ bit (wordAt (markBytes e) 0) 51 = true ∧ fld (wordAt (markBytes e) 0) 49 48 = 0 ∧ (markBytes e).length = 32 := by
  have htag : fld e.w4 15 0 < 65536 := fld_lt e.w4 15 0
  generalize hx : fld e.w4 15 0 = x at htag
  have hw : wordAt (markBytes e) 0 = BitVec.ofNat 64 (x * 2 ^ 32 + 2 ^ 51) := hx ▸ markWord_eq e
  have hn : (BitVec.ofNat 64 (x * 2 ^ 32 + 2 ^ 51)).toNat = x * 2 ^ 32 + 2 ^ 51 := by
    rw [BitVec.toNat_ofNat]; omega
  refine ⟨?_, ?_, ?_, by simp [markBytes, wordsBytes, wordBytes, leBytes_length]⟩
  · rw [hw, fld, hn, Nat.shiftRight_zero]; omega
  · rw [hw]
    exact bit_ofNat_of_split (lo := x * 2 ^ 32) (hi := 0) (by decide) (by omega) (by change _ = 2 ^ 51 * (1 + 2 * 0) + _; omega)
  · rw [hw, fld, hn, Nat.shiftRight_eq_div_pow]; omega

/-! ### Write Mark and Flush -/

/-- A mark that the cartridge has room for. -/
def State.placeMark (s : State) (c : Cmd) (w : Volume) : State :=
  let s1 := s.closeGap c.entry.vol (recTag (markBytes c.entry))
  match s1.roomFor c.entry.vol 32 with
  | none => s
  | some s2 =>
    let s3 := ((s2.offer w.transport 32).takeRecord c w.transport (markBytes c.entry)).admitted c
    if s1.gapsPlaced c.entry.vol && s3.gapsPlaced c.entry.vol then s3.succeed c (mkw [(0, w.nextSeq % 2 ^ 48)]) else s

section Marks

variable {s e : State} {u q : Nat} {c0 : Cmd} {w : Volume}

/-- A Write Mark that passed the shared checks. -/
theorem writeMark_row (hc : s.ioCmd u q 0x84 = some c0) (hq : s.dev.quiesced = 0) (hok : Cmd.markOk { c0 with data := ⟨[], []⟩ } = true)
    (hw : s.ownVol { c0 with data := ⟨[], []⟩ } = some w) (hr : w.report = none) (hk : w.encrypt = false ∨ w.kcv ≠ 0)
    (he : (if s.cartFull w.transport 0 then s.failFull { c0 with data := ⟨[], []⟩ } w.transport
      else if !w.replay.isEmpty || !w.gapWait.isEmpty then s else s.placeMark { c0 with data := ⟨[], []⟩ } w) = e) :
    Safety.Settles (.writeMark u q) s e := by
  subst he
  exact settles_of_ioRun (if_neg (not_not.2 hq)) (State.ioRun_passes hc hok hw hr hk)

/-- With room on the cartridge and nothing before it the mark is placed. -/
theorem writeMark_places (hc : s.ioCmd u q 0x84 = some c0) (hq : s.dev.quiesced = 0) (hok : Cmd.markOk { c0 with data := ⟨[], []⟩ } = true)
    (hw : s.ownVol { c0 with data := ⟨[], []⟩ } = some w) (hr : w.report = none) (hk : w.encrypt = false ∨ w.kcv ≠ 0)
    (hf : s.cartFull w.transport 0 = false) (hrep : w.replay = []) (hgap : w.gapWait = [])
    (he : s.placeMark { c0 with data := ⟨[], []⟩ } w = e) : Safety.Settles (.writeMark u q) s e :=
  writeMark_row hc hq hok hw hr hk ((if_neg (by simp [hf])).trans ((if_neg (by simp [hrep, hgap])).trans he))

/-- What a Flush sends on: the block it cuts, and the chain entries of a stream that stands in datasets. -/
def State.flushed (s : State) (h : Nat) : State :=
  let s0 := s.cut h 2
  if ((s0.vol? h).map Volume.allPlaced).getD false = true then s0.flushChain h else s0

theorem flush_cutOnly (hc : s.ioCmd u q 0x85 = some c0) (hok : Cmd.flushOk { c0 with data := ⟨[], []⟩ } = true)
    (hw : s.ownVol { c0 with data := ⟨[], []⟩ } = some w) (hr : w.report = none) (hk : w.encrypt = false ∨ w.kcv ≠ 0)
    (hb : bit c0.entry.w4 0 = true) :
    Safety.Settles (.flush u q) s ((s.cut c0.entry.vol 2).succeed { c0 with data := ⟨[], []⟩ } (mkw [(0, w.verified % 2 ^ 48)])) := by
  refine settles_of_ioRun rfl ((State.ioRun_passes hc hok hw hr hk).trans ?_)
  simp only [hb, Bool.not_true, Bool.and_false, Bool.false_eq_true, if_false, if_true]

/-- A Flush that waits, unless its transport is out of service. -/
theorem flush_row (hc : s.ioCmd u q 0x85 = some c0) (hok : Cmd.flushOk { c0 with data := ⟨[], []⟩ } = true)
    (hw : s.ownVol { c0 with data := ⟨[], []⟩ } = some w) (hr : w.report = none) (hk : w.encrypt = false ∨ w.kcv ≠ 0)
    (hb : bit c0.entry.w4 0 = false)
    (he : (let s1 := s.flushed c0.entry.vol
      if (s1.mot w.transport).state == .outOfService && w.verified < c0.seqAt then
        s1.complete { c0 with data := ⟨[], []⟩ } Status.transportOutOfService
          { result := mkw [(0, w.verified % 2 ^ 48)], detail := BitVec.ofNat 64 w.transport }
      else s1.setStage c0.id (.flushing c0.seqAt)) = e) : Safety.Settles (.flush u q) s e := by
  subst he
  refine settles_of_ioRun rfl ((State.ioRun_passes hc hok hw hr hk).trans ?_)
  simp only [hb, Bool.not_false, Bool.and_true, Bool.false_eq_true, if_false, State.flushed]
  rfl

end Marks

/-- Settles O32: the mark by the cartridge and the room, the Flush by CUT_ONLY and the transport's state. -/
theorem marksAndFlushes : Obligations.MarksAndFlushes := by
  unfold Obligations.MarksAndFlushes
  intro s u q c0 w c h t r hw hr hk
  refine ⟨fun hc hq hok => ⟨markBytes_fields c0.entry, fun hf => ?_, fun hf hwait => ?_, fun hf hrep hgap => ⟨fun hroom => ?_, fun s2 hroom => ⟨fun h1 h3 => ?_, fun hg => ?_⟩⟩⟩,
    fun hc hok => ⟨fun hb => flush_cutOnly (c0 := c0) hc hok hw hr hk hb, fun hb hst hlt => ?_, fun hb hst => ?_⟩⟩
  · exact writeMark_row hc hq hok hw hr hk (if_pos hf)
  · exact writeMark_row hc hq hok hw hr hk ((if_neg (by simp [t, hf])).trans (if_pos (by rcases hwait with h | h <;> simp [h])))
  · refine writeMark_places hc hq hok hw hr hk hf hrep hgap ?_
    simp only [State.placeMark, show (s.closeGap c0.entry.vol (recTag (markBytes c0.entry))).roomFor c0.entry.vol 32 = none from hroom]
  · refine writeMark_places hc hq hok hw hr hk hf hrep hgap ?_
    simp only [State.placeMark, show (s.closeGap c0.entry.vol (recTag (markBytes c0.entry))).roomFor c0.entry.vol 32 = some s2 from hroom]
    exact if_pos (by rw [Bool.and_eq_true]; exact ⟨h1, h3⟩)
  · refine writeMark_places hc hq hok hw hr hk hf hrep hgap ?_
    simp only [State.placeMark, show (s.closeGap c0.entry.vol (recTag (markBytes c0.entry))).roomFor c0.entry.vol 32 = some s2 from hroom]
    refine if_neg fun hb => ?_
    obtain ⟨h1, h3⟩ := Bool.and_eq_true_iff.1 hb
    rcases hg with hg | hg
    · exact absurd (hg.symm.trans h1) (by decide)
    · exact absurd (hg.symm.trans h3) (by decide)
  · exact flush_row hc hok hw hr hk hb (if_pos (by rw [Bool.and_eq_true, beq_iff_eq, decide_eq_true_eq]; exact ⟨hst, hlt⟩))
  · refine flush_row hc hok hw hr hk hb (if_neg fun hb' => ?_)
    rw [Bool.and_eq_true, beq_iff_eq, decide_eq_true_eq] at hb'
    exact hst.elim (fun h => h hb'.1) fun h => absurd hb'.2 (Nat.not_lt.2 h)

end Sys2Proof.Machine

end

section

/-! PROOF. O33 and O34: reads and verifies of a range, Locate and Read Position. -/

namespace Sys2Proof.Machine

section Reads

variable {s e : State} {u q : Nat} {h : HostData} {c0 : Cmd} {w : Volume}

/-! ### Read Records -/

/-- What a read of numbers still held and replayed does. -/
def State.readHeld (s : State) (c : Cmd) (w : Volume) : State :=
  if (w.asked c.entry).any fun k => w.replay.any fun r => r.1 == k then s
  else match s.lostIn w c.entry with
    | some k => s.failRead c w.transport { status := Status.recordsLost, seq := k, off := 0 }
    | none =>
      if (c.pinNow w).holds (w.range c.entry.w4.toNat (fld c.entry.w5 12 0) (bit c.entry.w5 16)) then
        s.deliverRead c w (c.pinNow w).pinned w.gapAfter (c.pinNow w).pins.length false
      else s.queueRead (c.pinNow w) w

/-- A Read Records that passed the shared checks. -/
theorem readRecords_row (hc : s.ioCmd u q 0x82 = some c0) (hok : Cmd.readOk { c0 with data := h } = true)
    (hw : s.ownVol { c0 with data := h } = some w) (hr : w.report = none) (hk : w.encrypt = false ∨ w.kcv ≠ 0)
    (he : (if w.noKey c0 then s.fail { c0 with data := h } Status.keyNotLoaded
      else if c0.entry.w4.toNat = 0 || w.nextSeq ≤ c0.entry.w4.toNat then s.fail { c0 with data := h } Status.invalidField
      else match s.givenUp w c0.entry.w4.toNat with
        | some m => s.complete { c0 with data := h } Status.invalidField { result := mkw [(0, m % 2 ^ 48)] }
        | none => s.readHeld { c0 with data := h } w) = e) : Safety.Settles (.readRecords u q h) s e := by
  subst he
  exact settles_of_ioRun rfl (State.ioRun_passes hc hok hw hr hk)

/-- A Read Records of numbers assigned, of a volume with its key. -/
theorem readRecords_inRange (hc : s.ioCmd u q 0x82 = some c0) (hok : Cmd.readOk { c0 with data := h } = true)
    (hw : s.ownVol { c0 with data := h } = some w) (hr : w.report = none) (hk : w.encrypt = false ∨ w.kcv ≠ 0) (hs : ¬ w.noKey c0 = true)
    (hlo : 0 < c0.entry.w4.toNat) (hhi : c0.entry.w4.toNat < w.nextSeq)
    (he : (match s.givenUp w c0.entry.w4.toNat with
      | some m => s.complete { c0 with data := h } Status.invalidField { result := mkw [(0, m % 2 ^ 48)] }
      | none => s.readHeld { c0 with data := h } w) = e) : Safety.Settles (.readRecords u q h) s e :=
  readRecords_row hc hok hw hr hk ((if_neg hs).trans ((if_neg (by simp [Nat.pos_iff_ne_zero.1 hlo, hhi])).trans he))

/-- A Read Records of numbers none of which is given up. -/
theorem readRecords_held (hc : s.ioCmd u q 0x82 = some c0) (hok : Cmd.readOk { c0 with data := h } = true)
    (hw : s.ownVol { c0 with data := h } = some w) (hr : w.report = none) (hk : w.encrypt = false ∨ w.kcv ≠ 0) (hs : ¬ w.noKey c0 = true)
    (hlo : 0 < c0.entry.w4.toNat) (hhi : c0.entry.w4.toNat < w.nextSeq) (hg : s.givenUp w c0.entry.w4.toNat = none)
    (he : s.readHeld { c0 with data := h } w = e) : Safety.Settles (.readRecords u q h) s e := by
  refine readRecords_inRange hc hok hw hr hk hs hlo hhi ?_
  rw [hg]
  exact he

/-! ### Verify Range -/

/-- The range of a Verify Range cannot be had. -/
def State.rangeBad (s : State) (w : Volume) (e : SubEntry) : Prop :=
  e.w4.toNat = 0 ∨ e.w5.toNat < e.w4.toNat ∨ w.nextSeq ≤ e.w5.toNat ∨ 4096 < e.w5.toNat + 1 - e.w4.toNat ∨ 1073741824 < s.rangeBytes w (w.asked e)

theorem State.rangeBad_iff (s : State) (w : Volume) (e : SubEntry) :
    (decide (e.w4.toNat = 0) || decide (e.w5.toNat < e.w4.toNat) || decide (w.nextSeq ≤ e.w5.toNat) || decide (4096 < e.w5.toNat + 1 - e.w4.toNat) ||
      decide (1073741824 < s.rangeBytes w (w.asked e))) = true ↔ s.rangeBad w e := by
  simp only [Bool.or_eq_true, decide_eq_true_eq, State.rangeBad, or_assoc]

/-- A Verify Range that passed the shared checks. -/
theorem verifyRange_row (hc : s.ioCmd u q 0x87 = some c0) (hok : Cmd.verifyOk { c0 with data := ⟨[], []⟩ } = true)
    (hw : s.ownVol { c0 with data := ⟨[], []⟩ } = some w) (hr : w.report = none) (hk : w.encrypt = false ∨ w.kcv ≠ 0)
    (he : (let c : Cmd := { c0 with data := ⟨[], []⟩ }
      let ks := w.asked c0.entry
      if w.noKey c0 then s.fail c Status.keyNotLoaded
      else if decide (c0.entry.w4.toNat = 0) || decide (c0.entry.w5.toNat < c0.entry.w4.toNat) || decide (w.nextSeq ≤ c0.entry.w5.toNat) ||
        decide (4096 < c0.entry.w5.toNat + 1 - c0.entry.w4.toNat) || decide (1073741824 < s.rangeBytes w ks) then s.fail c Status.invalidField
      else if ks.any fun k => w.replay.any fun r => r.1 == k then s
      else if (c.pinNow w).holds ks && (s.lostIn w c0.entry).isNone then s.succeed c (mkw [(0, ks.length)])
      else s.queueRead (c.pinNow w) w) = e) : Safety.Settles (.verifyRange u q) s e := by
  subst he
  exact settles_of_ioRun rfl (State.ioRun_passes hc hok hw hr hk)

/-! ### A read that waits for the tape -/

theorem State.queueRead_sets (c : Cmd) (hn : s.needSets w (w.wanted c) ≠ []) :
    s.queueRead c w = if (s.mot w.transport).state == .outOfService then
        s.complete c Status.transportOutOfService { detail := BitVec.ofNat 64 w.transport }
      else s.modArb fun a => { a with cmds := a.cmds.map fun x =>
        if x.id == c.id then { x with data := ⟨[], []⟩, pins := c.pins, stage := .reading false } else x } :=
  if_neg (by simp [hn])

end Reads

/-- Settles O33: each command by its key and its range, then by what is held, lost or still to be replayed. -/
theorem readsAndVerifiesOfARange : Obligations.ReadsAndVerifiesOfARange := by
  unfold Obligations.ReadsAndVerifiesOfARange
  intro s u q h c0 w sealable
  have hkey : ∀ {c : Cmd}, c.id = c0.id → (¬ sealable → w.noKey c = true) ∧ (sealable → ¬ w.noKey c = true) := fun {c} hid => by
    have hiff := w.noKey_iff c
    rw [hid] at hiff
    exact ⟨fun hs => by simpa using mt hiff.1 hs, fun hs => by simp [hiff.2 hs]⟩
  refine ⟨fun hc hok hw hr hk => ⟨fun hs => ?_, fun hs hbad => ?_, fun hs hlo hhi =>
      ⟨fun m hg => ?_, fun hg hrep => ?_, fun k hg hrep hl => ?_, fun hg hrep hl hh => ?_, fun hg hrep hl hh => ?_⟩⟩,
    fun hc hok hw hr hk => ⟨fun hs => ?_, fun hs hbad => ?_, fun hs hbad => ⟨fun hrep => ?_, fun hrep hh => ?_, fun hrep hh => ?_⟩⟩,
    fun c => ⟨fun hn ho => ?_, fun hn ho => ?_, fun hn => ⟨_, if_pos (List.isEmpty_iff.2 hn)⟩⟩⟩
  · exact readRecords_row hc hok hw hr hk (if_pos ((hkey rfl).1 hs))
  · refine readRecords_row hc hok hw hr hk ((if_neg ((hkey rfl).2 hs)).trans (if_pos ?_))
    rwa [Bool.or_eq_true, decide_eq_true_eq, decide_eq_true_eq]
  · refine readRecords_inRange hc hok hw hr hk ((hkey rfl).2 hs) hlo hhi ?_
    have hg' : s.givenUp w c0.entry.w4.toNat = some m := hg
    rw [hg']; rfl
  · exact readRecords_held hc hok hw hr hk ((hkey rfl).2 hs) hlo hhi hg (if_pos hrep)
  · refine readRecords_held hc hok hw hr hk ((hkey rfl).2 hs) hlo hhi hg ((if_neg (Bool.eq_false_iff.1 hrep)).trans ?_)
    have hl' : s.lostIn w c0.entry = some k := hl
    rw [hl']; rfl
  · refine readRecords_held hc hok hw hr hk ((hkey rfl).2 hs) hlo hhi hg ((if_neg (Bool.eq_false_iff.1 hrep)).trans ?_)
    have hl' : s.lostIn w c0.entry = none := hl
    rw [hl']
    exact if_pos hh
  · refine readRecords_held hc hok hw hr hk ((hkey rfl).2 hs) hlo hhi hg ((if_neg (Bool.eq_false_iff.1 hrep)).trans ?_)
    have hl' : s.lostIn w c0.entry = none := hl
    rw [hl']
    exact if_neg (Bool.eq_false_iff.1 hh)
  · exact verifyRange_row hc hok hw hr hk (if_pos ((hkey rfl).1 hs))
  · exact verifyRange_row hc hok hw hr hk ((if_neg ((hkey rfl).2 hs)).trans (if_pos ((s.rangeBad_iff w c0.entry).2 hbad)))
  · exact verifyRange_row hc hok hw hr hk ((if_neg ((hkey rfl).2 hs)).trans ((if_neg (mt (s.rangeBad_iff w c0.entry).1 hbad)).trans (if_pos hrep)))
  · refine verifyRange_row hc hok hw hr hk ((if_neg ((hkey rfl).2 hs)).trans ((if_neg (mt (s.rangeBad_iff w c0.entry).1 hbad)).trans
      ((if_neg (Bool.eq_false_iff.1 hrep)).trans (if_pos ?_))))
    rw [Bool.and_eq_true, Option.isNone_iff_eq_none]
    exact hh
  · refine verifyRange_row hc hok hw hr hk ((if_neg ((hkey rfl).2 hs)).trans ((if_neg (mt (s.rangeBad_iff w c0.entry).1 hbad)).trans
      ((if_neg (Bool.eq_false_iff.1 hrep)).trans (if_neg ?_))))
    rw [Bool.and_eq_true, Option.isNone_iff_eq_none]
    exact hh
  · exact (State.queueRead_sets c hn).trans (if_pos (beq_iff_eq.2 ho))
  · refine (State.queueRead_sets c hn).trans ((if_neg (mt beq_iff_eq.1 ho)).trans ?_)
    simp only [beq_iff_eq]
    rfl

/-! ### Locate and Read Position -/

/-- A Locate whose record is not there. -/
def Volume.noRecord (w : Volume) (e : SubEntry) : Prop := fld e.w4 1 0 = 0 ∧ (e.w5 = 0 ∨ w.nextSeq ≤ w.locateSeq e)
/-- A Locate whose mark is not there. -/
def Volume.noMark (w : Volume) (e : SubEntry) : Prop := fld e.w4 1 0 = 1 ∧ (e.w5 = 0 ∨ w.markSeqs.length < e.w5.toNat)

theorem Volume.noRecord_iff (w : Volume) (e : SubEntry) :
    (decide (fld e.w4 1 0 = 0) && (e.w5 == 0 || decide (w.nextSeq ≤ w.locateSeq e))) = true ↔ w.noRecord e := by
  simp [Volume.noRecord]
theorem Volume.noMark_iff (w : Volume) (e : SubEntry) :
    (decide (fld e.w4 1 0 = 1) && (e.w5 == 0 || decide (w.markSeqs.length < e.w5.toNat))) = true ↔ w.noMark e := by
  simp [Volume.noMark]

section Locates

variable {s e : State} {u q : Nat} {c0 : Cmd} {w : Volume}

/-- A Locate that passed the shared checks. -/
theorem locate_row (hc : s.ioCmd u q 0x83 = some c0) (hok : Cmd.locateOk { c0 with data := ⟨[], []⟩ } = true)
    (hw : s.ownVol { c0 with data := ⟨[], []⟩ } = some w) (hr : w.report = none) (hk : w.encrypt = false ∨ w.kcv ≠ 0)
    (he : (let c : Cmd := { c0 with data := ⟨[], []⟩ }
      let t := w.transport
      let k := w.locateSeq c0.entry
      if decide (fld c0.entry.w4 1 0 = 0) && (c0.entry.w5 == 0 || decide (w.nextSeq ≤ k)) then s.fail c Status.invalidField
      else if decide (fld c0.entry.w4 1 0 = 1) && (c0.entry.w5 == 0 || decide (w.markSeqs.length < c0.entry.w5.toNat)) then
        s.complete c Status.invalidField { result := mkw [(0, w.marks % 2 ^ 48)] }
      else if s.pendingOf t != 0 || decide (0 < s.inflow t) then (s.setVol c0.entry.vol { w with hint := some k }).succeed c (mkw [(0, k % 2 ^ 48), (48, 1)])
      else if (s.mot t).state == .outOfService then s.complete c Status.transportOutOfService { detail := BitVec.ofNat 64 t }
      else s.setStage c.id (.reading false)) = e) : Safety.Settles (.locate u q) s e := by
  subst he
  exact settles_of_ioRun rfl (State.ioRun_passes hc hok hw hr hk)

end Locates

/-- Settles O34: the Locate by what it names and what its transport does, Read Position by its eight words. -/
theorem locateHintsOrMovesAndPositionAnswers : Obligations.LocateHintsOrMovesAndPositionAnswers := by
  unfold Obligations.LocateHintsOrMovesAndPositionAnswers
  intro s u q h c0 w
  refine ⟨fun hc hok hw hr hk => ⟨fun hn => ?_, fun hn hm => ?_, fun hn hm => ⟨fun hp => ?_, fun hp hi ho => ?_, fun hp hi ho => ?_⟩⟩,
    fun hc hok hw hr hk => ⟨?_, ?_⟩⟩
  · exact locate_row hc hok hw hr hk (if_pos ((w.noRecord_iff c0.entry).2 hn))
  · exact locate_row hc hok hw hr hk ((if_neg (mt (w.noRecord_iff c0.entry).1 hn)).trans (if_pos ((w.noMark_iff c0.entry).2 hm)))
  · exact locate_row hc hok hw hr hk ((if_neg (mt (w.noRecord_iff c0.entry).1 hn)).trans ((if_neg (mt (w.noMark_iff c0.entry).1 hm)).trans
      (if_pos (by rcases hp with hp | hp <;> simp [hp]))))
  · exact locate_row hc hok hw hr hk ((if_neg (mt (w.noRecord_iff c0.entry).1 hn)).trans ((if_neg (mt (w.noMark_iff c0.entry).1 hm)).trans
      ((if_neg (by simp [hp, hi])).trans (if_pos (beq_iff_eq.2 ho)))))
  · exact locate_row hc hok hw hr hk ((if_neg (mt (w.noRecord_iff c0.entry).1 hn)).trans ((if_neg (mt (w.noMark_iff c0.entry).1 hm)).trans
      ((if_neg (by simp [hp, hi])).trans (if_neg (mt beq_iff_eq.1 ho)))))
  · simp [wordsBytes, wordBytes, leBytes_length]
  · exact settles_of_ioRun rfl (State.ioRun_passes hc hok hw hr hk)

end Sys2Proof.Machine

end

section

/-! PROOF. O35 and O36: Transport Control. -/

namespace Sys2Proof.Machine

/-! ### The shared run of a Transport Control -/

section TcRun

variable {i : Instr} {s e : State} {action : Nat} {allowed : State → Nat → Bool} {f : State → Cmd → Nat → State} {c : Cmd}

theorem tc_refused (hrow : exec i s = commit s (s.tcRun action allowed f)) (hc : s.serviceCmd 0x20 action = some c)
    (h : (c.tcOk && allowed s c.unit) = false) : Safety.Settles i s (s.fail c Status.invalidField) := by
  refine hrow.trans (congrArg (commit s) ?_)
  simp only [State.tcRun, hc, State.run, h, Bool.false_eq_true, if_false]

theorem tc_runs (hrow : exec i s = commit s (s.tcRun action allowed f)) (hc : s.serviceCmd 0x20 action = some c)
    (hok : c.tcOk = true) (ha : allowed s c.unit = true) (he : f s c c.unit = e) : Safety.Settles i s e := by
  subst he
  refine hrow.trans (congrArg (commit s) ?_)
  simp only [State.tcRun, hc, State.run, hok, ha, Bool.and_self, if_true]

end TcRun

theorem Cmd.tcOk_iff (c : Cmd) : c.tcOk = true ↔ (c.entry.headOk false false = true ∧ c.entry.noData = true ∧ fld c.entry.w4 63 16 = 0 ∧
    c.entry.w5 = 0 ∧ c.entry.w6 = 0 ∧ c.entry.w7 = 0 ∧ c.unit < 8) := by
  simp [Cmd.tcOk, zeros, and_assoc]

theorem TState.usable_eq (st : TState) :
    st.usable = (st == .relaxed || st == .parked || st == .streaming || st == .locating || st == .stopping) := by
  cases st <;> rfl

theorem TState.unloadable_eq (st : TState) :
    st.unloadable = (st == .relaxed || st == .parked || st == .streaming || st == .locating || st == .outOfService) := by
  cases st <;> rfl

/-- The states in which a transport does not move. -/
theorem TState.rests_cases (st : TState) (h : st.moving = false) :
    st = .absent ∨ st = .unloaded ∨ st = .relaxed ∨ st = .parked ∨ st = .outOfService := by
  cases st with
  | absent | unloaded | relaxed | parked | outOfService => simp
  | loading | streaming | locating | stopping | unloading => exact absurd h (by decide)

/-- The actions of Transport Control, with the code of each and the states that allow it (Table 15-5). -/
def tcRows (s : State) (t : Nat) (env : LoadEnv) (oenv : Option LoadEnv) (dir : DirRead) (ok : Bool) (disc : Discards) : List (Instr × Nat × Bool) :=
  let st := (s.mot t).state
  [(.tcQuery, 0, true), (.tcLoad env, 1, st == .unloaded && (s.mot t).cartPresent && !(s.tp t).ld.resetting),
    (.tcUnload ⟨dir, ok⟩, 2, st == .relaxed || st == .parked || st == .streaming || st == .locating || st == .outOfService),
    (.tcPark, 3, st == .relaxed), (.tcRelax, 4, st == .parked),
    (.tcOutOfService, 5, st == .relaxed || st == .parked || st == .streaming || st == .locating || st == .stopping),
    (.tcReturnToService, 6, st == .outOfService && (s.mot t).oosCause == 1), (.tcReset ⟨oenv, disc⟩, 7, st != .absent), (.tcEmergencyStop, 8, st != .absent),
    (.tcDiscardPending, 9, st == .outOfService), (.tcReplacedMechanism, 10, st == .unloaded)]

/-- Every row of a Transport Control is the shared run under the states that allow its action. -/
theorem exec_tcRow (s : State) (t : Nat) (env : LoadEnv) (oenv : Option LoadEnv) (dir : DirRead) (ok : Bool) (disc : Discards) :
    ∀ x ∈ tcRows s t env oenv dir ok disc, ∃ allowed f, exec x.1 s = commit s (s.tcRun x.2.1 allowed f) ∧ allowed s t = x.2.2 := by
  simp only [tcRows, List.forall_mem_cons]
  exact ⟨⟨_, _, rfl, rfl⟩, ⟨_, _, rfl, rfl⟩, ⟨_, _, rfl, TState.unloadable_eq _⟩, ⟨_, _, rfl, rfl⟩, ⟨_, _, rfl, rfl⟩, ⟨_, _, rfl, TState.usable_eq _⟩,
    ⟨_, _, rfl, rfl⟩, ⟨_, _, rfl, rfl⟩, ⟨_, _, rfl, rfl⟩, ⟨_, _, rfl, rfl⟩, ⟨_, _, rfl, rfl⟩, nofun⟩

/-! ### The actions that end at once -/

theorem State.discardVol_eq (s : State) (v : Nat) : s.discardVol v = (s.loseRecords v 3 true fun _ => true).modVol v fun w => w.dropStream := rfl

/-- A checkpoint of the life counters changes no start/stop count. -/
theorem State.lifeCkpt_ss (s : State) : s.lifeCkpt.sachet.ss = s.sachet.ss := by
  simp only [State.lifeCkpt, State.sachetWrite, State.modSachet_sachet]
  split <;> simp

/-- Settles O35: the refusals by the table of actions, and the actions that end at once. -/
theorem transportControlRefusesOrEndsAtOnce : Obligations.TransportControlRefusesOrEndsAtOnce := by
  unfold Obligations.TransportControlRefusesOrEndsAtOnce
  refine ⟨fun s c env oenv dir ok disc => fun x hx hc hno => ?_, fun s c => fun hok => ⟨fun hc => ?_, fun hc hst => ⟨_, rfl, ?_⟩, fun hc hst => ⟨_, rfl, ?_⟩,
    fun hc hst => ⟨_, rfl, ?_⟩, fun hc hst => ⟨_, rfl, ?_, ?_⟩⟩⟩
  · obtain ⟨allowed, f, hrow, ha⟩ := exec_tcRow s c.unit env oenv dir ok disc x hx
    refine tc_refused hrow hc ?_
    rcases hno with hno | hno
    · rw [Bool.eq_false_iff.2 (mt c.tcOk_iff.1 hno), Bool.false_and]
    · rw [ha, hno, Bool.and_false]
  · exact tc_runs rfl hc hok rfl rfl
  · exact tc_runs rfl hc hok (beq_iff_eq.2 hst) rfl
  · exact tc_runs rfl hc hok (bne_iff_ne.2 hst) rfl
  · exact tc_runs rfl hc hok (beq_iff_eq.2 hst) rfl
  · rw [State.lifeCkpt_ss]; exact Tab.get_set_same _ _ _ _
  · exact tc_runs rfl hc hok (beq_iff_eq.2 hst) rfl

/-! ### The actions that wait -/

/-- Settles O36: each action, allowed by the transport's state, begins. -/
theorem transportControlBeginsAndWaits : Obligations.TransportControlBeginsAndWaits := by
  unfold Obligations.TransportControlBeginsAndWaits
  refine fun s c => fun hok => ⟨fun env hc hst hp hr => ?_, fun dir ok hc hst => ?_, fun hc hst => ?_, fun hc hst => ?_, fun hc hst hcause => ?_,
    fun env disc hc hst => ⟨_, rfl, fun h => ?_, fun h => ?_, fun h => ?_⟩⟩
  · exact tc_runs rfl hc hok (by simp [hst, hp, hr]) rfl
  · exact tc_runs rfl hc hok (by rcases hst with h | h | h | h | h <;> rw [h] <;> rfl) rfl
  · exact tc_runs rfl hc hok (beq_iff_eq.2 hst) rfl
  · exact tc_runs rfl hc hok (by rcases hst with h | h | h | h | h <;> rw [h] <;> rfl) rfl
  · exact tc_runs rfl hc hok (by simp [hst, hcause]) rfl
  · exact tc_runs rfl hc hok (bne_iff_ne.2 hst) (by rcases h with h | h | h <;> simp only [h] <;> rfl)
  · exact tc_runs rfl hc hok (bne_iff_ne.2 hst) (by rcases h with h | h <;> simp only [h] <;> rfl)
  · refine tc_runs rfl hc hok (bne_iff_ne.2 hst) ?_
    rcases TState.rests_cases _ h with h | h | h | h | h <;> simp only [h] <;> rfl

end Sys2Proof.Machine

end

section

/-! PROOF. O38: loads end, cartridges come and go. -/

namespace Sys2Proof.Machine

/-- A row settles in the state its operation leaves. -/
theorem settles_of_commit {i : Instr} {s x e : State} (hrow : exec i s = commit s x.settle) (he : x = e) : Safety.Settles i s e := he ▸ hrow

theorem cartridgeInserted_row {s e : State} {t : Nat} {env : LoadEnv} (hx : s.tpExists t = true)
    (he : (if (s.mot t).state == .unloaded && (s.mot t).autoload && !(s.tp t).ld.resetting then
        (((s.notified t).raise (evTp t 4)).modMot t fun m => { m with cartPresent := true }).runLoad t env
      else ((s.notified t).raise (evTp t 4)).modMot t fun m => { m with cartPresent := true }) = e) : Safety.Settles (.cartridgeInserted t env) s e :=
  settles_of_commit (if_neg (by simp [hx])) he

theorem cartridgeRemoved_row {s e : State} {t : Nat} (hx : s.tpExists t = true)
    (he : (if (s.mot t).state == .unloaded && (s.tp t).ld.env.isSome then
        (((s.notified t).raise (evTp t 5)).modMot t fun m => { m with cartPresent := false }).modLd t fun l => { l with env := none, resetting := false }
      else ((s.notified t).raise (evTp t 5)).modMot t fun m => { m with cartPresent := false }) = e) :
    Safety.Settles (.cartridgeRemoved t) s (e.latchFree t) := by
  subst he
  exact if_neg (by simp [hx])

/-- When the unload timer begins an unload. -/
def State.unloadDue (s : State) (t : Nat) : Prop :=
  s.tpExists t = true ∧ (s.mot t).state = .relaxed ∧ (s.mot t).starting = none ∧ fld s.cfg.pwr1 31 16 ≠ 0 ∧ fld s.cfg.pwr1 31 16 * 1000 ≤ (s.mot t).idleMs

theorem State.unloadDue_iff (s : State) (t : Nat) :
    (s.tpExists t && (s.mot t).state == .relaxed && (s.mot t).starting.isNone && decide (fld s.cfg.pwr1 31 16 ≠ 0) &&
      decide (fld s.cfg.pwr1 31 16 * 1000 ≤ (s.mot t).idleMs)) = true ↔ s.unloadDue t := by
  simp [State.unloadDue, and_assoc]

/-- Settles O38: each row by the state of the load, the latch, the cartridge and the timer. -/
theorem loadsAndCartridges : Obligations.LoadsAndCartridges := by
  unfold Obligations.LoadsAndCartridges
  refine ⟨⟨fun s t => ⟨fun h => if_neg ?_, fun hst hsc => ⟨_, rfl, if_pos (by simp [hst, hsc])⟩⟩, fun s t c hc => ⟨fun hs => ?_, fun hs => ?_⟩,
      fun s t hc => ?_, fun s t => ⟨fun h => settles_of_commit rfl (if_neg (by simp [h])), fun h => settles_of_commit rfl (if_pos h)⟩⟩,
    fun s t env => ⟨fun hx => ⟨if_pos (by simp [hx]), if_pos (by simp [hx])⟩, fun hx => ⟨⟨fun hl => ?_, fun hl => ?_⟩, ?_⟩⟩,
    fun s t dir => ⟨fun hd => if_neg (mt (s.unloadDue_iff t).1 hd), fun hd => ?_⟩⟩
  · rcases h with h | h <;> simp [h]
  · change execScanComplete t s = _
    simp only [execScanComplete, hc]
    exact if_neg (by simp [hs])
  · change execScanComplete t s = _
    simp only [execScanComplete, hc]
    exact if_pos hs
  · change execScanComplete t s = _
    simp only [execScanComplete, hc]
    rfl
  · refine cartridgeInserted_row hx (if_pos ?_)
    obtain ⟨hst, ha, hr⟩ := hl
    simp [hst, ha, hr]
  · refine cartridgeInserted_row hx (if_neg ?_)
    simpa [and_assoc] using hl
  · refine cartridgeRemoved_row hx ?_
    simp only [Bool.and_eq_true, beq_iff_eq, Option.isSome_iff_ne_none]
  · exact if_pos ((s.unloadDue_iff t).2 hd)

end Sys2Proof.Machine

end

section

/-! PROOF. O39, O40 and O41: excursions, targets, stops, turnarounds and bursts. -/

namespace Sys2Proof.Machine

/-! ### What of a transport a change of its motion, or of its governor, leaves -/

@[simp] theorem State.gov_modMot (s : State) (t : Nat) (f : Motion → Motion) : ((s.modMot t f).tp t).gov = (s.tp t).gov := by
  simp [State.modMot, State.tp_modTp]
@[simp] theorem State.fmt_modMot (s : State) (t : Nat) (f : Motion → Motion) : (s.modMot t f).fmt t = s.fmt t := by
  simp [State.fmt, State.modMot, State.tp_modTp]
@[simp] theorem State.fmt_modGov (s : State) (t : Nat) (f : Governor → Governor) : (s.modGov t f).fmt t = s.fmt t := by
  simp [State.fmt, State.modGov, State.tp_modTp]

/-! ### Excursions -/

section Excursions

variable {s z : State} {t : Nat} {e : Excursion}

/-- When a read may begin an excursion. -/
def State.mayLeave (s : State) (t : Nat) : Prop :=
  ((s.mot t).state = .parked ∨ (s.mot t).state = .relaxed ∨ (s.mot t).state = .streaming) ∧ (s.mot t).starting = none ∧ s.mayMove t = true

theorem State.mayLeave_iff (s : State) (t : Nat) :
    (((s.mot t).state == .parked || (s.mot t).state == .relaxed || (s.mot t).state == .streaming) && (s.mot t).starting.isNone && s.mayMove t) = true ↔
      s.mayLeave t := by
  simp [State.mayLeave, and_assoc, or_assoc]

theorem excursionStart_none (hm : (s.mot t).exc = none) :
    exec (.excursionStart t) s =
      if ((s.mot t).state == .parked || (s.mot t).state == .relaxed || (s.mot t).state == .streaming) && (s.mot t).starting.isNone && s.mayMove t then
        match s.excursionReads t with
        | [] => commit s s
        | c :: r => commit s ((s.startExcursion t ((c :: r).map (·.id))).settle)
      else commit s s := by
  change execExcursionStart t s = _
  simp only [execExcursionStart, hm] <;> rfl

theorem excursionStart_some (hm : (s.mot t).exc = some e) :
    exec (.excursionStart t) s =
      if (s.mot t).state == .streaming then
        commit s ((if (s.fmt t).done || !(s.tp t).gu.gate then
          (((s.gateClose t 5).cutWrites t).modFmt t fun f => { f with closing := false }).depart t e.cmds else s).settle)
      else if (s.mot t).state == .locating && !e.atTarget then commit s ((s.replaceTarget t e).settle)
      else commit s s := by
  change execExcursionStart t s = _
  simp only [execExcursionStart, hm]

/-- The excursion over, before the tape goes on. -/
def State.excOver (s : State) (t : Nat) : State := s.modMot t fun m => { m with exc := none, pendingTarget := none }

/-- The tape streams on from the append point at speed `i`. -/
def State.resumeAt (s : State) (t i : Nat) : State :=
  let s2 := s.modGov t fun g => { g with speed := i }
  ((s2.aim t { x := s2.appendX t, dir := (s.fmt t).wrap % 2 == 0, speed := 20 + 5 * i, kind := 2 }).modMot t fun m =>
    { m with vel := wrapSign (s.fmt t).wrap * velOf i }).setTState t .streaming

theorem excursionEnd_none (hm : (s.mot t).exc = none) : Safety.Takes (.excursionEnd t) s s := by
  change execExcursionEnd t s = _
  simp only [execExcursionEnd, hm]
  rfl

theorem excursionEnd_some (hm : (s.mot t).exc = some e) :
    exec (.excursionEnd t) s =
      if e.atTarget && (s.mot t).state == .locating then
        if (e.resume || (s.excOver t).startDue t) && (s.excOver t).mayMove t && (s.excOver t).writable t then
          commit s (((s.excOver t).resumeAt t (if (s.tp t).gov.burst && !(s.tp t).gov.drain then 0 else min (s.tp t).gov.goal ((s.excOver t).ceiling t))).settle)
        else commit s (((s.excOver t).park t).settle)
      else commit s s := by
  change execExcursionEnd t s = _
  simp only [execExcursionEnd, hm, State.gov_modMot, State.fmt_modMot, State.fmt_modGov, State.excOver, State.resumeAt, decOf]

/-- At the append point writing resumes where it is to. -/
theorem State.resumes_iff (s : State) (t : Nat) (e : Excursion) :
    ((e.resume || s.startDue t) && s.mayMove t && s.writable t) = true ↔ ((e.resume = true ∨ s.startDue t = true) ∧ s.mayMove t = true ∧ s.writable t = true) := by
  simp [and_assoc]

theorem State.fmt_excOver (s : State) (t : Nat) : (s.excOver t).fmt t = s.fmt t := s.fmt_modMot t _

end Excursions

/-- Settles O39: the row of a start with and without an excursion, and the row of its end. -/
theorem excursionsLeaveAndReturn : Obligations.ExcursionsLeaveAndReturn := by
  unfold Obligations.ExcursionsLeaveAndReturn
  refine fun s t => ⟨fun hm => ⟨fun hmay => ⟨fun hr => ?_, fun c r hr => ?_⟩, fun hmay => ?_, excursionEnd_none hm⟩, fun e hm =>
    ⟨fun hst hd => ?_, fun hst hd hg => ?_, fun hst ha => ?_, fun hst ha => ?_, fun ha hst hres => ?_, fun ha hst hres hmv hwr => ⟨_, rfl, ?_⟩, fun h => ?_⟩⟩
  · refine (excursionStart_none hm).trans ((if_pos ((s.mayLeave_iff t).2 hmay)).trans ?_)
    rw [hr]; rfl
  · refine (excursionStart_none hm).trans ((if_pos ((s.mayLeave_iff t).2 hmay)).trans ?_)
    rw [hr]; rfl
  · exact (excursionStart_none hm).trans (if_neg (mt (s.mayLeave_iff t).1 hmay))
  · refine settles_of_commit ((excursionStart_some hm).trans (if_pos (beq_iff_eq.2 hst))) (if_pos ?_)
    rcases hd with h | h <;> simp [h]
  · exact settles_of_commit ((excursionStart_some hm).trans (if_pos (beq_iff_eq.2 hst))) (if_neg (by simp [hd, hg]))
  · exact (excursionStart_some hm).trans ((if_neg (by simp [hst])).trans (if_pos (by simp [hst, ha])))
  · refine (excursionStart_some hm).trans ((if_neg (mt beq_iff_eq.1 hst)).trans (if_neg ?_))
    rcases ha with h | h <;> simp [h]
  · exact (excursionEnd_some hm).trans ((if_pos (by simp [ha, hst])).trans (if_neg (mt ((s.excOver t).resumes_iff t e).1 hres)))
  · refine (excursionEnd_some hm).trans ((if_pos (by simp [ha, hst])).trans ((if_pos (((s.excOver t).resumes_iff t e).2 ⟨hres, hmv, hwr⟩)).trans ?_))
    rw [State.resumeAt, State.fmt_excOver]
    rfl
  · refine (excursionEnd_some hm).trans (if_neg ?_)
    rcases h with h | h <;> simp [h]

/-! ### Targets -/

/-- Settles O40: the target by its kind and the excursion it belongs to. -/
theorem targetsEndTheirLegs : Obligations.TargetsEndTheirLegs := by
  unfold Obligations.TargetsEndTheirLegs
  refine fun s t o => ⟨fun hm => ?_, fun g hm => ⟨fun e hk he => ?_, fun hk => ?_, fun e hk he => ?_, fun h => ?_⟩⟩
  · change execTargetReached t o s = _
    simp only [execTargetReached, hm]; rfl
  · change execTargetReached t o s = _
    simp only [execTargetReached, hm, hk, he]; rfl
  · change execTargetReached t o s = _
    simp only [execTargetReached, hm, hk]; rfl
  · change execTargetReached t o s = _
    simp only [execTargetReached, hm, hk, he]; rfl
  · change execTargetReached t o s = _
    simp only [execTargetReached, hm]
    split
    · next e hk he => simp [hk, he] at h
    · next hk => simp [hk] at h
    · next e hk he => simp [hk, he] at h
    · rfl

/-! ### Stops, turnarounds, bursts -/

section Stops

variable {s e : State} {t : Nat}

theorem stopComplete_row (hst : (s.mot t).state = .stopping) :
    exec (.stopComplete t) s = match (s.mot t).stopGoal with
      | .outOfService c => commit s ((s.enterOos t c).settle)
      | .reload => commit s ((s.resetTp t).settle)
      | .parked => commit s ((if 0 < (s.mot t).attempts && (s.park t).mayMove t && (s.park t).writable t then (s.park t).startWrite t else s.park t).settle) :=
  if_pos (beq_iff_eq.2 hst)

theorem envelope_iff (m : Motion) : (m.state.usable && (decide (m.x < -115000) || decide (10115000 < m.x))) = true ↔
    (m.state.usable = true ∧ (m.x < -115000 ∨ 10115000 < m.x)) := by
  simp

/-- A transport that writes to the end of a wrap. -/
theorem turns_iff (m : Motion) : ((m.state == .streaming || m.state == .unloading) && (m.target.map fun g => g.kind) == some 4) = true ↔
    ((m.state = .streaming ∨ m.state = .unloading) ∧ ∃ g, m.target = some g ∧ g.kind = 4) := by
  simp

/-- The wrap that is written next. -/
def State.turned (s : State) (t : Nat) : State := if (s.fmt t).packWrap = (s.fmt t).wrap then s else s.toPackWrap t

theorem turnaround_row (h : (s.mot t).state = .streaming ∨ (s.mot t).state = .unloading) {g : Target} (hg : (s.mot t).target = some g) (hk : g.kind = 4) :
    exec (.turnaround t) s =
      if ((s.turned t).fmt t).halted then commit s ((((s.turned t).modMot t fun m => { m with target := none }).controlledStop t .parked).settle)
      else commit s (((((s.turned t).startMotion t).modMot t fun m =>
        { m with x := (s.turned t).appendX t, vel := wrapSign ((s.turned t).fmt t).wrap * velOf ((s.turned t).tp t).gov.speed, target := none,
                 servoAcquired := false }).modFmt t fun f => { f with writing := true }).settle) :=
  if_pos ((turns_iff _).2 ⟨h, g, hg, hk⟩)

/-- A burst that is due, with nothing that keeps it from starting. -/
def State.burstDue (s : State) (t : Nat) : Prop :=
  ((s.mot t).state = .parked ∨ (s.mot t).state = .relaxed) ∧ s.startDue t = true ∧ s.mayMove t = true ∧ s.writable t = true ∧ s.cart? t ≠ none

theorem State.burstDue_iff (s : State) (t : Nat) :
    (((s.mot t).state == .parked || (s.mot t).state == .relaxed) && s.startDue t && s.mayMove t && s.writable t && (s.cart? t).isSome) = true ↔ s.burstDue t := by
  simp [State.burstDue, and_assoc, Option.isSome_iff_ne_none]

/-- A burst with P_t at BSTOP and nothing that keeps it. -/
def State.burstOver (s : State) (t : Nat) : Prop :=
  (s.tp t).gov.burst = true ∧ (s.mot t).state = .streaming ∧ (s.mot t).exc = none ∧ (s.fmt t).closing = false ∧ s.flushWaits t = false ∧
    s.pendingOf t ≤ (s.trnCfg t).bstop * 1048576 ∧ (∀ d ∈ (s.fmt t).sets, d.retryDue = false)

theorem State.burstOver_iff (s : State) (t : Nat) :
    ((s.tp t).gov.burst && (s.mot t).state == .streaming && (s.mot t).exc.isNone && !(s.fmt t).closing && !s.flushWaits t &&
      decide (s.pendingOf t ≤ (s.trnCfg t).bstop * 1048576) && !(s.fmt t).sets.any (fun d => d.retryDue)) = true ↔ s.burstOver t := by
  simp [State.burstOver, and_assoc]

end Stops

/-- Settles O41: each row by the motion it finds. -/
theorem stopsTurnsAndBursts : Obligations.StopsTurnsAndBursts := by
  unfold Obligations.StopsTurnsAndBursts
  refine fun s t => ⟨fun h => if_neg (mt beq_iff_eq.1 h), fun hst => ⟨fun c hg => ?_, fun hg => ?_, fun hg => ?_⟩, fun h => if_neg (mt (envelope_iff _).1 ?_),
    fun hu hx => if_pos ((envelope_iff _).2 ⟨hu, hx⟩), fun h => if_neg (mt (turns_iff _).1 h), fun g hst hg hk => ⟨_, rfl, fun hh => ?_, fun hh => ?_⟩,
    ⟨fun h => if_pos ((s.burstDue_iff t).2 h), fun h => if_neg (mt (s.burstDue_iff t).1 h)⟩,
    ⟨fun h => if_pos ((s.burstOver_iff t).2 h), fun h => if_neg (mt (s.burstOver_iff t).1 h)⟩⟩
  · refine (stopComplete_row hst).trans ?_
    rw [hg]; rfl
  · refine (stopComplete_row hst).trans ?_
    rw [hg]; rfl
  · refine (stopComplete_row hst).trans ?_
    rw [hg]
    simp only [Bool.and_eq_true, decide_eq_true_eq, and_assoc]
    rfl
  · rintro ⟨hu, hx⟩
    rcases h with h | ⟨hlo, hhi⟩
    · exact absurd (h.symm.trans hu) (by decide)
    · omega
  · exact (turnaround_row hst hg hk).trans (if_pos hh)
  · exact (turnaround_row hst hg hk).trans (if_neg (Bool.eq_false_iff.1 hh))

end Sys2Proof.Machine

end

section

/-! PROOF. O42 and O43: the solenoid sequencer, and lane training. -/

namespace Sys2Proof.Machine

/-! ### The solenoid sequencer -/

/-- A word sent changes no solenoid. -/
theorem State.sol_sendWord (s : State) (t ty : Nat) (payload : Word) : ((s.sendWord t ty payload).tp t).sol = (s.tp t).sol := by
  simp only [State.sendWord]
  split
  · rfl
  · simp only [State.modLink, State.tp_modTp, if_true]
    exact congrArg Transport.sol (State.tp_congr (State.each_invariant State.tps (fun s n => s.emit_tps _) s _) t)

/-- The pull-in over, its solenoid in hold. -/
def State.pullinOver (s : State) (t : Nat) : State := (s.modSol t fun x => { x with pullin := none }).sendSol t

theorem State.wait_pullinOver (s : State) (t : Nat) : ((s.pullinOver t).tp t).sol.wait = (s.tp t).sol.wait := by
  rw [State.pullinOver, State.sendSol, State.sol_sendWord, State.modSol, State.tp_modTp, if_pos rfl]

theorem State.endPullin_eq (s : State) (t : Nat) : s.endPullin t =
    match (s.tp t).sol.wait with
    | k :: r => ((s.pullinOver t).modSol t fun x => { x with wait := r }).solPullin t k
    | [] => s.pullinOver t := by
  rw [← s.wait_pullinOver t]; rfl

/-- An energised brake in hold that SENSE does not report released. -/
def Solenoids.brakeStuck (x : Solenoids) (brake : Nat) : Prop :=
  brake < 2 ∧ x.energ.getLsbD brake = true ∧ x.pullin ≠ some brake ∧ x.solSt.getLsbD brake = false

theorem Solenoids.brakeStuck_iff (x : Solenoids) (brake : Nat) :
    (decide (brake < 2) && x.energ.getLsbD brake && x.pullin != some brake && !x.solSt.getLsbD brake) = true ↔ x.brakeStuck brake := by
  simp [Solenoids.brakeStuck, and_assoc]

/-- Settles O42: the restated word, the end of a pull-in by what waits, and the brake's fault. -/
theorem solenoidsPullHoldAndFault : Obligations.SolenoidsPullHoldAndFault := by
  unfold Obligations.SolenoidsPullHoldAndFault
  refine fun s t => ⟨fun h => congrArg (commit s) (if_pos h), fun h => congrArg (commit s) (if_neg (by simp [h])),
    fun h => congrArg (commit s) (if_neg (by simp [h])), fun h => ⟨fun hw => ?_, fun k r hw => ?_⟩,
    fun brake => ⟨fun h => if_neg (mt ((s.tp t).sol.brakeStuck_iff brake).1 h), fun h => if_pos (((s.tp t).sol.brakeStuck_iff brake).2 h)⟩⟩
  · refine congrArg (commit s) ((if_pos (Option.isSome_iff_ne_none.2 h)).trans ((s.endPullin_eq t).trans ?_))
    rw [hw]; rfl
  · refine congrArg (commit s) ((if_pos (Option.isSome_iff_ne_none.2 h)).trans ((s.endPullin_eq t).trans ?_))
    rw [hw]; rfl

/-! ### Changes of one lane -/

/-- A change of a lane is what it makes of that lane. -/
theorem State.modLn_congr {s : State} {n : Nat} {f g : Lane → Lane} (h : f (s.ln n) = g (s.ln n)) : s.modLn n f = s.modLn n g :=
  congrArg (fun x => s.modLanes fun m => Tab.set n x m) h

/-- Two changes of a lane are one. -/
theorem State.modLn_modLn (s : State) (n : Nat) (f g : Lane → Lane) : (s.modLn n f).modLn n g = s.modLn n fun l => g (f l) := by
  simp only [State.modLn, State.modLanes, Tab.get_set_same, Tab.set_set]

/-! ### Lanes that train -/

/-- A lane of the part that trains. -/
def State.trains (s : State) (n : Nat) : Prop :=
  s.lanePresent n = true ∧ (s.ln n).trained = false ∧ ((s.ln n).state = .training ∨ (s.ln n).state = .quarantined)

theorem State.trains_iff (s : State) (n : Nat) : (s.lanePresent n && (s.ln n).inTraining) = true ↔ s.trains n := by
  simp [State.trains, Lane.inTraining]

/-- A lane that may train again. -/
def State.retrains (s : State) (n : Nat) : Prop :=
  s.lanePresent n = true ∧ (s.ln n).held = false ∧ (s.ln n).mismatch = false ∧
    ((s.ln n).state = .down ∨ ((s.ln n).state = .quarantined ∧ (s.ln n).trained = false))

theorem State.retrains_iff (s : State) (n : Nat) :
    (s.lanePresent n && !(s.ln n).held && !(s.ln n).mismatch && ((s.ln n).state == .down || ((s.ln n).state == .quarantined && !(s.ln n).trained))) = true ↔
      s.retrains n := by
  simp [State.retrains, and_assoc]

/-- A lane whose training is at its end. -/
def State.trainEnds (s : State) (n : Nat) : Prop :=
  s.lanePresent n = true ∧ (s.ln n).state = .training ∧ (s.ln n).trained = true ∧ (s.ln n).held = false

theorem State.trainEnds_iff (s : State) (n : Nat) :
    (s.lanePresent n && (s.ln n).state == .training && (s.ln n).trained && !(s.ln n).held) = true ↔ s.trainEnds n := by
  simp [State.trainEnds, and_assoc]

/-- The partner carries the transport while this lane proves itself. -/
def State.partnerCarries (s : State) (n : Nat) : Prop :=
  (s.ln n).needClean = true ∧ ∃ p, s.partner n = some p ∧ ((s.ln p).state = .up ∨ (s.ln p).state = .rejoining)

/-- What a word read in a slot does to its lane. -/
def Lane.wordRead (l : Lane) : Lane := { l with badRun := 0, goodRun := min 8 (l.goodRun + 1), locked := l.locked || decide (8 ≤ l.goodRun + 1) }

theorem State.rxSlot_word {s : State} {n : Nat} {x : XSlot} {w : BitVec 96} (hp : s.lanePresent n = true)
    (hw : slotWord (if (s.ln n).rxInv then invSlot x else x) = some w) : s.rxSlot n x = (s.modLn n Lane.wordRead, some w) := by
  simp only [State.rxSlot, hp, Bool.not_true, Bool.false_eq_true, if_false, hw]
  rfl

/-- The taps after a training word of payload `p`. -/
def Lane.trainedBy (l : Lane) (p : Word) : Lane :=
  let pre := fld p 3 0
  let l1 := if fld p 7 0 = l.trainReq then l
    else
      let base := if pre ≤ 10 && pre ≠ l.trainReq % 16 then (presetTaps pre) else (l.tapPre, l.tapPost)
      { l with preset := if pre ≤ 10 then pre else l.preset, tapPre := base.1 + tapStep (fld p 5 4), tapPost := base.2 + tapStep (fld p 7 6) }
  { l1 with trainReq := fld p 7 0, feReady := l1.feReady || bit p 9, txInv := bit p 10 }

/-- The row of a training word, in a lane whose inversion needs no change. -/
theorem trainWord_row {s : State} {n : Nat} {slot : XSlot} {w : BitVec 96} (ht : s.trains n) (hinv : (s.ln n).rxInv = false) (hw : slotWord slot = some w) :
    exec (.trainWord n slot) s =
      if xType w ≠ xtTrain then commit s (s.modLn n Lane.wordRead)
      else commit s ((s.modLn n Lane.wordRead).modLn n fun l => l.trainedBy (xPayload w)) := by
  refine (if_neg (check_passes (s.trains_iff n) ht)).trans ?_
  have hkeep : (!(s.ln n).rxInv && (slotWord slot).isNone && (slotWord (invSlot slot)).isSome) = false := by simp [hw]
  have hrx : s.rxSlot n slot = (s.modLn n Lane.wordRead, some w) := State.rxSlot_word ht.1 (by simp [hinv, hw])
  simp only [hkeep, Bool.false_eq_true, if_false, hrx]
  rfl

/-- A word that only its inversion makes readable inverts the lane. -/
theorem trainWord_inverted {s : State} {n : Nat} {slot : XSlot} {w : BitVec 96} (ht : s.trains n) (hinv : (s.ln n).rxInv = false)
    (hno : slotWord slot = none) (hw : slotWord (invSlot slot) = some w) (hty : xType w ≠ xtTrain) :
    Safety.Takes (.trainWord n slot) s ((s.modLn n fun l => { l with rxInv := true }).modLn n Lane.wordRead) := by
  refine (if_neg (check_passes (s.trains_iff n) ht)).trans ?_
  have hflip : (!(s.ln n).rxInv && (slotWord slot).isNone && (slotWord (invSlot slot)).isSome) = true := by simp [hinv, hno, hw]
  have hln : ((s.modLn n fun l => { l with rxInv := true }).ln n).rxInv = true := by rw [State.ln_modLn, if_pos rfl]
  have hpres : (s.modLn n fun l => { l with rxInv := true }).lanePresent n = true := ht.1
  have hrx := State.rxSlot_word (x := slot) (w := w) hpres (by rw [hln]; exact hw)
  simp only [hflip, if_true, hrx]
  exact if_pos hty

/-! ### Training ends -/

theorem ident_row {s : State} {n : Nat} {w0 w1 w2 w3 : Word} (ht : s.trains n) (hr : (s.ln n).feReady = true) :
    exec (.ident n w0 w1 w2 w3) s =
      if s.identOk n w0 w1 w2 then
        commit s ((s.modLn n fun l => { l with feId := BitVec.ofNat 32 (fld w0 47 16) }).modLn n fun l => { l with trained := true })
      else commit s (((s.modLn n fun l => { l with feId := BitVec.ofNat 32 (fld w0 47 16) }).modLn n fun l =>
        { l with state := .down, mismatch := true }).raise (evLane n 3)) :=
  if_neg (by rw [hr, Bool.and_true]; exact check_passes (s.trains_iff n) ht)

theorem laneUp_row {s e : State} {n : Nat} (h : s.trainEnds n)
    (he : (if (match s.partner n with
        | some p => (s.ln n).needClean && ((s.ln p).state == .up || (s.ln p).state == .rejoining)
        | none => false) = true then s.modLn n fun l => { l with state := .quarantined } else ((s.laneEnterUp n).reload (s.tpOf n)).settle) = e) :
    Safety.Takes (.laneUp n) s e := by
  subst he
  exact if_neg (check_passes (s.trainEnds_iff n) h)

theorem State.partnerCarries_iff (s : State) (n : Nat) :
    (match s.partner n with
      | some p => (s.ln n).needClean && ((s.ln p).state == .up || (s.ln p).state == .rejoining)
      | none => false) = true ↔ s.partnerCarries n := by
  cases hp : s.partner n <;> simp [State.partnerCarries, hp]

/-- Settles O43: each row by the lane's training, the training word by its type and its requests. -/
theorem trainingEndsUpOrDown : Obligations.TrainingEndsUpOrDown := by
  unfold Obligations.TrainingEndsUpOrDown
  refine fun s n => ⟨fun h slot w0 w1 w2 w3 => ⟨if_neg (mt (s.trains_iff n).1 h), if_pos (check_fails (s.trains_iff n) h), if_pos ?_⟩, fun h => ?_,
    ⟨fun h => if_pos ((s.retrains_iff n).2 h), fun h => if_neg (mt (s.retrains_iff n).1 h)⟩,
    fun ht slot w hinv hw => ⟨fun hty => (trainWord_row ht hinv hw).trans (if_pos hty), fun hty => ⟨fun hreq => ?_, fun hreq => ?_⟩⟩,
    fun ht slot w hinv hno hw hty => ?_, fun ht w0 w1 w2 w3 => ⟨fun hr => if_pos (by simp [hr]), fun hr hid => (ident_row ht hr).trans (if_pos hid),
      fun hr hid => (ident_row ht hr).trans (if_neg (Bool.eq_false_iff.1 hid))⟩,
    ⟨fun h => if_pos (check_fails (s.trainEnds_iff n) h), fun h hc => laneUp_row h (if_pos ((s.partnerCarries_iff n).2 hc)),
      fun h hc => laneUp_row h (if_neg (mt (s.partnerCarries_iff n).1 hc))⟩⟩
  · rw [Bool.not_eq_true', Bool.and_eq_false_iff]
    exact .inl (Bool.eq_false_iff.2 (mt (s.trains_iff n).1 h))
  · refine (if_pos ((s.trains_iff n).2 h)).trans ?_
    simp only [beq_iff_eq]
    rfl
  · refine (trainWord_row ht hinv hw).trans ((if_neg (not_not.2 hty)).trans (congrArg (commit s) (State.modLn_congr ?_)))
    have hln : (s.modLn n Lane.wordRead).ln n = (s.ln n).wordRead := by rw [State.ln_modLn, if_pos rfl]
    rw [hln, Lane.trainedBy]
    have hreq' : fld (xPayload w) 7 0 = (s.ln n).wordRead.trainReq := hreq
    simp only [if_pos hreq']
    rw [hreq']
  · refine (trainWord_row ht hinv hw).trans ((if_neg (not_not.2 hty)).trans (congrArg (commit s) (State.modLn_congr ?_)))
    have hln : (s.modLn n Lane.wordRead).ln n = (s.ln n).wordRead := by rw [State.ln_modLn, if_pos rfl]
    rw [hln, Lane.trainedBy]
    have hreq' : ¬ fld (xPayload w) 7 0 = (s.ln n).wordRead.trainReq := hreq
    simp only [if_neg hreq', Bool.and_eq_true, decide_eq_true_eq]
    rfl
  · refine (trainWord_inverted ht hinv hno hw hty).trans ?_
    rw [State.modLn_modLn]
    rfl

end Sys2Proof.Machine

end

section

/-! PROOF. O44 and O45: lanes fail and rejoin, and Lane Service. -/

namespace Sys2Proof.Machine

/-! ### Codewords -/

/-- An uncorrectable codeword counted in its lane. -/
def State.codewordBad (s : State) (n period : Nat) : State :=
  (s.modLn n fun l => { l with uncorr := wrapAdd l.uncorr 1, window := (l.window.filter fun p => decide (period < p + 1048576)) ++ [period] }).stat (stLane n 1) 1

theorem State.ln_stat (s : State) (i k n : Nat) : (s.stat i k).ln n = s.ln n := by
  rw [State.ln, State.stat_lanes]; rfl

theorem State.window_codewordBad (s : State) (n period : Nat) :
    ((s.codewordBad n period).ln n).window = ((s.ln n).window.filter fun p => decide (period < p + 1048576)) ++ [period] := by
  rw [State.codewordBad, State.ln_stat, State.ln_modLn, if_pos rfl]

theorem State.codewordBad_eq (s : State) (n period : Nat) : s.codewordBad n period =
    (s.modLn n fun l => { l with uncorr := wrapAdd l.uncorr 1,
                                 window := ((s.ln n).window.filter fun p => decide (period < p + 1048576)) ++ [period] }).stat (stLane n 1) 1 := by
  rw [State.codewordBad]
  exact congrArg (fun z => State.stat z (stLane n 1) 1) (State.modLn_congr rfl)

/-- A lane of the part counts the codeword, and fails with more than sixteen in its window. -/
theorem uncorrectableCodeword_row {s : State} {n period : Nat} {disc : Discards} (hp : s.lanePresent n = true) :
    exec (.uncorrectableCodeword n ⟨period, disc⟩) s = commit s
      (if 16 < (((s.ln n).window.filter fun p => decide (period < p + 1048576)) ++ [period]).length then
        (((s.codewordBad n period).failLane n).discards disc).settle else s.codewordBad n period) := by
  rw [← s.window_codewordBad n period]
  exact if_neg (by simp [hp])

/-! ### Link words -/

section LinkWords

variable {s s1 e : State} {n o : Nat} {slot : XSlot} {p : Word}

/-- The lane that a QUARANTINE names. -/
def namedLane (n : Nat) (p : Word) : Nat := n / 2 * 2 + fld p 4 4

/-- What a QUARANTINE accepted does to the lane it names, `o` its partner. -/
def State.quarantineRx (s1 : State) (m o : Nat) (slot : XSlot) (p : Word) : State :=
  let t := s1.tpOf m
  if fld p 3 0 ≠ 1 then s1
  else if (s1.ln m).state == .up && (s1.ln o).state == .up then
    ((s1.laneFailCount m).quarantineLane m).modLink t fun l => { l with quarFirst := some (m, slot.period) }
  else if (s1.ln m).state == .up && (s1.ln o).state == .quarantined then
    if m < o && (s1.tp t).link.quarFirst == some (o, slot.period) then
      ((((s1.laneFailCount m).modLn o fun l => { l with state := .up }).setReady (rdLANE o) true).quarantineLane m).modLink t fun l =>
        { l with quarFirst := some (m, slot.period) }
    else s1.sendLink t 1 (s1.laneBit o) 0
  else s1

theorem linkQuarantineRx_row (ha : s.accept n xtLink slot = (s1, some p)) (ho : s1.partner (namedLane n p) = some o)
    (he : s1.quarantineRx (namedLane n p) o slot p = e) : Safety.Settles (.linkQuarantineRx n slot) s e := by
  subst he
  have ho' : s1.partner (n / 2 * 2 + fld p 4 4) = some o := ho
  change execLinkQuarantineRx n slot s = commit s (s1.quarantineRx (n / 2 * 2 + fld p 4 4) o slot p).settle
  simp only [execLinkQuarantineRx, ha, ho', State.quarantineRx, apply_ite State.settle, apply_ite (commit s)]

theorem linkQuarantineRx_alone (ha : s.accept n xtLink slot = (s1, some p)) (ho : s1.partner (namedLane n p) = none) :
    Safety.Settles (.linkQuarantineRx n slot) s s1 := by
  have ho' : s1.partner (n / 2 * 2 + fld p 4 4) = none := ho
  change execLinkQuarantineRx n slot s = _
  simp only [execLinkQuarantineRx, ha, ho']
  rfl

/-- The lane whose switch frame an ACK answers. -/
def State.ackedLane (s1 : State) (n : Nat) (p : Word) : Option Nat :=
  (s1.lanesOf (s1.tpOf n)).find? fun k => (s1.ln k).state == .rejoining && (s1.ln k).proposing && (s1.ln k).switchSn.toNat == fld p 55 8

theorem linkAck_row (ha : s.accept n xtLink slot = (s1, some p))
    (he : (match s1.ackedLane n p with
      | some m => if fld p 3 0 = 3 then s1.rejoined m else s1
      | none => s1) = e) : Safety.Settles (.linkAck n slot) s e := by
  subst he
  change execLinkAck n slot s = _
  simp only [execLinkAck, ha, ← State.ackedLane.eq_1]
  cases s1.ackedLane n p with
  | none => rfl
  | some m => simp only [apply_ite State.settle]; rfl

end LinkWords

/-! ### A lane that returns -/

/-- A lane that may propose to rejoin. -/
def State.mayRejoin (s : State) (n : Nat) : Prop :=
  s.lanePresent n = true ∧ (s.ln n).state = .quarantined ∧ (s.ln n).trained = true ∧ (s.ln n).held = false ∧
    ∃ p, s.partner n = some p ∧ (s.ln p).state = .up

theorem State.mayRejoin_iff (s : State) (n : Nat) :
    (s.lanePresent n && (s.ln n).state == .quarantined && (s.ln n).trained && !(s.ln n).held && (match s.partner n with
      | some p => (s.ln p).state == .up
      | none => false)) = true ↔ s.mayRejoin n := by
  cases hp : s.partner n <;> simp [State.mayRejoin, hp, and_assoc]

/-- A proposal to rejoin that no ACK has answered. -/
def State.proposalOpen (s : State) (n : Nat) : Prop := s.lanePresent n = true ∧ (s.ln n).state = .rejoining ∧ (s.ln n).proposing = true

theorem State.proposalOpen_iff (s : State) (n : Nat) :
    (s.lanePresent n && (s.ln n).state == .rejoining && (s.ln n).proposing) = true ↔ s.proposalOpen n := by
  simp [State.proposalOpen, and_assoc]

/-- Settles O44: codewords by their count, link words by the lanes they name, and the rows of a return. -/
theorem lanesFailAndRejoin : Obligations.LanesFailAndRejoin := by
  unfold Obligations.LanesFailAndRejoin
  refine ⟨fun s n period disc => ⟨fun h => ⟨if_pos (by simp [h]), if_neg (by simp [h])⟩, fun h => ⟨fun hl => ?_, fun hl => ?_, if_pos h⟩⟩,
    fun s s1 n slot => ⟨fun ha => ⟨?_, ?_⟩, fun p ha => ⟨fun o ho hk hm hst => ?_, fun o ho hk hm hst => ⟨fun hb => ?_, fun hb => ?_⟩, fun o ho hu hq => ?_,
      fun h => ?_, fun h => ?_, fun k hk hf => ?_⟩⟩,
    fun s n => ⟨fun h => if_pos ((s.mayRejoin_iff n).2 h), fun h => if_neg (mt (s.mayRejoin_iff n).1 h),
      ⟨fun h => if_pos (check_fails (s.proposalOpen_iff n) h), fun h hl => (if_neg (check_passes (s.proposalOpen_iff n) h)).trans (if_pos hl),
        fun h hl => (if_neg (check_passes (s.proposalOpen_iff n) h)).trans (if_neg (Nat.not_lt.2 hl))⟩, fun h => ?_, fun c r h => ?_⟩,
    fun s t => ⟨fun hx hr => if_pos ?_, fun h => if_neg ?_⟩⟩
  · refine (uncorrectableCodeword_row h).trans (congrArg (commit s) ((if_neg (Nat.not_lt.2 hl)).trans ?_))
    exact s.codewordBad_eq n period
  · refine (uncorrectableCodeword_row h).trans (congrArg (commit s) ((if_pos hl).trans ?_))
    rw [s.codewordBad_eq n period]
  · change execLinkQuarantineRx n slot s = _
    simp only [execLinkQuarantineRx, ha]; rfl
  · change execLinkAck n slot s = _
    simp only [execLinkAck, ha]; rfl
  · exact linkQuarantineRx_row ha ho ((if_neg (not_not.2 hk)).trans (if_pos (by rw [Bool.and_eq_true, beq_iff_eq, beq_iff_eq]; exact ⟨hm, hst⟩)))
  · refine linkQuarantineRx_row ha ho ((if_neg (not_not.2 hk)).trans ((if_neg ?_).trans ((if_pos ?_).trans (if_neg ?_))))
    · rw [Bool.and_eq_true, beq_iff_eq, beq_iff_eq]
      exact fun h => absurd (hst.symm.trans h.2) (by decide)
    · rw [Bool.and_eq_true, beq_iff_eq, beq_iff_eq]
      exact ⟨hm, hst⟩
    · rw [Bool.and_eq_true, beq_iff_eq, decide_eq_true_eq]
      exact hb
  · refine linkQuarantineRx_row ha ho ((if_neg (not_not.2 hk)).trans ((if_neg ?_).trans ((if_pos ?_).trans (if_pos ?_))))
    · rw [Bool.and_eq_true, beq_iff_eq, beq_iff_eq]
      exact fun h => absurd (hst.symm.trans h.2) (by decide)
    · rw [Bool.and_eq_true, beq_iff_eq, beq_iff_eq]
      exact ⟨hm, hst⟩
    · rw [Bool.and_eq_true, beq_iff_eq, decide_eq_true_eq]
      exact hb
  · refine linkQuarantineRx_row ha ho ?_
    simp only [State.quarantineRx, beq_eq_false_iff_ne.2 hu, beq_eq_false_iff_ne.2 hq, Bool.and_false, Bool.false_eq_true, if_false, ite_self]
  · cases ho : s1.partner (namedLane n p) with
    | none => exact linkQuarantineRx_alone ha ho
    | some o =>
      refine linkQuarantineRx_row ha ho ?_
      rcases h with h | h | h
      · exact absurd (ho.symm.trans h) (by simp)
      · exact if_pos h
      · have hup : ((s1.ln (namedLane n p)).state == .up) = false := beq_eq_false_iff_ne.2 h
        simp only [State.quarantineRx, hup, Bool.false_and, Bool.false_eq_true, if_false, ite_self]
  · refine linkAck_row ha ?_
    rcases h with h | h
    · cases s1.ackedLane n p with
      | none => rfl
      | some m => exact if_neg h
    · have hnone : s1.ackedLane n p = none := h
      rw [hnone]
  · refine linkAck_row ha ?_
    have hsome : s1.ackedLane n p = some k := hf
    rw [hsome]
    exact if_pos hk
  · change execLaneResetTimeout n s = _
    simp only [execLaneResetTimeout, h]; rfl
  · change execLaneResetTimeout n s = _
    simp only [execLaneResetTimeout, h]; rfl
  · rcases hr with hr | hr <;> simp [hx, hr]
  · rcases h with h | ⟨hr, hw⟩
    · simp [h]
    · simp [hr, hw]

/-! ### Lane Service -/

section LaneService

variable {s e : State} {c : Cmd}

/-- The actions of Lane Service on a lane that may not be its target, or that may not be quarantined, fail. -/
theorem laneService_fails (hno : s.lsOk c = false ∨ s.mayQuarantine c.unit = false) :
    (s.serviceCmd 0x21 1 = some c → Safety.Settles .lsQuarantine s (s.fail c Status.invalidField)) ∧
    (s.serviceCmd 0x21 2 = some c → Safety.Settles .lsQuarantineHeld s (s.fail c Status.invalidField)) := by
  have hb : ¬ (s.lsOk c && s.mayQuarantine c.unit) = true := by rcases hno with h | h <;> simp [h]
  exact ⟨fun hc => takes_run rfl hc (if_neg hb), fun hc => takes_run rfl hc (if_neg hb)⟩

end LaneService

/-- Settles O45: each action by the lane and its partner. -/
theorem laneServiceActsOnItsLane : Obligations.LaneServiceActsOnItsLane := by
  unfold Obligations.LaneServiceActsOnItsLane
  refine fun s c => ⟨?_, fun hok => ⟨fun hc => ?_, fun hc hq => ⟨_, rfl, ?_⟩, fun hc hq => ⟨_, rfl, ?_⟩, fun hc => ⟨_, rfl, ?_⟩, fun hc => ⟨_, rfl, ?_⟩⟩⟩
  · simp only [List.forall_mem_cons]
    refine ⟨fun hc hno => ?_, fun hc hno => ?_, fun hc hno => ?_, fun hc hno => ?_, fun hc hno => ?_, nofun⟩
    · have hbad := hno.resolve_right (by omega)
      exact takes_run rfl hc (congrArg State.settle (if_neg (by simp [hbad])))
    · exact (laneService_fails (hno.imp id And.right)).1 hc
    · exact (laneService_fails (hno.imp id And.right)).2 hc
    · have hbad := hno.resolve_right (by omega)
      exact takes_run rfl hc (if_neg (by simp [hbad]))
    · have hbad := hno.resolve_right (by omega)
      exact takes_run rfl hc (if_neg (by simp [hbad]))
  · exact takes_run rfl hc (congrArg State.settle (if_pos hok))
  · exact takes_run rfl hc (if_pos (by simp [hok, hq]))
  · refine takes_run rfl hc ((if_pos (by simp [hok, hq])).trans ?_)
    simp only [beq_iff_eq]
  · refine takes_run rfl hc ((if_pos hok).trans ?_)
    simp only [Bool.and_eq_true, beq_iff_eq]
  · exact takes_run rfl hc (if_pos hok)

end Sys2Proof.Machine

end

section

/-! PROOF. O46 and O47: Channel Service, and the frames of the front-end. -/

namespace Sys2Proof.Machine

/-! ### Channel Service -/

section ChannelService

variable {i : Instr} {s e : State} {action : Nat} {f : State → Cmd → Nat → Nat → State} {c : Cmd}

/-- The oldest Channel Service of an action. -/
def State.chanCmd (s : State) (action : Nat) : Option Cmd :=
  s.fetched fun c => c.u == 0 && c.q == 0 && c.entry.op == 0x22 && c.chanAction == action

theorem cs_none (hrow : exec i s = commit s (s.csRun action f).settle) (hc : s.chanCmd action = none) : Safety.Settles i s s := by
  refine settles_of_commit hrow ?_
  have hc' : (s.fetched fun c => c.u == 0 && c.q == 0 && c.entry.op == 0x22 && c.chanAction == action) = none := hc
  simp only [State.csRun, hc', State.run]

theorem cs_fails (hrow : exec i s = commit s (s.csRun action f).settle) (hc : s.chanCmd action = some c) (hok : s.csOk c = false) :
    Safety.Settles i s (s.fail c Status.invalidField) := by
  refine settles_of_commit hrow ?_
  have hc' : (s.fetched fun c => c.u == 0 && c.q == 0 && c.entry.op == 0x22 && c.chanAction == action) = some c := hc
  simp only [State.csRun, hc', State.run, hok, Bool.false_eq_true, if_false]

theorem cs_runs (hrow : exec i s = commit s (s.csRun action f).settle) (hc : s.chanCmd action = some c) (hok : s.csOk c = true)
    (he : f s c c.unit c.chan = e) : Safety.Settles i s e := by
  refine settles_of_commit hrow ?_
  have hc' : (s.fetched fun c => c.u == 0 && c.q == 0 && c.entry.op == 0x22 && c.chanAction == action) = some c := hc
  simp only [State.csRun, hc', State.run, hok, if_true]
  exact he

end ChannelService

/-- Settles O46: each action by the channel's state and the transport's. -/
theorem channelServiceActsOnItsChannel : Obligations.ChannelServiceActsOnItsChannel := by
  unfold Obligations.ChannelServiceActsOnItsChannel
  refine fun s c => ⟨?_, fun hok => ⟨fun hc => cs_runs rfl hc hok rfl, fun hc => ⟨fun hst => ?_, fun hst => ⟨_, rfl, ?_⟩, fun hst hl h4 => ?_,
      fun hst hroom => ⟨fun hw => ?_, fun hw => ⟨_, rfl, ?_⟩⟩⟩, fun hc => ⟨fun hst => ?_, fun hst => ⟨_, rfl, ?_⟩⟩,
    fun hc => ⟨fun hw => ?_, fun hw => ⟨_, rfl, ?_⟩⟩⟩⟩
  · simp only [List.forall_mem_cons]
    exact ⟨⟨cs_none rfl, cs_fails rfl⟩, ⟨cs_none rfl, cs_fails rfl⟩, ⟨cs_none rfl, cs_fails rfl⟩, ⟨cs_none rfl, cs_fails rfl⟩, nofun⟩
  · exact cs_runs rfl hc hok (by simp only [hst]; rfl)
  · exact cs_runs rfl hc hok (by simp only [hst]; rfl)
  · refine cs_runs rfl hc hok ?_
    simp only [hst]
    exact if_pos (by simp [hl, h4])
  · refine cs_runs rfl hc hok ?_
    simp only [hst]
    refine (if_neg ?_).trans (if_pos hw)
    rcases hroom with h | h
    · simp [h]
    · simp [Nat.not_le.2 h]
  · refine cs_runs rfl hc hok ?_
    simp only [hst]
    refine (if_neg ?_).trans (if_neg (Bool.eq_false_iff.1 hw))
    rcases hroom with h | h
    · simp [h]
    · simp [Nat.not_le.2 h]
  · refine cs_runs rfl hc hok ?_
    rw [if_neg (mt beq_iff_eq.1 hst)]; rfl
  · refine cs_runs rfl hc hok ?_
    rw [if_pos (beq_iff_eq.2 hst)]; rfl
  · exact cs_runs rfl hc hok (if_pos hw)
  · exact cs_runs rfl hc hok (if_neg (Bool.eq_false_iff.1 hw))

/-! ### A frame taken -/

section Frames

variable {s e : State} {n t sn ty since : Nat} {f : Frame}

theorem State.takeFrame_bad (hf : frameOk f = false) :
    s.takeFrame n ty f = (s.modLn n fun l => { l with framesBad := wrapAdd l.framesBad 1 }, false) := by
  simp only [State.takeFrame, hf, Bool.not_false, if_true]

theorem State.takeFrame_idle (hf : frameOk f = true) (h : ((s.ln n).state ≠ .up ∧ (s.ln n).state ≠ .rejoining) ∨ fld f.w0 7 0 ≠ ty) :
    s.takeFrame n ty f = (s, false) := by
  have hno : (fld f.w0 7 0 == ty && ((s.ln n).state == .up || (s.ln n).state == .rejoining)) = false := by
    rcases h with ⟨hu, hr⟩ | h
    · simp [hu, hr]
    · simp [h]
  simp only [State.takeFrame, hf, Bool.not_true, Bool.false_eq_true, if_false, hno]

theorem State.takeFrame_good (hf : frameOk f = true) (hty : fld f.w0 7 0 = ty) (h : (s.ln n).state = .up ∨ (s.ln n).state = .rejoining) :
    s.takeFrame n ty f = (s, true) := by
  have hyes : (fld f.w0 7 0 == ty && ((s.ln n).state == .up || (s.ln n).state == .rejoining)) = true := by
    rcases h with h | h <;> simp [hty, h]
  simp only [State.takeFrame, hf, Bool.not_true, Bool.false_eq_true, if_false, hyes]

/-- The rows of a frame that is not acted on. -/
theorem sampleFrame_leaves {z : State} (hp : s.lanePresent n = true) (h : s.takeFrame n 1 f = (z, false)) : Safety.Takes (.sampleFrame n f) s z := by
  refine (if_neg (by simp [hp])).trans ?_
  rw [h]; rfl
theorem controlFrame_leaves {z : State} (hp : s.lanePresent n = true) (h : s.takeFrame n 3 f = (z, false)) : Safety.Takes (.controlFrame n f since) s z := by
  refine (if_neg (by simp [hp])).trans ?_
  rw [h]; rfl
theorem managementResponse_leaves {z : State} (hp : s.lanePresent n = true) (h : s.takeFrame n 4 f = (z, false)) :
    Safety.Takes (.managementResponse n f) s z := by
  refine (if_neg (by simp [hp])).trans ?_
  rw [h]; rfl

/-! ### Sample frames -/

/-- A change of a transport's link is what it makes of that link. -/
theorem State.modLink_congr {g h : Link → Link} (hgh : g (s.tp t).link = h (s.tp t).link) : s.modLink t g = s.modLink t h :=
  congrArg (fun x => s.modTps fun m => Tab.set t { s.tp t with link := x } m) hgh

/-- The frame's number taken: the next expected, or a gap filled. -/
def Link.numbered (l : Link) (sn : Nat) : Link :=
  if l.snNext ≤ sn then
    let k := min 256 (sn - l.snNext)
    let miss := l.snMissing ++ (List.range k).map (sn - k + ·)
    { l with snMissing := miss.drop (miss.length - 256), snNext := sn + 1, snHigh := max l.snHigh sn }
  else { l with snMissing := l.snMissing.filter (· != sn) }

/-- The lane that proposed is Up at its switch frame. -/
def State.switched (s : State) (n sn : Nat) : State :=
  if (s.ln n).state == .rejoining && (s.ln n).proposing && (s.ln n).switchSn.toNat ≤ sn then s.rejoined n else s

/-- A sample frame taken. -/
theorem sampleFrame_row (hp : s.lanePresent n = true) (h : s.takeFrame n 1 f = (s, true))
    (he : (let z := (s.modLink (s.tpOf n) fun l => l.numbered (fld f.w1 47 0)).switched n (fld f.w1 47 0)
      let l := (s.tp (s.tpOf n)).link
      if z.pm.state = 0 && (l.snNext ≤ fld f.w1 47 0 || l.snMissing.contains (fld f.w1 47 0)) && (z.mot (s.tpOf n)).state.moving then
        z.adapt (s.tpOf n) f else z) = e) : Safety.Settles (.sampleFrame n f) s e := by
  subst he
  refine (if_neg (by simp [hp])).trans ?_
  rw [h]
  exact congrArg (commit s) (apply_ite State.settle ..).symm

/-! ### Resends -/

/-- A number that has not come. -/
def State.awaits (s : State) (t sn : Nat) : Prop := s.tpExists t = true ∧ (sn ∈ (s.tp t).link.snMissing ∨ sn = (s.tp t).link.snNext)

theorem State.awaits_iff (s : State) (t sn : Nat) :
    ¬ (!s.tpExists t || !((s.tp t).link.snMissing.contains sn || sn == (s.tp t).link.snNext)) = true ↔ s.awaits t sn := by
  simp [State.awaits, or_iff_not_imp_left]

/-- The lane that asks for number `sn` again. -/
def State.askingLane (s : State) (t sn : Nat) : Nat :=
  match s.upLanes t with
  | [a, b] => if (if s.isPaired t then t + sn % 2 else t) = a then b else a
  | a :: _ => a
  | [] => t

theorem resendRequest_row (hw : s.awaits t sn) (hup : s.upLanes t ≠ []) {use : Nat} (huse : s.askingLane t sn = use) :
    let own := if s.isPaired t then t + sn % 2 else t
    Safety.Takes (.resendRequest t sn) s
      (((s.sendLink t 4 (s.laneBit use) sn).modLn own fun x => { x with reqd := wrapAdd x.reqd 1 }).stat (stLane own 4) 1) := by
  subst huse
  obtain ⟨hx, hsn⟩ := hw
  refine if_neg ?_
  rcases hsn with hsn | hsn <;> simp [hx, hup, hsn]

/-! ### Control frames -/

/-- What a control frame leaves in TP_FE, and its two events. -/
def State.controlTaken (s : State) (t : Nat) (f : Frame) (since : Nat) : State :=
  let clips := fld f.w2 31 0
  let x := (s.tp t).fe
  let vm := fld f.w1 31 16
  let vl := fld f.w1 47 32
  let temp := signed 16 (fld f.w1 15 0)
  let lim : Int := (8 * s.pm.tlim.toNat : Nat)
  let good : Bool := nearUp (some (x.upVmot.getD vm)) vm && nearUp (some (x.upVlog.getD vl)) vl
  let run := if good then x.supplyOk + 1 else 0
  let hot : Bool := x.tempArmed && decide (lim ≤ temp)
  let low : Bool := x.supplyArmed && !good
  let z := s.modFe t fun y =>
    { y with temp := BitVec.ofNat 16 (fld f.w1 15 0), vmot := BitVec.ofNat 16 vm, vlog := BitVec.ofNat 16 vl,
             clip := if clips = 0 then y.clip else wrapAdd y.clip 1, late := if 3 < since then wrapAdd y.late 1 else y.late,
             upVmot := some (x.upVmot.getD vm), upVlog := some (x.upVlog.getD vl), supplyOk := run,
             tempArmed := if hot then false else y.tempArmed || decide (temp ≤ lim - 40),
             supplyArmed := if low then false else y.supplyArmed || decide (10 ≤ run) }
  let z1 := z.each ((List.range 32).filter fun c => clips.testBit c) fun s c => s.modChan t c fun y => { y with clipped := wrapAdd y.clipped 1 }
  let z2 := if hot then z1.raise (evTp t 25) else z1
  if low then z2.raise (evTp t 26) else z2

theorem controlFrame_row (hp : s.lanePresent n = true) (h : s.takeFrame n 3 f = (s, true)) :
    Safety.Takes (.controlFrame n f since) s (s.controlTaken (s.tpOf n) f since) := by
  refine (if_neg (by simp [hp])).trans ?_
  rw [h]; rfl

/-! ### Management -/

theorem managementResponse_row (hp : s.lanePresent n = true) (h : s.takeFrame n 4 f = (s, true))
    (he : (match (if bit f.w0 24 then (s.tp (s.tpOf n)).link.outstanding (fld f.w0 47 32) else none) with
      | some r => s.mgmtEnd (s.tpOf n) r.tag
      | none => s) = e) : Safety.Takes (.managementResponse n f) s e := by
  subst he
  refine (if_neg (by simp [hp])).trans ?_
  rw [h]
  dsimp only
  cases (if bit f.w0 24 then (s.tp (s.tpOf n)).link.outstanding (fld f.w0 47 32) else none) <;> rfl

theorem managementTimeout_row {tag : Nat} {r : MgmtReq} (hr : (s.tp t).link.outstanding tag = some r) :
    exec (.managementTimeout t tag) s =
      if r.retries < 2 then
        commit s ((s.modLink t fun l => { l with mgmt := l.mgmt.map fun x => if x.tag == tag then { x with retries := x.retries + 1 } else x }).emitMgmt t r)
      else commit s (if (s.mot t).state == .loading then ((s.mgmtEnd t tag).raise (evTp t 24)).loadFailed t
        else ((s.mgmtEnd t tag).raise (evTp t 24)).controlledStop t (.outOfService 9)).settle := by
  change execManagementTimeout t tag s = _
  simp only [execManagementTimeout, hr]

end Frames

/-- Settles O47: what a frame's header and lane decide, then each kind of frame. -/
theorem framesAreTakenOrCounted : Obligations.FramesAreTakenOrCounted := by
  unfold Obligations.FramesAreTakenOrCounted
  refine ⟨fun s n since f => ⟨fun hp => ⟨if_pos (by simp [hp]), if_pos (by simp [hp]), if_pos (by simp [hp])⟩, fun hp hf =>
      ⟨sampleFrame_leaves hp (State.takeFrame_bad hf), controlFrame_leaves hp (State.takeFrame_bad hf), managementResponse_leaves hp (State.takeFrame_bad hf)⟩,
      fun hp hf => ⟨fun h => sampleFrame_leaves hp (State.takeFrame_idle hf h), fun h => controlFrame_leaves hp (State.takeFrame_idle hf h),
        fun h => managementResponse_leaves hp (State.takeFrame_idle hf h)⟩⟩,
    fun s n f hp hf hty hl => ⟨s.modLink (s.tpOf n) fun l => l.numbered (fld f.w1 47 0), State.modLink_congr rfl, _, rfl, ?_⟩,
    fun s t sn => ⟨fun h => ⟨if_pos ?_, if_pos (not_not.1 (mt (s.awaits_iff t sn).1 h))⟩, fun h => if_pos (by simp [h]),
      ⟨fun a hw hup => ?_, fun a b hw hup => ⟨fun ho => ?_, fun ho => ?_⟩⟩, fun hw => if_neg ((s.awaits_iff t sn).2 hw)⟩,
    fun s n since f hp hf hty hl => ⟨_, rfl, _, rfl, _, rfl, controlFrame_row hp (State.takeFrame_good hf hty hl)⟩,
    fun s n f hp hf hty hl => ⟨fun h => ?_, fun r hb hr => ?_⟩,
    fun s t tag => ⟨fun h => ?_, fun r hr => ⟨fun h2 => ?_, fun h2 hst => ?_, fun h2 hst => ?_⟩⟩⟩
  · refine sampleFrame_row hp (State.takeFrame_good hf hty hl) ?_
    simp only [State.switched, Bool.and_eq_true, Bool.or_eq_true, decide_eq_true_eq, beq_iff_eq, List.contains_iff_mem, and_assoc]
    rfl
  · have hn := not_not.1 (mt (s.awaits_iff t sn).1 h)
    rw [Bool.or_eq_true] at hn
    rcases hn with hn | hn <;> simp only [hn, Bool.true_or, Bool.or_true]
  · exact resendRequest_row hw (by simp [hup]) (by simp only [State.askingLane, hup])
  · exact resendRequest_row hw (by simp [hup]) (by simp only [State.askingLane, hup]; exact if_pos ho)
  · exact resendRequest_row hw (by simp [hup]) (by simp only [State.askingLane, hup]; exact if_neg ho)
  · refine managementResponse_row hp (State.takeFrame_good hf hty hl) ?_
    rcases h with h | h
    · rw [if_neg (by simp [h])]
    · rw [h, ite_self]
  · refine managementResponse_row hp (State.takeFrame_good hf hty hl) ?_
    rw [if_pos hb, hr]
  · change execManagementTimeout t tag s = _
    simp only [execManagementTimeout, h]; rfl
  · refine (managementTimeout_row hr).trans ((if_pos h2).trans ?_)
    simp only [beq_iff_eq]; rfl
  · exact settles_of_commit ((managementTimeout_row hr).trans (if_neg (Nat.not_lt.2 h2))) (if_neg (mt beq_iff_eq.1 hst))
  · exact settles_of_commit ((managementTimeout_row hr).trans (if_neg (Nat.not_lt.2 h2))) (if_pos (beq_iff_eq.2 hst))

end Sys2Proof.Machine

end

section

/-! PROOF. O48, O49 and O50: the front-end's words, the slots' jobs, and lost feedback. -/

namespace Sys2Proof.Machine

section Words

variable {s s1 : State} {n : Nat} {slot : XSlot} {p : Word}

/-! ### SERVO words -/

/-- What an accepted SERVO word says of the tape's place. -/
def State.servoRead (s : State) (t : Nat) (p : Word) : State :=
  (s.modFe t fun x =>
    { x with y0 := signed 16 (fld p 15 0), y1 := signed 16 (fld p 31 16), speedRaw := fld p 47 32, dirEot := bit p 52, v0 := bit p 50,
             v1 := bit p 51 }).modMot t fun m =>
    { m with x := m.x + (match (s.mot t).fcount with
                          | some o => (if bit p 52 then 1 else -1) * (((fld p 63 53 + 2048 - o) % 2048 : Nat) : Int)
                          | none => 0), fcount := some (fld p 63 53) }

/-- The distance of a servo reading from the track's middle is within `lim`. -/
def withinLimit (y lateral lim : Int) : Bool := decide (((y - lateral).natAbs : Int) ≤ lim)

/-- What a SERVO word does once it is read: the acquisition or the end of a hold, the servo's job, and the guard unit's judgement. -/
def State.servoJudged (z : State) (t : Nat) (m : Motion) (good near held : Bool) (p : Word) : State :=
  let f0 := fld p 48 48
  let f1 := fld p 49 49
  let s3 := if !m.servoAcquired && m.state.moving && m.state != .stopping then
      z.modMot t fun m => { m with acquireRun := if near then m.acquireRun + 1 else 0, servoAcquired := near && decide (8 ≤ m.acquireRun + 1),
                                   attempts := if near && 8 ≤ m.acquireRun + 1 then 0 else m.attempts }
    else if held then
      if 8 ≤ (if good then m.holdRun + 1 else 0) then z.resumeServo t else z.modMot t fun x => { x with holdRun := if good then m.holdRun + 1 else 0 }
    else z
  let s4 := if (f0 = 1 || f1 = 1) && s3.slotRuns t 0 then s3.modSlot t 0 fun z => { z with released := true } else s3
  (s4.rearm t [1, 2, 3, 4]).guardWord t f0 f1

theorem State.fe_servoRead (s : State) (t : Nat) (p : Word) : ((s.servoRead t p).tp t).fe =
    { (s.tp t).fe with y0 := signed 16 (fld p 15 0), y1 := signed 16 (fld p 31 16), speedRaw := fld p 47 32, dirEot := bit p 52, v0 := bit p 50,
                       v1 := bit p 51 } := by
  simp only [State.servoRead, State.modMot, State.modFe, State.tp_modTp, if_true]

theorem State.gu_servoRead (s : State) (t : Nat) (p : Word) : ((s.servoRead t p).tp t).gu = (s.tp t).gu := by
  simp only [State.servoRead, State.modMot, State.modFe, State.tp_modTp, if_true]

theorem State.slot_servoRead (s : State) (t k : Nat) (p : Word) : (s.servoRead t p).slot t k = s.slot t k := by
  simp only [State.slot, State.servoRead, State.modMot, State.modFe, State.tp_modTp, if_true]

theorem servoWord_row (h : s.accept n 1 slot = (s1, some p)) : exec (.servoWord n slot) s =
    let t := s1.tpOf n
    let z := s1.servoRead t p
    let x := (z.tp t).fe
    let lim : Int := (4 * ((z.tp t).gu.cfg.toNat % 65536) : Nat)
    commit s (z.servoJudged t (s1.mot t) (x.v0 && x.v1)
      (x.v0 && x.v1 && withinLimit x.y0 (z.lateral t) lim && withinLimit x.y1 (z.lateral t) lim) (z.slot t 0).hold p).settle := by
  change execServoWord n slot s = _
  rw [execServoWord, h]
  rfl

theorem State.servoJudged_eq (z : State) (t : Nat) (m : Motion) (good near held : Bool) (p : Word) : z.servoJudged t m good near held p =
    let z1 := if m.servoAcquired = false ∧ m.state.moving = true ∧ m.state ≠ .stopping then
        z.modMot t fun m => { m with acquireRun := if near then m.acquireRun + 1 else 0, servoAcquired := near && decide (8 ≤ m.acquireRun + 1),
                                     attempts := if near && decide (8 ≤ m.acquireRun + 1) then 0 else m.attempts }
      else if held = true then
        (if 8 ≤ (if good then m.holdRun + 1 else 0) then z.resumeServo t else z.modMot t fun x => { x with holdRun := if good then m.holdRun + 1 else 0 })
      else z
    let z2 := if (fld p 48 48 = 1 ∨ fld p 49 49 = 1) ∧ z1.slotRuns t 0 = true then z1.modSlot t 0 fun y => { y with released := true } else z1
    (z2.rearm t [1, 2, 3, 4]).guardWord t (fld p 48 48) (fld p 49 49) := by
  simp only [State.servoJudged, Bool.and_eq_true, Bool.not_eq_true', bne_iff_ne, Bool.or_eq_true, decide_eq_true_eq, and_assoc]

theorem servoWord_settles (h : s.accept n 1 slot = (s1, some p)) :
    let t := s1.tpOf n
    let z := s1.servoRead t p
    let lim : Int := (4 * ((s1.tp t).gu.cfg.toNat % 65536) : Nat)
    let good := bit p 50 && bit p 51
    let near := good && withinLimit (signed 16 (fld p 15 0)) (z.lateral t) lim && withinLimit (signed 16 (fld p 31 16)) (z.lateral t) lim
    Safety.Settles (.servoWord n slot) s (z.servoJudged t (s1.mot t) good near (s1.slot t 0).hold p) := by
  refine (servoWord_row h).trans ?_
  simp only [State.fe_servoRead, State.gu_servoRead, State.slot_servoRead]
  rfl


/-! ### TACH and SENSE words -/

/-- The rate of edges between two counts, `free` where no time passed between them. -/
def edgeRate (new old gap : Nat) (free : Int) : Int := if gap = 0 then free else (((new + 65536 - old) % 65536 * 100000000 / gap : Nat) : Int)

/-- What an accepted TACH word says of the reels' edges. -/
def State.edgesRead (s : State) (t : Nat) (p : Word) (fa fb : Int) : State :=
  let f := (s.tp t).fe
  s.modFe t fun x =>
    { x with edgeA := if fld p 15 0 = f.tachA.1 then x.edgeA else edgeRate (fld p 15 0) f.tachA.1 ((fld p 31 16 + 65536 - f.tachA.2) % 65536) fa,
             tachA := if fld p 15 0 = f.tachA.1 then x.tachA else (fld p 15 0, fld p 31 16),
             edgeB := if fld p 47 32 = f.tachB.1 then x.edgeB else edgeRate (fld p 47 32) f.tachB.1 ((fld p 63 48 + 65536 - f.tachB.2) % 65536) fb,
             tachB := if fld p 47 32 = f.tachB.1 then x.tachB else (fld p 47 32, fld p 63 48) }

/-- The reels' ratios, where the servo is valid. -/
def State.ratiosRead (z : State) (t : Nat) (known : Bool) (ra rb : BitVec 32) : State :=
  if known then z.modGu t fun g => { g with ratioA := ra, ratioB := rb } else z

theorem State.freeCtr_ratiosRead (s : State) (t : Nat) (p : Word) (fa fb : Int) (known : Bool) (ra rb : BitVec 32) :
    ((s.edgesRead t p fa fb).ratiosRead t known ra rb).freeCtr = s.freeCtr := by
  rw [State.ratiosRead]; split <;> rfl

theorem tachWord_row (h : s.accept n 2 slot = (s1, some p)) : exec (.tachWord n slot) s =
    let t := s1.tpOf n
    let f := (s1.tp t).fe
    let z := (s1.edgesRead t p (signed 32 (Config.freeWord (s1.freeCtr + 0)).toNat) (signed 32 (Config.freeWord (s1.freeCtr + 1)).toNat)).ratiosRead t (f.v0 || f.v1)
      ((Config.freeWord (s1.freeCtr + 2)).setWidth 32) ((Config.freeWord (s1.freeCtr + 3)).setWidth 32)
    commit s ((z.takeN 4).rearm t [5, 6]).settle := by
  change execTachWord n slot s = _
  rw [execTachWord, h]
  rfl


theorem State.mot_senseRead (s : State) (t : Nat) (f : FrontEnd → FrontEnd) (g : Solenoids → Solenoids) (c : Bool) :
    ((((s.modFe t f).modSol t g).modMot t fun m => { m with cartPresent := c }).mot t).state = (s.mot t).state := by
  simp only [State.mot, State.modMot, State.modSol, State.modFe, State.tp_modTp, if_true]

/-! ### STATUS words -/

/-- What an accepted STATUS word says of the lane, the write FIFO and the gate. -/
def State.statusRead (s : State) (n : Nat) (slot : XSlot) (p : Word) : State :=
  let t := s.tpOf n
  let d := (fld p 31 16 + 65536 - (s.ln n).rxUncorr.toNat) % 65536
  let win := ((s.ln n).window.filter fun k => decide (slot.period < k + 1048576)) ++ List.replicate (min 17 d) slot.period
  let z := (s.modLn n fun l =>
    { l with rxUncorr := BitVec.ofNat 16 (fld p 31 16), wdog := if bit p 9 then wrapAdd l.wdog 1 else l.wdog, window := win }).modFe t fun x =>
      { x with wfill := fld p 7 0, gate := bit p 8, asAct := bit p 11 }
  let z2 := if bit p 9 = true ∨ bit p 10 = true then (z.modGu t fun g => { g with gate := false, openReq := none }).cutWrites t else z
  if bit p 12 = true then z2.selfStopped t else z2

theorem statusWord_row (h : s.accept n 4 slot = (s1, some p)) : exec (.statusWord n slot) s =
    let z := s1.statusRead n slot p
    commit s (if 16 < (z.ln n).window.length then z.failLane n else z).settle := by
  change execStatusWord n slot s = _
  rw [execStatusWord, h]
  simp only [State.statusRead, Bool.or_eq_true]
  rfl

end Words

/-- Settles O48: a word that is not accepted, then each accepted word by what it says. -/
theorem wordsOfTheFrontEndAct : Obligations.WordsOfTheFrontEndAct := by
  unfold Obligations.WordsOfTheFrontEndAct
  refine ⟨fun s s1 n slot => ⟨fun h => ?_, fun h => ?_, fun h => ?_, fun h => ?_⟩,
    fun s s1 n slot p h => (servoWord_settles h).trans (congrArg (fun e => commit s (State.settle e)) (State.servoJudged_eq ..)),
    fun s s1 n slot p h => ?_, 
    fun s s1 n slot p h => ⟨fun hb ho => ?_, fun hb => ?_⟩,
   fun s s1 n slot p h => ⟨s1.statusRead n slot p, rfl, fun hw => settles_of_commit (statusWord_row h) (if_neg (Nat.not_lt.2 hw)), fun hw => settles_of_commit (statusWord_row h) (if_pos hw)⟩⟩
  · change execServoWord n slot s = _
    simp only [execServoWord, h]; rfl
  · change execTachWord n slot s = _
    simp only [execTachWord, h]; rfl
  · change execSenseWord n slot s = _
    simp only [execSenseWord, h]; rfl
  · change execStatusWord n slot s = _
    simp only [execStatusWord, h]; rfl
  · refine ⟨signed 32 (Config.freeWord (s1.freeCtr + 0)).toNat, signed 32 (Config.freeWord (s1.freeCtr + 1)).toNat,
      (Config.freeWord (s1.freeCtr + 2)).setWidth 32, (Config.freeWord (s1.freeCtr + 3)).setWidth 32,
      (tachWord_row h).trans (congrArg (fun e => commit s (State.settle (State.rearm e (s1.tpOf n) [5, 6]))) ?_)⟩
    rw [State.takeN, State.freeCtr_ratiosRead]
    simp only [State.ratiosRead, Bool.or_eq_true]
    rfl
  · change execSenseWord n slot s = commit s (State.settle _)
    simp only [execSenseWord, h]
    refine if_pos ?_
    rw [State.mot_senseRead]
    simp [hb, ho]
  · change execSenseWord n slot s = commit s (State.settle _)
    simp only [execSenseWord, h]
    refine if_neg ?_
    rw [State.mot_senseRead]
    rcases hb with hb | hb <;> simp [hb]

/-! ### Jobs -/

section Jobs

variable {s : State} {t k : Nat}

/-- A slot that runs. -/
def State.slotFree (s : State) (t k : Nat) : Prop := k < 8 ∧ s.slotRuns t k = true

theorem State.not_slotFree_iff (s : State) (t k : Nat) : (decide (8 ≤ k) || !s.slotRuns t k) = true ↔ ¬ s.slotFree t k := by
  rw [State.slotFree, Bool.or_eq_true, decide_eq_true_eq, Bool.not_eq_true', not_and_or, not_lt, Bool.not_eq_true]

theorem slotRelease_stays (h : k = 0 ∨ ¬ s.slotFree t k) : Safety.Takes (.slotRelease t k) s s := by
  rw [← State.not_slotFree_iff] at h
  exact if_pos (by simpa [or_assoc] using h)

theorem slotRelease_runs (hk : k ≠ 0) (h : s.slotFree t k) : exec (.slotRelease t k) s =
    if (s.slot t k).released then commit s (((s.deadlineMissed t k).modSlot t k fun z => { z with released := true }).settle)
    else commit s (s.modSlot t k fun z => { z with released := true }) :=
  if_neg (by simp [hk, h.1, h.2])

theorem slotJob_stays (h : ¬ s.slotFree t k ∨ (s.slot t k).released = false ∨ s.jobAhead t k = true) : Safety.Takes (.slotJob t k) s s := by
  rw [← State.not_slotFree_iff, Bool.or_eq_true] at h
  exact if_pos (by rcases h with (h | h) | h | h <;> simp [h])

/-- Where the job of a slot leaves the part, before a stop without a tachometer may end. -/
def State.jobEnd (s : State) (t k : Nat) : State :=
  let z := s.slot t k
  let x32 := loopX32 z.w0
  let m := if z.sensorless then (in32 x32 (s.reelEstimate t (k == 3) z.bemf * 2048), false) else s.measure t x32 (loopInput z.w0)
  let s1 := if m.2 then s.take else s
  let r := if loopRef z.w0 then s1.planRef t k x32 else (0, false)
  let s2 := if r.2 then s1.take else s1
  let f := s2.feedforward t x32 (loopFf z.w0)
  let s3 := if f.2 then s2.take else s2
  let clear := if z.clrState then z.clearStates true else z
  let now := if z.pending then { clear with active := z.commitWords, pending := false } else z
  (((s3.modSlot t k fun _ => { loopJob now m.1 r.1 f.1 with
    released := false, missRun := 0, lastM := some m.1, sameRun := if z.lastM = some m.1 then z.sameRun + 1 else 1 }).sendOutput t k).jobRan t k).rearm t [0x10 + k]

theorem slotJob_runs (h : s.slotFree t k) (hr : (s.slot t k).released = true) (ha : s.jobAhead t k = false) : exec (.slotJob t k) s =
    commit s (if (s.slot t k).sensorless && (s.jobEnd t k).reelSlow t k then ((s.jobEnd t k).endSensorless t).settle else s.jobEnd t k) :=
  if_neg (by simp [hr, ha, h.1, h.2])

theorem coefCommit_eq (hx : s.tpExists t = true) (hk : k < 8) (hr : (s.tp t).ld.resetting = false) (clr : Bool) : s.coefCommit t k clr =
    match coefFirstBad (s.slot t k).w0 (s.slot t k).shadow with
    | none => s.modSlot t k fun z => { z with pending := true, commitWords := z.shadow, clrState := clr, err := false, errIdx := 0 }
    | some i => s.modSlot t k fun z => { z with err := true, errIdx := i } :=
  if_neg (by simp [hx, hk, hr])

end Jobs

/-- Settles O49: a release by the slot's last job, a job by what stands before it, and a commit by its check. -/
theorem slotsReleaseRunAndCommit : Obligations.SlotsReleaseRunAndCommit := by
  unfold Obligations.SlotsReleaseRunAndCommit
  refine fun s t k => ⟨slotRelease_stays, fun hk h hr => (slotRelease_runs hk h).trans (if_neg (by simp [hr])),
    fun hk h hr => (slotRelease_runs hk h).trans (if_pos hr), slotJob_stays, fun h hr ha => ?_,
    fun clr => ⟨fun h => congrArg (commit s) (if_pos ?_), fun hx hk hr => ⟨fun hb => congrArg (commit s) ?_, fun i hb => congrArg (commit s) ?_⟩⟩⟩
  · refine ⟨s.jobEnd t k, rfl, fun hs => (slotJob_runs h hr ha).trans (congrArg (commit s) (if_neg ?_)),
      fun hs hl => (slotJob_runs h hr ha).trans (congrArg (commit s) (if_pos (Bool.and_eq_true_iff.2 ⟨hs, hl⟩)))⟩
    rw [Bool.and_eq_true, not_and_or, Bool.not_eq_true, Bool.not_eq_true]
    exact hs
  · simpa [or_assoc] using h
  · rw [coefCommit_eq hx hk hr, hb]
  · rw [coefCommit_eq hx hk hr, hb]

/-! ### Lost feedback -/

section Feedback

variable {s : State} {t k : Nat}

/-- A slot whose measurement has stood still long enough, at an output that should have moved it. -/
def State.frozenDue (s : State) (t k : Nat) : Prop :=
  let z := s.slot t k
  (3 < k ∨ 1000 ≤ (s.mot t).vel.natAbs) ∧ 0 < loopFreezeM z.w0 ∧ loopFreezeM z.w0 ≤ z.sameRun ∧ ((loopFreezeThr z.w1 : Nat) : Int) < (z.out.natAbs : Int)

theorem State.frozenDue_iff (s : State) (t k : Nat) :
    ((decide (k > 3) || decide (1000 ≤ (s.mot t).vel.natAbs)) && decide (0 < loopFreezeM (s.slot t k).w0) &&
      decide (loopFreezeM (s.slot t k).w0 ≤ (s.slot t k).sameRun) && decide (((loopFreezeThr (s.slot t k).w1 : Nat) : Int) < ((s.slot t k).out.natAbs : Int))) = true ↔
      s.frozenDue t k := by
  simp only [State.frozenDue, Bool.and_eq_true, Bool.or_eq_true, decide_eq_true_eq, gt_iff_lt, and_assoc]

theorem staleDetect_stale (h : s.slotFree t k) : Safety.Settles (.staleDetect t k .stale) s
    (((s.modSlot t k fun z => { z with stale := true, stales := wrapAdd z.stales 1 }).stat (stTp t 21) 1).lostFeedback t k) :=
  if_neg (mt (s.not_slotFree_iff t k).1 (not_not.2 h))

theorem staleDetect_frozen (h : s.slotFree t k) : exec (.staleDetect t k .frozen) s =
    if (decide (k > 3) || decide (1000 ≤ (s.mot t).vel.natAbs)) && decide (0 < loopFreezeM (s.slot t k).w0) &&
      decide (loopFreezeM (s.slot t k).w0 ≤ (s.slot t k).sameRun) && decide (((loopFreezeThr (s.slot t k).w1 : Nat) : Int) < ((s.slot t k).out.natAbs : Int)) then
      commit s ((((s.modSlot t k fun z => { z with frozen := true, freezes := wrapAdd z.freezes 1, sameRun := 0 }).stat (stTp t 22) 1).lostFeedback t k).settle)
    else commit s s :=
  if_neg (mt (s.not_slotFree_iff t k).1 (not_not.2 h))

/-- A reel runs without its tachometer, or the tension loop is at fault. -/
def State.sensorLost (s : State) (t : Nat) : Prop :=
  (s.slot t 2).sensorless = true ∨ (s.slot t 3).sensorless = true ∨ (s.slot t 4).fault = true

theorem State.sensorLost_iff (s : State) (t : Nat) :
    ((s.slot t 2).sensorless || (s.slot t 3).sensorless || (s.slot t 4).fault) = true ↔ s.sensorLost t := by
  simp only [State.sensorLost, Bool.or_eq_true, or_assoc]

theorem State.endSensorless_of_other {s : State} {t : Nat} (h : (s.mot t).state ≠ .stopping ∨ ∀ c, (s.mot t).stopGoal ≠ .outOfService c) :
    s.endSensorless t = s := by
  rw [State.endSensorless]
  split
  case h_1 c hst hg => exact absurd hg (h.elim (absurd hst) fun h => h c)
  case h_2 => rfl

theorem State.endSensorless_of_stopping {s : State} {t c : Nat} (hst : (s.mot t).state = .stopping) (hg : (s.mot t).stopGoal = .outOfService c) :
    s.endSensorless t = s.enterOos t c := by
  rw [State.endSensorless, hst, hg]

theorem sensorlessStopLimit_row {e : State} (h : s.sensorLost t) (he : s.endSensorless t = e) : Safety.Settles (.sensorlessStopLimit t) s e := by
  subst he
  exact congrArg (commit s) (if_pos ((s.sensorLost_iff t).2 h))

/-- A transport that moves under way without servo. -/
def Motion.seeks (m : Motion) : Prop :=
  (m.state = .streaming ∨ m.state = .locating ∨ m.state = .unloading) ∧ m.vel ≠ 0 ∧ m.servoAcquired = false

theorem Motion.seeks_iff (m : Motion) :
    ((m.state == .streaming || m.state == .locating || m.state == .unloading) && m.vel != 0 && !m.servoAcquired) = true ↔ m.seeks := by
  simp [Motion.seeks, and_assoc, or_assoc]

theorem servoAcquireFail_last (h : (s.mot t).seeks) (hn : 3 ≤ max 1 (s.mot t).attempts) : exec (.servoAcquireFail t) s =
    commit s ((if (s.mot t).state == .unloading then ((s.modMot t fun m => { m with attempts := 0 }).raise (evTp t 16)).enterOos t 2
      else ((s.modMot t fun m => { m with attempts := 0 }).raise (evTp t 16)).controlledStop t (.outOfService 2)).settle) :=
  (if_pos ((s.mot t).seeks_iff.2 h)).trans (if_pos hn)

/-- The next attempt to acquire servo. -/
def State.acquireAgain (s : State) (t : Nat) : State :=
  let n := max 1 (s.mot t).attempts
  (s.modMot t fun m => { m with attempts := n + 1, acquireRun := 0 }).modSlot t 0 fun z => { z with retries := n + 1 }

theorem servoAcquireFail_again (h : (s.mot t).seeks) (hn : max 1 (s.mot t).attempts < 3) : exec (.servoAcquireFail t) s =
    commit s ((if (s.mot t).state == .unloading then
        (((s.acquireAgain t).gateClose t 5).cutWrites t).modMot t fun m => { m with vel := 0, target := none, x := s.standbyX t }
      else (s.acquireAgain t).controlledStop t .parked).settle) :=
  (if_pos ((s.mot t).seeks_iff.2 h)).trans (if_neg (Nat.not_le.2 hn))

end Feedback

/-- Settles O50: each row by what was lost, and a failed acquisition by its attempts. -/
theorem lostFeedbackIsAnswered : Obligations.LostFeedbackIsAnswered := by
  unfold Obligations.LostFeedbackIsAnswered
  refine fun s t k => ⟨fun h => if_neg (by rcases h with h | h <;> simp [h]), fun hk hr => if_pos (by simp [hk, hr]), fun h kind => if_pos (by simpa using h),
    fun hk hr => ⟨staleDetect_stale ⟨hk, hr⟩, fun h => (staleDetect_frozen ⟨hk, hr⟩).trans (if_neg (mt (s.frozenDue_iff t k).1 h)),
      fun h => (staleDetect_frozen ⟨hk, hr⟩).trans (if_pos ((s.frozenDue_iff t k).2 h))⟩,
    fun h => if_neg (by simp [h]), fun h => ⟨_, rfl, if_pos h⟩, fun h => if_neg (by rcases h with h | h <;> simp [h]), fun hx hp => if_pos (by simp [hx, hp]),
    ⟨fun h => congrArg (commit s) (if_neg (mt (s.sensorLost_iff t).1 h)), fun h ho => sensorlessStopLimit_row h (State.endSensorless_of_other ho),
      fun c h hst hg => sensorlessStopLimit_row h (State.endSensorless_of_stopping hst hg)⟩,
    fun h => if_neg (mt (s.mot t).seeks_iff.1 h),
    fun h hn hst => settles_of_commit (servoAcquireFail_last h hn) (if_pos (beq_iff_eq.2 hst)),
    fun h hn hst => settles_of_commit (servoAcquireFail_last h hn) (if_neg (mt beq_iff_eq.1 hst)),
    fun h hn hst => settles_of_commit (servoAcquireFail_again h hn) (if_pos (beq_iff_eq.2 hst)),
    fun h hn hst => settles_of_commit (servoAcquireFail_again h hn) (if_neg (mt beq_iff_eq.1 hst))⟩

end Sys2Proof.Machine

end

section

/-! PROOF. O53 and O54: device power states, and the 1 ms clock. -/

namespace Sys2Proof.Machine

/-! ### What an entry's steps leave -/

/-- The exit and the cut under way, the lanes, and the readiness bits. -/
def State.poise (s : State) : Bool × Option WakeCause × Tab Lane × BitVec 28 := (s.pm.exiting, s.pm.cut, s.lanes, s.dev.ready)

theorem State.poise_congr {s s' : State} (hp : s'.pm = s.pm) (hl : s'.lanes = s.lanes) (hd : s'.dev = s.dev) : s'.poise = s.poise := by
  simp only [State.poise, hp, hl, hd]

@[simp] theorem State.modDev_poise (s : State) (f : Device → Device) (h : (f s.dev).ready = s.dev.ready) : (s.modDev f).poise = s.poise := by
  rw [State.poise, State.modDev, h]; rfl
@[simp] theorem State.modEv_poise (s : State) (f : Tab EvSource → Tab EvSource) : (s.modEv f).poise = s.poise := rfl
@[simp] theorem State.modStats_poise (s : State) (f : Stats → Stats) : (s.modStats f).poise = s.poise := rfl
@[simp] theorem State.modArb_poise (s : State) (f : Arb → Arb) : (s.modArb f).poise = s.poise := rfl
@[simp] theorem State.modBm_poise (s : State) (f : Buffer → Buffer) : (s.modBm f).poise = s.poise := rfl
@[simp] theorem State.modSachet_poise (s : State) (f : Sachet → Sachet) : (s.modSachet f).poise = s.poise := rfl
@[simp] theorem State.emit_poise (s : State) (o : Output) : (s.emit o).poise = s.poise := rfl
@[simp] theorem State.modPm_poise (s : State) (f : Power → Power) (he : (f s.pm).exiting = s.pm.exiting) (hc : (f s.pm).cut = s.pm.cut) :
    (s.modPm f).poise = s.poise := by
  rw [State.poise, State.modPm, he, hc]; rfl

@[simp] theorem State.each_poise {α : Type} (s : State) (l : List α) (f : State → α → State) (h : ∀ s a, (f s a).poise = s.poise) :
    (s.each l f).poise = s.poise := State.each_invariant State.poise h s l

@[simp] theorem State.modTn_poise (s : State) (u : Nat) (f : Tenant → Tenant) : (State.modTn s u f).poise = s.poise :=
  State.poise_congr (State.modTn_pm s u f) (State.modTn_lanes s u f) (State.modTn_dev s u f)
@[simp] theorem State.modTp_poise (s : State) (t : Nat) (f : Transport → Transport) : (State.modTp s t f).poise = s.poise :=
  State.poise_congr (State.modTp_pm s t f) (State.modTp_lanes s t f) (State.modTp_dev s t f)
@[simp] theorem State.modLd_poise (s : State) (t : Nat) (f : Loading → Loading) : (State.modLd s t f).poise = s.poise := by
  unfold State.modLd
  simp
@[simp] theorem State.modFmt_poise (s : State) (t : Nat) (f : Format → Format) : (State.modFmt s t f).poise = s.poise := by
  unfold State.modFmt
  simp
@[simp] theorem State.setVol_poise (s : State) (v : Nat) (x : Volume) : (State.setVol s v x).poise = s.poise :=
  State.poise_congr (State.setVol_pm s v x) (State.setVol_lanes s v x) (State.setVol_dev s v x)
@[simp] theorem State.modVol_poise (s : State) (v : Nat) (f : Volume → Volume) : (State.modVol s v f).poise = s.poise :=
  State.poise_congr (State.modVol_pm s v f) (State.modVol_lanes s v f) (State.modVol_dev s v f)
@[simp] theorem State.stat_poise (s : State) (i n : Nat) : (State.stat s i n).poise = s.poise :=
  State.poise_congr (State.stat_pm s i n) (State.stat_lanes s i n) (State.stat_dev s i n)
@[simp] theorem State.sendMsix_poise (s : State) (fn vec : Nat) : (State.sendMsix s fn vec).poise = s.poise :=
  State.poise_congr (State.sendMsix_pm s fn vec) (State.sendMsix_lanes s fn vec) (State.sendMsix_dev s fn vec)
@[simp] theorem State.modEvSrc_poise (s : State) (e : Nat) (f : EvSource → EvSource) : (State.modEvSrc s e f).poise = s.poise :=
  State.poise_congr (State.modEvSrc_pm s e f) (State.modEvSrc_lanes s e f) (State.modEvSrc_dev s e f)
@[simp] theorem State.raise_poise (s : State) (e : Nat) : (State.raise s e).poise = s.poise := by
  unfold State.raise
  simp [apply_ite State.poise]
@[simp] theorem State.sachetWrite_poise (s : State) (key n bytes : Nat) : (State.sachetWrite s key n bytes).poise = s.poise := by
  unfold State.sachetWrite
  simp [apply_ite State.poise]
@[simp] theorem State.lifeCkpt_poise (s : State) : (State.lifeCkpt s).poise = s.poise := by
  unfold State.lifeCkpt
  simp
@[simp] theorem State.putSlot_poise (s : State) (reason : Nat) (vols : List CrashVol) : (State.putSlot s reason vols).poise = s.poise := by
  unfold State.putSlot
  simp
@[simp] theorem State.snapshot_poise (s : State) (reason : Nat) : (State.snapshot s reason).poise = s.poise := by
  unfold State.snapshot
  simp
@[simp] theorem State.journal_poise (s : State) (h : Nat) (isV : Bool) (value : Nat) : (State.journal s h isV value).poise = s.poise := by
  unfold State.journal
  simp only []
  (repeat' split) <;> simp
@[simp] theorem State.wholeArea_poise (s : State) (a : Nat) : (State.wholeArea s a).poise = s.poise := by
  unfold State.wholeArea
  simp
@[simp] theorem State.commitDir_poise (s : State) (t : Nat) : (State.commitDir s t).poise = s.poise := by
  unfold State.commitDir
  split <;> simp [apply_ite State.poise]
@[simp] theorem State.commitDirs_poise (s : State) : (State.commitDirs s).poise = s.poise := by
  unfold State.commitDirs
  simp [apply_ite State.poise]
@[simp] theorem State.modDir_poise (s : State) (t : Nat) (f : Directory → Directory) : (State.modDir s t f).poise = s.poise := by
  unfold State.modDir
  simp
@[simp] theorem State.syncDir_poise (s : State) (h : Nat) : (State.syncDir s h).poise = s.poise := by
  unfold State.syncDir
  split <;> simp
@[simp] theorem State.takeDsn_poise (s : State) (t : Nat) : (State.takeDsn s t).2.poise = s.poise := by
  unfold State.takeDsn
  simp only []
  (repeat' split) <;> simp
@[simp] theorem State.halt_poise (s : State) (t : Nat) : (State.halt s t).poise = s.poise := by
  unfold State.halt
  simp [apply_ite State.poise]
@[simp] theorem State.packOn_poise (s : State) (t : Nat) : (State.packOn s t).poise = s.poise := by
  unfold State.packOn
  (repeat' split) <;> simp
@[simp] theorem State.closeGroup_poise (s : State) (t : Nat) : (State.closeGroup s t).poise = s.poise := by
  unfold State.closeGroup
  simp only []
  (repeat' split) <;> simp
@[simp] theorem State.groupCheck_poise (s : State) (t : Nat) : (State.groupCheck s t).poise = s.poise := by
  unfold State.groupCheck
  simp [apply_ite State.poise]
@[simp] theorem State.closeRegion_poise (s : State) (t off : Nat) (r : Region) : (State.closeRegion s t off r).2.poise = s.poise := by
  unfold State.closeRegion
  split <;> simp
@[simp] theorem State.closeDataset_poise (s : State) (t : Nat) : (State.closeDataset s t).poise = s.poise := by
  have fold : ∀ (l : List Region) (a : List Region × Nat × State), (l.foldl (fun (a : List Region × Nat × State) r =>
      let (r1, s') := a.2.2.closeRegion t a.2.1 r
      (a.1 ++ [r1], a.2.1 + (regionAll r1).length, s')) a).2.2.poise = a.2.2.poise := by
    intro l
    induction l with
    | nil => intro a; rfl
    | cons r l ih => intro a; rw [List.foldl_cons, ih]; simp
  unfold State.closeDataset
  split
  · rfl
  · simp only [State.groupCheck_poise]
    refine (State.each_poise _ _ _ fun s r => ?_).trans ?_
    · split <;> simp
    · simp only [State.modFmt_poise]
      exact fold _ _
@[simp] theorem State.openRegion_poise (s : State) (t : Nat) (w : Volume) : (State.openRegion s t w).poise = s.poise := by
  unfold State.openRegion
  split <;> simp [apply_ite State.poise]
@[simp] theorem State.raiseChain_poise (s : State) (h : Nat) (e : ChainEntry) : (State.raiseChain s h e).poise = s.poise := by
  unfold State.raiseChain
  simp only []
  (repeat' split) <;> simp
@[simp] theorem State.tamperEffects_poise (s : State) (pin : Nat) : (State.tamperEffects s pin).poise = s.poise := by
  unfold State.tamperEffects
  simp

/-! ### Entries -/

section PowerStates

variable {s : State}

theorem State.enterPower_none {k : Nat} (h : s.pm.cut = none) : s.enterPower k = s.setPower k := by
  rw [State.enterPower, h]

theorem State.enterPower_some {k : Nat} {c : WakeCause} (h : s.pm.cut = some c) :
    s.enterPower k = s.modPm fun p => { p with exiting := true, lastWake := wakeCode c, cut := none } := by
  rw [State.enterPower, h]

/-- What the entry to PS1 waits for. -/
def State.ps1Due (s : State) : Prop :=
  s.on = true ∧ s.image.loaded = true ∧ s.pm.state = 0 ∧ s.pm.exiting = false ∧ bit s.cfg.pwr0 0 = true ∧ s.ps1Cond = true ∧
    fld s.cfg.pwr0 31 16 ≤ s.pm.idle1

/-- What the entry to PS2 waits for. -/
def State.ps2Due (s : State) : Prop :=
  s.pm.state = 1 ∧ s.pm.exiting = false ∧ bit s.cfg.pwr0 1 = true ∧ s.ps1Cond = true ∧ s.ps2Cond = true ∧ fld s.cfg.pwr0 47 32 * 1000 ≤ s.pm.idle2

/-- What the entry to PS3 waits for. -/
def State.ps3Due (s : State) : Prop :=
  s.pm.state = 2 ∧ s.pm.exiting = false ∧ bit s.cfg.pwr0 2 = true ∧ s.ps2Cond = true ∧ s.ps3Cond = true ∧ fld s.cfg.pwr0 63 48 * 1000 ≤ s.pm.idle3

theorem State.ps1Due_iff (s : State) : s.entryDue 1 = true ↔ s.ps1Due := by
  simp only [State.entryDue, State.entryOk, State.ps1Due, Bool.and_eq_true, Bool.not_eq_true', beq_iff_eq, decide_eq_true_eq]
  constructor
  · rintro ⟨⟨⟨⟨hst, he⟩, hb⟩, ⟨hon, hl⟩, hc⟩, hi⟩
    exact ⟨hon, hl, Nat.succ.inj hst, he, hb, hc, hi⟩
  · rintro ⟨hon, hl, hst, he, hb, hc, hi⟩
    exact ⟨⟨⟨⟨congrArg (· + 1) hst, he⟩, hb⟩, ⟨hon, hl⟩, hc⟩, hi⟩

theorem State.ps2Due_iff (s : State) : s.entryDue 2 = true ↔ s.ps2Due := by
  simp [State.entryDue, State.entryOk, State.ps2Due, and_assoc]

theorem State.ps3Due_iff (s : State) : s.entryDue 3 = true ↔ s.ps3Due := by
  simp [State.entryDue, State.entryOk, State.ps3Due, and_assoc]

/-! ### The steps of the entry to PS3 -/

theorem State.ps3Step_one_poise (s : State) : (s.ps3Step 1).poise = s.poise := by
  simp only [State.ps3Step]
  split
  · exact s.commitDirs_poise
  · rfl

theorem State.ps3Step_one_still (s : State) : (s.ps3Step 1).still = s.still := by
  simp only [State.ps3Step]
  split
  · exact s.commitDirs_still
  · rfl

theorem State.ps3Step_two_poise (s : State) : (s.ps3Step 2).poise = s.poise := by
  simp only [State.ps3Step]
  split
  · rw [State.lifeCkpt_poise, State.snapshot_poise]
  · rfl

theorem State.ps3Step_two_still (s : State) : (s.ps3Step 2).still = s.still := by
  simp only [State.ps3Step]
  split
  · rw [State.lifeCkpt_still, State.snapshot_still]
  · rfl

/-- The first steps of the entry to PS3 write to Sachet, and leave the lanes, the pins and the readiness bits. -/
theorem State.ps3Steps_first (s : State) {n : Nat} (h : n < 3) :
    ((List.range' 1 n).foldl State.ps3Step s).poise = s.poise ∧ ((List.range' 1 n).foldl State.ps3Step s).still = s.still := by
  match n, h with
  | 0, _ => exact ⟨rfl, rfl⟩
  | 1, _ => exact ⟨s.ps3Step_one_poise, s.ps3Step_one_still⟩
  | 2, _ => exact ⟨(State.ps3Step_two_poise _).trans s.ps3Step_one_poise, (State.ps3Step_two_still _).trans s.ps3Step_one_still⟩

/-- A lane that PS3 takes down. -/
def State.laneDown (s : State) (n : Nat) : State :=
  (s.modLn n fun l => { l with state := .down, trained := false, feReady := false, locked := false, proposing := false }).setReady (rdLANE n) false

/-- What every element of a list keeps, and one of them brings about, holds after the list. -/
theorem State.each_establishes {α : Type} {p : State → Prop} {f : State → α → State} {a : α} (hkeep : ∀ s b, p s → p (f s b)) (hset : ∀ s, p (f s a))
    (s : State) {l : List α} (h : a ∈ l) : p (s.each l f) := by
  induction l generalizing s with
  | nil => exact absurd h List.not_mem_nil
  | cons b r ih =>
    rcases List.mem_cons.1 h with rfl | h
    · have hrest : ∀ (r : List α) (s : State), p s → p (s.each r f) := fun r => by
        induction r with
        | nil => exact fun s hp => hp
        | cons b r ih => exact fun s hp => ih (f s b) (hkeep s b hp)
      exact hrest r _ (hset s)
    · exact ih (f s b) h

/-- A lane down and not ready. -/
def State.laneIsDown (s : State) (n : Nat) : Prop := (s.ln n).state = .down ∧ s.ready (rdLANE n) = false

theorem State.laneIsDown_laneDown (s : State) (n k : Nat) (h : n = k ∨ s.laneIsDown n) : (s.laneDown k).laneIsDown n := by
  refine ⟨?_, ?_⟩
  · rw [State.laneDown, State.ln, State.setReady_lanes, ← State.ln, State.ln_modLn]
    split
    · rfl
    · exact (h.resolve_left ‹_›).1
  · rw [State.laneDown, State.ready_setReady]
    split
    · rfl
    · exact (h.resolve_left fun hk => ‹rdLANE n ≠ rdLANE k› (congrArg rdLANE hk)).2

/-- The lanes and transports of a part that its third step puts down. -/
def State.unitsDown (s : State) : State :=
  (s.each ((List.range 8).filter s.lanePresent) State.laneDown).each (List.range 8) fun s t => s.setTpReady t false

theorem State.ps3Step_three (s : State) : s.ps3Step 3 =
    ((s.unitsDown.modPm fun p => { p with lanesBack := s.lanesAfterPs3, transportsBack := s.tpList }).modPins fun p => { p with clkreqN := true }).emit
      (.clkreqN true) := rfl

theorem State.ready_unitsDown (s : State) {t : Nat} (ht : t < 8) : s.unitsDown.ready (rdTRANSPORT t) = false := by
  simp only [State.unitsDown, State.setTpReady_false, State.ready_each_clear]
  simp [List.mem_map_of_mem (f := rdTRANSPORT) (List.mem_range.2 ht)]

theorem State.laneIsDown_unitsDown (s : State) {n : Nat} (h : s.lanePresent n = true) : s.unitsDown.laneIsDown n := by
  have hn : n < 8 := of_decide_eq_true (Bool.and_eq_true_iff.1 h).1
  have hdown := State.each_establishes (p := fun s => s.laneIsDown n) (fun s k hs => s.laneIsDown_laneDown n k (.inr hs))
    (fun s => s.laneIsDown_laneDown n n (.inl rfl)) s (List.mem_filter.2 ⟨List.mem_range.2 hn, h⟩)
  refine ⟨?_, ?_⟩
  · refine (congrArg (fun m => (Tab.get ({} : Lane) m n).state) (State.each_invariant State.lanes (fun s t => ?_) _ _)).trans hdown.1
    rw [State.setTpReady_false, State.setReady_lanes]
  · simp only [State.unitsDown, State.setTpReady_false, State.ready_each_clear]
    rw [hdown.2, Bool.false_and]

theorem State.laneIsDown_setPower {n : Nat} (h : s.laneIsDown n) (k : Nat) : (s.setPower k).laneIsDown n := by
  refine ⟨?_, ?_⟩
  · rw [State.setPower, State.ln, State.modStats_lanes, State.modPm_lanes, State.raise_lanes]; exact h.1
  · rw [State.setPower, State.ready, State.modStats_dev, State.modPm_dev, State.raise_dev]; exact h.2

theorem State.laneIsDown_ps3Step {n : Nat} (h : s.lanePresent n = true) : (s.ps3Step 3).laneIsDown n := by
  rw [State.ps3Step_three, State.laneIsDown, State.ln, State.ready]
  simp only [State.emit_lanes, State.modPins_lanes, State.modPm_lanes, State.emit_dev, State.modPins_dev, State.modPm_dev]
  exact s.laneIsDown_unitsDown h

theorem State.ready_ps3Step {t : Nat} (ht : t < 8) : (s.ps3Step 3).ready (rdTRANSPORT t) = false := by
  rw [State.ps3Step_three, State.ready, State.emit_dev, State.modPins_dev, State.modPm_dev]
  exact s.ready_unitsDown ht

theorem State.lanePresent_of_still {s s' : State} (h : s'.still = s.still) (n : Nat) : s'.lanePresent n = s.lanePresent n :=
  congrArg (fun i : Image => i.cfg.lanePresent n) (State.image_of_still h)

theorem State.pm_unitsDown (s : State) : s.unitsDown.pm = s.pm :=
  (State.each_invariant State.pm (fun s t => by rw [State.setTpReady_false, State.setReady_pm]) _ _).trans
    (State.each_invariant State.pm (fun s n => by rw [State.laneDown, State.setReady_pm, State.modLn_pm]) _ _)

/-- The state that the first two steps of the entry to PS3 leave. -/
def State.ps3Committed (s : State) : State := (List.range' 1 2).foldl State.ps3Step s

theorem State.cut_ps3Step_three (s : State) : (s.ps3Committed.ps3Step 3).pm.cut = s.pm.cut :=
  (congrArg Power.cut s.ps3Committed.pm_unitsDown).trans (congrArg (fun x => x.2.1) (s.ps3Steps_first (by decide)).1)

theorem ps3Entry_whole (h : s.ps3Due) (hcut : s.pm.cut = none) :
    Safety.Takes .ps3Entry s ((s.ps3Committed.ps3Step 3).setPower 3) := by
  have hin : (s.ps3Committed.ps3Step 3).enterPower 3 = (s.ps3Committed.ps3Step 3).setPower 3 := State.enterPower_none (s.cut_ps3Step_three.trans hcut)
  change execPs3Entry s = _
  rw [execPs3Entry, if_pos (s.ps3Due_iff.2 h), hcut]
  exact congrArg (commit s) hin

/-- The state that an entry to PS3 leaves when a trigger cuts it. -/
def State.ps3Cut (s : State) : State := (List.range' 1 (s.free.toNat % 3)).foldl State.ps3Step s.take

theorem State.ps3Cut_keeps (s : State) : s.ps3Cut.poise = s.poise ∧ s.ps3Cut.still = s.still :=
  s.take.ps3Steps_first (Nat.mod_lt _ (by decide))

theorem ps3Entry_cut {c : WakeCause} (h : s.ps3Due) (hcut : s.pm.cut = some c) :
    Safety.Takes .ps3Entry s (s.ps3Cut.modPm fun p => { p with exiting := true, lastWake := wakeCode c, cut := none }) := by
  have hin := State.enterPower_some (s := s.ps3Cut) (k := 3) ((congrArg (fun x => x.2.1) s.ps3Cut_keeps.1).trans hcut)
  change execPs3Entry s = _
  rw [execPs3Entry, if_pos (s.ps3Due_iff.2 h), hcut]
  exact congrArg (commit s) hin

theorem powerEntry_row {i : Instr} {k : Nat} {e : State} (hrow : exec i s = commit s (if s.entryDue k then s.enterPower k else s))
    (hdue : s.entryDue k = true) (he : s.enterPower k = e) : Safety.Takes i s e :=
  takes_of_commit hrow ((if_pos hdue).trans he)

/-! ### The exit -/

/-- The part awake, before what was held is counted. -/
def State.awoken (s : State) : State :=
  let s1 := if s.pm.state = 3 || s.pins.clkreqN then s.leavePs3 else s
  let s2 := s1.modPm fun p => { p with state := 0, exiting := false, idle1 := 0, idle2 := 0, idle3 := 0, lanesBack := [], held := [], cut := none }
  if s.pm.state = 0 then s2 else s2.setPower 0

/-- What was held in PS3, counted. -/
def State.countHeld (s : State) (held pins : List Nat) : State :=
  ((s.each held fun s e => s.raise e).modGpio fun g => { g with held := [] }).each pins fun s n => s.tamperEffects n

theorem powerStateExitDone_row (h : s.pm.exiting = true) :
    let s1 := if s.pm.state = 3 || s.pins.clkreqN then s.leavePs3 else s
    Safety.Settles .powerStateExitDone s (s.awoken.countHeld s1.pm.held s1.gpio.held) :=
  if_neg (by simp [h])

theorem State.awoken_pm (s : State) : s.awoken.pm.state = 0 ∧ s.awoken.pm.exiting = false := by
  rw [State.awoken]
  split
  · exact ⟨rfl, rfl⟩
  · exact ⟨rfl, congrArg Prod.fst (State.raise_poise _ evPowerState)⟩

theorem State.countHeld_keeps (s : State) (held pins : List Nat) : (s.countHeld held pins).pm.state = s.pm.state ∧
    (s.countHeld held pins).pm.exiting = s.pm.exiting ∧ (s.countHeld held pins).gpio.held = [] ∧ (s.countHeld held pins).pins = s.pins := by
  have hraise := State.each_still s held (fun s e => s.raise e) fun s e => s.raise_still e
  have hcount := State.each_still ((s.each held fun s e => s.raise e).modGpio fun g => { g with held := [] }) pins
    (fun s n => s.tamperEffects n) fun s n => s.tamperEffects_still n
  have hexit := State.each_poise ((s.each held fun s e => s.raise e).modGpio fun g => { g with held := [] }) pins
    (fun s n => s.tamperEffects n) fun s n => s.tamperEffects_poise n
  exact ⟨(State.pmState_of_still hcount).trans (State.pmState_of_still (t := s.each held fun s e => s.raise e) hraise),
    (congrArg Prod.fst hexit).trans (congrArg Prod.fst (State.each_poise s held (fun s e => s.raise e) fun s e => s.raise_poise e)),
    congrArg Gpio.held (State.gpio_of_still hcount), (State.pins_of_still hcount).trans (State.pins_of_still (t := s.each held fun s e => s.raise e) hraise)⟩

theorem State.clkreqN_leavePs3 (s : State) : s.leavePs3.pins.clkreqN = false := by
  rw [State.leavePs3]
  refine (congrArg Pins.clkreqN (State.pins_of_still (State.each_still _ _ _ fun s n => s.trainStart_still n))).trans ?_
  split <;> rfl

theorem State.clkreqN_awoken (h : s.pm.state = 3) : s.awoken.pins.clkreqN = false := by
  rw [State.awoken, if_neg (by simp [h] : ¬ s.pm.state = 0), if_pos (by simp [h] : (decide (s.pm.state = 3) || s.pins.clkreqN) = true)]
  exact (congrArg Pins.clkreqN (State.raise_pins _ _)).trans s.clkreqN_leavePs3

/-- With nothing held there is nothing to count. -/
theorem State.countHeld_nil (h : s.gpio.held = []) : s.countHeld [] [] = s := by
  rw [State.countHeld, State.each, State.each, List.foldl_nil, List.foldl_nil, State.modGpio, ← h]

/-- A part whose crystal runs, with nothing held, comes back to PS0 at once. -/
theorem State.awoken_of_awake (h : ¬ (decide (s.pm.state = 3) || s.pins.clkreqN) = true) (hp : s.pm.held = []) : s.awoken =
    let z := s.modPm fun p => { p with state := 0, exiting := false, idle1 := 0, idle2 := 0, idle3 := 0, lanesBack := [], cut := none }
    if s.pm.state = 0 then z else z.setPower 0 := by
  have hz : (s.modPm fun p => { p with state := 0, exiting := false, idle1 := 0, idle2 := 0, idle3 := 0, lanesBack := [], held := [], cut := none }) =
      s.modPm fun p => { p with state := 0, exiting := false, idle1 := 0, idle2 := 0, idle3 := 0, lanesBack := [], cut := none } := by
    rw [State.modPm, ← hp]; rfl
  rw [State.awoken, if_neg h, hz]

theorem State.gpio_awoken (h : ¬ (decide (s.pm.state = 3) || s.pins.clkreqN) = true) : s.awoken.gpio = s.gpio := by
  rw [State.awoken, if_neg h]
  split
  · rfl
  · exact State.raise_gpio _ _

end PowerStates


/-- What Set Power Policy accepts. -/
def policyOk (e : SubEntry) : Prop :=
  e.headOk false false = true ∧ e.noData = true ∧ e.w4 = 0 ∧ e.w7 = 0 ∧ pwrOk e.w5 e.w6 = true

theorem policyOk_iff (e : SubEntry) :
    (e.headOk false false && e.noData && zeros [e.w4, e.w7] && pwrOk e.w5 e.w6) = true ↔ policyOk e := by
  simp [policyOk, zeros, and_assoc]

/-- A policy that disables the state of the part begins its exit. -/
theorem wake_or_stay {z : State} {k : Nat} {w : Word} (h : z.pm.state = k) :
    (if z.pm.state ≠ 0 && !bit w (z.pm.state - 1) then z.wake 7 else z) =
      if k ≠ 0 ∧ bit w (k - 1) = false then { z with pm := { z.pm with exiting := true, lastWake := if z.pm.exiting then z.pm.lastWake else 7 } } else z := by
  subst h
  by_cases h0 : z.pm.state = 0
  · rw [if_neg (by simp [h0]), if_neg (by simp [h0])]
  · simp only [Bool.and_eq_true, decide_eq_true_eq, Bool.not_eq_true', State.wake, if_neg h0]
    rfl

/-- Settles O53: each entry by what it waits for and by its cut, the exit by what was held, and the policy by its check. -/
theorem powerStatesEnterAndExit : Obligations.PowerStatesEnterAndExit := by
  unfold Obligations.PowerStatesEnterAndExit
  refine fun s => ⟨
    ⟨fun h hc => powerEntry_row rfl (s.ps1Due_iff.2 h) (State.enterPower_none hc), fun c h hc => powerEntry_row rfl (s.ps1Due_iff.2 h) (State.enterPower_some hc),
      fun h => congrArg (commit s) (if_neg (mt s.ps1Due_iff.1 h))⟩,
    ⟨fun h hc => powerEntry_row rfl (s.ps2Due_iff.2 h) (State.enterPower_none hc), fun c h hc => powerEntry_row rfl (s.ps2Due_iff.2 h) (State.enterPower_some hc),
      fun h => congrArg (commit s) (if_neg (mt s.ps2Due_iff.1 h))⟩,
    ⟨fun h hc => ⟨_, ps3Entry_whole h hc, rfl, congrArg Pins.clkreqN (State.raise_pins _ _), fun t ht => ?_, fun n hn => ?_⟩,
      fun c h hc => ⟨_, ps3Entry_cut h hc, (State.pmState_of_still s.ps3Cut_keeps.2).trans h.1, rfl, rfl, rfl, State.pins_of_still s.ps3Cut_keeps.2,
        congrArg (fun x => x.2.2.1) s.ps3Cut_keeps.1, congrArg (fun x => x.2.2.2) s.ps3Cut_keeps.1⟩,
      fun h => if_neg (mt s.ps3Due_iff.1 h)⟩,
    fun cause => ⟨fun hv hno => ?_, fun hv hd hv' => ?_, fun hv => ?_⟩,
    fun h => if_pos (by simp [h]), fun h3 hk he hp hg => ?_, fun he => ?_, fun c hc => ⟨fun h => ?_, fun h => ⟨_, rfl, ?_⟩⟩⟩
  · rw [State.setPower, State.ready, State.modStats_dev, State.modPm_dev, State.raise_dev]
    exact State.ready_ps3Step ht
  · exact State.laneIsDown_setPower (State.laneIsDown_ps3Step ((State.lanePresent_of_still (s.ps3Steps_first (by decide)).2 n).trans hn)) 3
  · refine congrArg (commit s) ((if_neg (by simp [hv])).trans (if_neg fun hb => ?_))
    obtain ⟨hd, hv'⟩ := Bool.and_eq_true_iff.1 hb
    exact hno.elim (fun h => absurd hd (by simp [h])) fun h => absurd hv' (by simp [h])
  · exact congrArg (commit s) ((if_neg (by simp [hv])).trans (if_pos (Bool.and_eq_true_iff.2 ⟨hd, hv'⟩)))
  · have h0 : ¬ s.pm.state = 0 := fun h0 => by rw [h0] at hv; exact absurd hv (by cases cause <;> decide)
    exact congrArg (commit s) ((if_pos hv).trans (if_neg h0))
  · have hs : ¬ (decide (s.pm.state = 3) || s.pins.clkreqN) = true := by simp [h3, hk]
    refine (powerStateExitDone_row he).trans ?_
    simp only [if_neg hs, hp, hg]
    rw [State.countHeld_nil ((congrArg Gpio.held (State.gpio_awoken hs)).trans hg), State.awoken_of_awake hs hp]
    rfl
  · exact ⟨_, powerStateExitDone_row he, (State.countHeld_keeps ..).1.trans s.awoken_pm.1, (State.countHeld_keeps ..).2.1.trans s.awoken_pm.2,
      (State.countHeld_keeps ..).2.2.1, fun h3 => (congrArg Pins.clkreqN (State.countHeld_keeps ..).2.2.2).trans (State.clkreqN_awoken h3)⟩
  · exact takes_run rfl hc (if_pos (check_fails (policyOk_iff _) h))
  · refine takes_run rfl hc ((if_neg (check_passes (policyOk_iff _) h)).trans ?_)
    have hst := State.pmState_of_still
      ((s.modImage fun i => { i with cfg := { i.cfg with pwr0 := c.entry.w5, pwr1 := c.entry.w6 } }).succeed_still c 0)
    exact wake_or_stay hst

/-! ### The 1 ms clock -/

/-- A part in PS2 whose entry to PS3 a trigger has cut, under a policy that since then no longer allows PS3. -/
def cutInPs2 : State :=
  { State.reset with pins := { State.reset.pins with porN := true }, pm := { State.reset.pm with state := 2, cut := some .tlp } }

/-- A millisecond clears the cut of an entry that is no longer due. -/
theorem pressureEvaluation_cutInPs2 : ∃ s, exec .pressureEvaluation cutInPs2 = .next s ∧ s.pm.cut = none := ⟨_, rfl, rfl⟩

/-- Refutes O54: the millisecond also clears the cut of an entry whose conditions do not hold, which the statement leaves standing. -/
theorem not_epochsAndCommitsRunOnTime : ¬ Obligations.EpochsAndCommitsRunOnTime := by
  unfold Obligations.EpochsAndCommitsRunOnTime
  intro ⟨htick, _⟩
  obtain ⟨z, rfl, z2, rfl, hfew, -⟩ := (htick cutInPs2).2 rfl
  obtain ⟨s, hs, hcut⟩ := pressureEvaluation_cutInPs2
  have hnext := (hs.symm.trans (hfew (.inl rfl)))
  injection hnext with hnext
  subst hnext
  exact absurd hcut (by decide)

end Sys2Proof.Machine

end

section

/-! PROOF. O52: register writes and configuration requests. -/

namespace Sys2Proof.Machine

/-! ### Sachet's ring -/

/-- The entries of Sachet's ring. -/
def State.ring (s : State) : List RingEntry := s.sachet.ring

@[simp] theorem State.modEv_ring (s : State) (f : Tab EvSource → Tab EvSource) : (s.modEv f).ring = s.ring := rfl
@[simp] theorem State.modStats_ring (s : State) (f : Stats → Stats) : (s.modStats f).ring = s.ring := rfl
@[simp] theorem State.modBm_ring (s : State) (f : Buffer → Buffer) : (s.modBm f).ring = s.ring := rfl
@[simp] theorem State.modSachet_ring (s : State) (f : Sachet → Sachet) (h : (f s.sachet).ring = s.sachet.ring) : (s.modSachet f).ring = s.ring := h

@[simp] theorem State.each_ring {α : Type} (s : State) (l : List α) (f : State → α → State) (h : ∀ s a, (f s a).ring = s.ring) :
    (s.each l f).ring = s.ring := State.each_invariant State.ring h s l

@[simp] theorem State.modTn_ring (s : State) (u : Nat) (f : Tenant → Tenant) : (State.modTn s u f).ring = s.ring :=
  congrArg Sachet.ring (State.modTn_sachet s u f)
@[simp] theorem State.modTp_ring (s : State) (t : Nat) (f : Transport → Transport) : (State.modTp s t f).ring = s.ring :=
  congrArg Sachet.ring (State.modTp_sachet s t f)
@[simp] theorem State.modLd_ring (s : State) (t : Nat) (f : Loading → Loading) : (State.modLd s t f).ring = s.ring := by
  unfold State.modLd
  simp
@[simp] theorem State.setVol_ring (s : State) (v : Nat) (x : Volume) : (State.setVol s v x).ring = s.ring :=
  congrArg Sachet.ring (State.setVol_sachet s v x)
@[simp] theorem State.modVol_ring (s : State) (v : Nat) (f : Volume → Volume) : (State.modVol s v f).ring = s.ring :=
  congrArg Sachet.ring (State.modVol_sachet s v f)
@[simp] theorem State.stat_ring (s : State) (i n : Nat) : (State.stat s i n).ring = s.ring :=
  congrArg Sachet.ring (State.stat_sachet s i n)
@[simp] theorem State.sendMsix_ring (s : State) (fn vec : Nat) : (State.sendMsix s fn vec).ring = s.ring :=
  congrArg Sachet.ring (State.sendMsix_sachet s fn vec)
@[simp] theorem State.modEvSrc_ring (s : State) (e : Nat) (f : EvSource → EvSource) : (State.modEvSrc s e f).ring = s.ring :=
  congrArg Sachet.ring (State.modEvSrc_sachet s e f)
@[simp] theorem State.raise_ring (s : State) (e : Nat) : (State.raise s e).ring = s.ring :=
  congrArg Sachet.ring (State.raise_sachet s e)
@[simp] theorem State.returnSegs_ring (s : State) (u n : Nat) : (State.returnSegs s u n).ring = s.ring :=
  congrArg Sachet.ring (State.returnSegs_sachet s u n)
@[simp] theorem State.sachetWrite_ring (s : State) (key n bytes : Nat) : (State.sachetWrite s key n bytes).ring = s.ring := by
  unfold State.sachetWrite
  simp [apply_ite State.ring]
@[simp] theorem State.journal_ring (s : State) (h : Nat) (isV : Bool) (value : Nat) : (State.journal s h isV value).ring = s.ring := by
  unfold State.journal
  simp only []
  (repeat' split) <;> simp
@[simp] theorem State.wholeArea_ring (s : State) (a : Nat) : (State.wholeArea s a).ring = s.ring := by
  unfold State.wholeArea
  simp
@[simp] theorem State.addDeltas_ring (s : State) (a n : Nat) : (s.modSachet fun x => x.addDeltas a n).ring = s.ring := rfl
@[simp] theorem State.commitDir_ring (s : State) (t : Nat) : (State.commitDir s t).ring = s.ring := by
  unfold State.commitDir
  split <;> simp [apply_ite State.ring]
@[simp] theorem State.modDir_ring (s : State) (t : Nat) (f : Directory → Directory) : (State.modDir s t f).ring = s.ring := by
  unfold State.modDir
  simp
@[simp] theorem State.releaseVol_ring (s : State) (h : Nat) : (State.releaseVol s h).ring = s.ring := by
  unfold State.releaseVol
  split <;> simp
@[simp] theorem State.syncDir_ring (s : State) (h : Nat) : (State.syncDir s h).ring = s.ring := by
  unfold State.syncDir
  split <;> simp
@[simp] theorem State.raiseV_ring (s : State) (h : Nat) : (State.raiseV s h).ring = s.ring := by
  unfold State.raiseV
  (repeat' split) <;> simp
@[simp] theorem State.replayCheck_ring (s : State) (h : Nat) : (State.replayCheck s h).ring = s.ring := by
  unfold State.replayCheck
  (repeat' split) <;> simp
@[simp] theorem State.addLost_ring (s : State) (t : Nat) (r : LostRange) : (State.addLost s t r).ring = s.ring := by
  unfold State.addLost
  simp

/-! ### Losses released -/

/-- Every entry held for a loss is done. -/
def State.lossDone (s : State) (k : Nat) : Prop := ∀ e ∈ s.ring, e.held = some k → e.done = true

theorem State.lossDone_of_ring {s s' : State} {k : Nat} (h : s'.ring = s.ring) (hs : s.lossDone k) : s'.lossDone k := by
  rw [State.lossDone, h]
  exact hs

theorem State.mem_ring_ringDone {s : State} {p : RingEntry → Bool} {e : RingEntry} (h : e ∈ (s.ringDone p).ring) :
    ∃ o ∈ s.ring, e = if p o then { o with done := true } else o := by
  obtain ⟨o, ho, rfl⟩ := List.mem_map.1 (List.dropWhile_sublist _ |>.subset h)
  exact ⟨o, ho, rfl⟩

theorem State.lossDone_ringDone {s : State} {k : Nat} (hs : s.lossDone k) (p : RingEntry → Bool) : (s.ringDone p).lossDone k := by
  intro e he hk
  obtain ⟨o, ho, rfl⟩ := State.mem_ring_ringDone he
  split
  · rfl
  · exact hs o ho (by simpa [‹¬ p o = true›] using hk)

/-- What marks every entry held for a loss. -/
theorem State.lossDone_ringDone_held (s : State) (k : Nat) : (s.ringDone fun e => e.held == some k).lossDone k := by
  intro e he hk
  obtain ⟨o, -, rfl⟩ := State.mem_ring_ringDone he
  split
  · rfl
  · rename_i hno
    rw [if_neg hno] at hk
    exact absurd (beq_iff_eq.2 hk) hno

theorem State.lossDone_settleVol {s : State} {k : Nat} (hs : s.lossDone k) (h : Nat) : (s.settleVol h).lossDone k := by
  unfold State.settleVol
  split
  · exact hs
  · refine State.lossDone_of_ring (by rw [State.replayCheck_ring, State.releaseVol_ring, State.raiseV_ring]) (State.lossDone_ringDone ?_ _)
    exact State.lossDone_of_ring (State.setVol_ring _ _ _) hs

theorem State.lossDone_releaseReplay {s : State} {k : Nat} (hs : s.lossDone k) (h : Nat) (w : Volume) : (s.releaseReplay h w).lossDone k := by
  refine State.lossDone_settleVol (State.lossDone_of_ring ?_ hs) h
  rw [State.modVol_ring]
  exact State.each_ring _ _ _ fun s r => s.addLost_ring _ _

theorem State.lossDone_each {α : Type} {k : Nat} {f : State → α → State} (h : ∀ s a, s.lossDone k → (f s a).lossDone k) (l : List α) {s : State}
    (hs : s.lossDone k) : (s.each l f).lossDone k := by
  induction l generalizing s with
  | nil => exact hs
  | cons a r ih => exact ih (h s a hs)

/-- A LOSS_ID of which something is held and not done. -/
def State.lossHeld (s : State) (k : Nat) : Prop := ∃ e ∈ s.sachet.ring, e.held = some k ∧ e.done = false

theorem State.lossHeld_iff (s : State) (k : Nat) : (s.sachet.ring.any fun e => e.held == some k && !e.done) = true ↔ s.lossHeld k := by
  simp [State.lossHeld]

/-- What a LOSS_ID that is released leaves, before the commands that can then end. -/
def State.released (s : State) (k : Nat) : State :=
  let us := ((s.sachet.ring.filter fun e => e.held == some k && !e.done).map (·.uuid)).dedup
  let s1 := s.tlp.modSachet fun x => { x with
    lostRec := x.lostRec.map fun p => (p.1, us.foldl (fun l u => markLost u (· == k) 33 l) p.2)
    pendingLoss := x.pendingLoss.map fun p => if p.lossId == k && !p.applied then { p with released := true } else p }
  let s2 := s1.ringDone fun e => e.held == some k
  s2.each (s2.vols.filter fun p => p.2.replayLoss == k) fun s p => s.releaseReplay p.1 p.2

theorem State.lossDone_released (s : State) (k : Nat) : (s.released k).lossDone k :=
  State.lossDone_each (fun _ p hs => State.lossDone_releaseReplay hs p.1 p.2) _ (State.lossDone_ringDone_held _ k)

theorem State.ringRel_of_nothing {s : State} {lossId : Word}
    (h : s.reach 0 = false ∨ s.ready rdSACHET = false ∨ lossId = 0 ∨ ¬ s.lossHeld lossId.toNat) : s.ringRel lossId = s := by
  refine if_pos ?_
  simp only [Bool.or_eq_true, Bool.not_eq_true', decide_eq_true_eq]
  rcases h with h | h | h | h
  · exact .inl (.inl (.inl h))
  · exact .inl (.inl (.inr h))
  · exact .inl (.inr (h ▸ rfl))
  · exact .inr (eq_false_of_ne_true (mt (s.lossHeld_iff _).1 h))

theorem State.ringRel_of_held {s : State} {lossId : Word} (hr : s.reach 0 = true) (hs : s.ready rdSACHET = true) (h0 : lossId ≠ 0)
    (h : s.lossHeld lossId.toNat) : s.ringRel lossId = (s.released lossId.toNat).settle := by
  have hk : lossId.toNat ≠ 0 := fun hk => h0 (BitVec.eq_of_toNat_eq hk)
  exact if_neg (by simp [hr, hs, hk, (s.lossHeld_iff lossId.toNat).2 h])

/-! ### Events of a tenant -/

theorem State.tlp_of_ne {s : State} (h : s.pm.state ≠ 3) : s.tlp = s := if_neg h

/-- A change of the event sources alone. -/
def EvOnly (s z : State) : Prop := z = { s with ev := z.ev }

theorem EvOnly.trans {s s' z : State} (h : EvOnly s s') (h' : EvOnly s' z) : EvOnly s z := by
  rw [EvOnly] at h h' ⊢
  rw [h', h]

theorem EvOnly.each {α : Type} {f : State → α → State} (h : ∀ s a, EvOnly s (f s a)) (l : List α) (s : State) : EvOnly s (s.each l f) := by
  induction l generalizing s with
  | nil => rfl
  | cons a r ih => exact (h s a).trans (ih (f s a))

theorem EvOnly.clearEv (s : State) (e : Nat) : EvOnly s (s.clearEv e) := rfl

/-- The tenant's own sources cleared. -/
def State.ownCleared (s : State) (u : Nat) (value : Word) : State :=
  s.tlp.each ((List.range 8).filter fun k => bit value k) fun s k => s.clearEv (evTen u k)

/-- A source that a write of TQ_EVT_STS clears. -/
def State.evtHit (s : State) (u : Nat) (value : Word) (d : Nat) : Prop :=
  (∃ k, k < 8 ∧ d = evTen u k ∧ bit value k = true) ∨ (d = fld value 40 32 ∧ bit value 41 = true ∧ (s.evSrc d).owner = u)

/-- The tenant's own sources whose bits are 1. -/
def ownSources (u : Nat) (value : Word) : List Nat := ((List.range 8).filter fun k => bit value k).map (evTen u)

theorem mem_ownSources_iff (u d : Nat) (value : Word) : d ∈ ownSources u value ↔ ∃ k, k < 8 ∧ d = evTen u k ∧ bit value k = true := by
  simp only [ownSources, List.mem_map, List.mem_filter, List.mem_range]
  exact ⟨fun ⟨k, ⟨hk, hb⟩, hd⟩ => ⟨k, hk, hd.symm, hb⟩, fun ⟨k, hk, hd, hb⟩ => ⟨k, ⟨hk, hb⟩, hd.symm⟩⟩

theorem State.evSrc_ownCleared (s : State) (u : Nat) (value : Word) (d : Nat) : (s.ownCleared u value).evSrc d =
    if d ∈ ownSources u value then { s.evSrc d with sts := false, count := 0 } else s.evSrc d := by
  simp only [State.ownCleared, State.evSrc_each_clearEv, ownSources, State.evSrc_congr d s.tlp_ev]
  rfl

theorem State.owner_ownCleared (s : State) (u : Nat) (value : Word) (d : Nat) : ((s.ownCleared u value).evSrc d).owner = (s.evSrc d).owner := by
  rw [State.evSrc_ownCleared]
  split <;> rfl

theorem State.tqEvtWrite_eq {s : State} {u : Nat} (hr : s.reach u = true) (value : Word) : s.tqEvtWrite u value =
    if bit value 41 = true ∧ (s.evSrc (fld value 40 32)).owner = u then (s.ownCleared u value).clearEv (fld value 40 32) else s.ownCleared u value := by
  refine (if_neg (by simp [hr])).trans ?_
  rw [← s.owner_ownCleared u value]
  simp only [Bool.and_eq_true, beq_iff_eq]
  rfl

theorem State.evSrc_tqEvtWrite_hit {s : State} {u d : Nat} (hr : s.reach u = true) {value : Word} (h : s.evtHit u value d) :
    (s.tqEvtWrite u value).evSrc d = { s.evSrc d with sts := false, count := 0 } := by
  rw [State.tqEvtWrite_eq hr]
  rcases h with h | ⟨rfl, hb, ho⟩
  · have hown : (s.ownCleared u value).evSrc d = { s.evSrc d with sts := false, count := 0 } := (s.evSrc_ownCleared u value d).trans (if_pos ((mem_ownSources_iff u d value).2 h))
    split
    · rw [State.evSrc_clearEv, hown, ite_self]
    · exact hown
  · rw [if_pos ⟨hb, ho⟩, State.evSrc_clearEv, if_pos rfl, State.evSrc_ownCleared]
    split <;> rfl

theorem State.evSrc_tqEvtWrite_other {s : State} {u d : Nat} (hr : s.reach u = true) {value : Word} (h : ¬ s.evtHit u value d) :
    (s.tqEvtWrite u value).evSrc d = s.evSrc d := by
  obtain ⟨hown, hclr⟩ := not_or.1 h
  have hkeep : (s.ownCleared u value).evSrc d = s.evSrc d := (s.evSrc_ownCleared u value d).trans (if_neg (mt (mem_ownSources_iff u d value).1 hown))
  rw [State.tqEvtWrite_eq hr]
  split
  · next hc =>
    rw [State.evSrc_clearEv, if_neg fun hd => hclr ⟨hd, hc.1, hd ▸ hc.2⟩, hkeep]
  · exact hkeep

theorem State.tqEvtWrite_only {s : State} {u : Nat} (hr : s.reach u = true) (value : Word) : EvOnly s.tlp (s.tqEvtWrite u value) := by
  have hown : EvOnly s.tlp (s.ownCleared u value) := EvOnly.each (fun s k => EvOnly.clearEv s (evTen u k)) _ _
  rw [State.tqEvtWrite_eq hr]
  split
  · exact hown.trans (EvOnly.clearEv _ _)
  · exact hown

theorem State.tlp_eq (s : State) : s.tlp =
    { s with pm := if s.pm.state = 3 then { s.pm with exiting := true, lastWake := if s.pm.exiting then s.pm.lastWake else 3 } else s.pm } := by
  rw [State.tlp]
  split
  · next h => exact if_neg (by rw [h]; decide)
  · rfl

/-! ### Writes of registers -/

section Registers

variable {s : State} {w : RegWrite} {off : Nat} {value : Word}

theorem mkw_halves (v : Word) : mkw [(0, fld v 31 0), (32, fld v 63 32)] = v := by
  have hv := v.isLt
  have hlo : fld v 31 0 = v.toNat % 4294967296 := by rw [fld, Nat.shiftRight_zero]; rfl
  have hhi : fld v 63 32 = v.toNat / 4294967296 % 4294967296 := by rw [fld, Nat.shiftRight_eq_div_pow]; rfl
  have hsum : v.toNat % 4294967296 * 2 ^ 0 + (v.toNat / 4294967296 % 4294967296 * 2 ^ 32 + 0) = v.toNat := by omega
  rw [mkw_eq_ofNat_sum, List.map_cons, List.map_cons, List.map_nil, List.sum_cons, List.sum_cons, List.sum_nil, hlo, hhi, hsum]
  exact (BitVec.ofNat_toNat 64 v).trans (BitVec.setWidth_eq v)

theorem unitWrites_word (h8 : off % 8 = 0) : unitWrites [(off, fld value 31 0), (off + 4, fld value 63 32)] = [(off, value, BitVec.allOnes 64)] := by
  rw [unitWrites, if_neg (by omega), if_pos rfl, mkw_halves, unitWrites]

/-- A function and a space that answer a write. -/
def State.answers (s : State) (w : RegWrite) : Prop := s.reach w.fn = true ∧ (w.bar = 0 ∨ (w.bar = 2 ∧ w.fn = 0)) ∧ w.offset % 4 = 0

theorem State.silent_iff (s : State) (w : RegWrite) :
    (!s.reach w.fn || !(w.bar == 0 || (w.bar == 2 && w.fn == 0)) || decide (w.offset % 4 ≠ 0)) = true ↔ ¬ s.answers w := by
  rw [State.answers, ← Bool.not_eq_false]
  refine not_congr ?_
  simp only [Bool.or_eq_false_iff, Bool.not_eq_false', Bool.or_eq_true, Bool.and_eq_true, beq_iff_eq, decide_eq_false_iff_not, not_not, and_assoc]

theorem registerWrite_silent (h : ¬ s.answers w ∨ tlpUnits (w.bytes.length / 4 + 1) w.offset w.bytes = none) : Safety.Takes (.registerWrite w) s s := by
  by_cases hg : (!s.reach w.fn || !(w.bar == 0 || (w.bar == 2 && w.fn == 0)) || decide (w.offset % 4 ≠ 0)) = true
  · exact if_pos hg
  · refine (if_neg hg).trans ?_
    rw [h.resolve_left (mt (s.silent_iff w).2 hg)]
    rfl

/-- A write of one whole register is that register's. -/
theorem registerWrite_word {e : State} (hr : s.reach w.fn = true) (hb : w.bar = 0 ∨ (w.bar = 2 ∧ w.fn = 0)) (ho : w.offset % 4 = 0) (h3 : s.pm.state ≠ 3)
    (hu : tlpUnits (w.bytes.length / 4 + 1) w.offset w.bytes = some [(off, fld value 31 0), (off + 4, fld value 63 32)]) (h8 : off % 8 = 0)
    (he : s.writeReg w.fn w.bar off value (BitVec.allOnes 64) = e) : Safety.Takes (.registerWrite w) s e := by
  subst he
  refine (if_neg (mt (s.silent_iff w).1 (not_not.2 ⟨hr, hb, ho⟩))).trans ?_
  rw [hu]
  dsimp only
  rw [unitWrites_word h8, State.tlp_of_ne h3]
  rfl

theorem writeReg_device (s : State) (fn : Nat) {off : Nat} (h : off < 0x20000) (value : Word) :
    s.writeReg fn 2 off value (BitVec.allOnes 64) = s.writeDevice off value (BitVec.allOnes 64) :=
  (if_neg (by decide)).trans ((if_neg (by decide)).trans (if_pos h))

theorem writeReg_tenant (s : State) (fn off : Nat) (value : Word) :
    s.writeReg fn 0 off value (BitVec.allOnes 64) = s.writeBar0 fn off value (BitVec.allOnes 64) :=
  (if_neg (by decide)).trans (if_pos rfl)

theorem writeBar0_cfg (s : State) (u : Nat) (value : Word) :
    s.writeBar0 u 0x0010 value (BitVec.allOnes 64) = if bit value 0 then s.tqEnable u else s.tqDisable u := by
  have hmask : ¬ (!bit (BitVec.allOnes 64) 0) = true := by decide
  rw [State.writeBar0, if_pos rfl, if_neg hmask]

theorem writeDevice_evSts (s : State) {i : Nat} (hi : i < 8) (value mask : Word) :
    s.writeDevice (0x04000 + 8 * i) value mask = s.evStsWrite i value := by
  refine (if_neg (by omega)).trans ((if_neg (by omega)).trans ((if_pos (by simp; omega)).trans ?_))
  rw [show (0x04000 + 8 * i - 0x04000) / 8 = i by omega]

end Registers

/-! ### Configuration requests -/

section Configuration

variable {s : State} {fn : Nat}

/-- A function that answers, outside PS3. -/
def State.configures (s : State) (fn : Nat) : Prop :=
  s.on = true ∧ s.pins.perstN = true ∧ s.pm.state ≠ 3 ∧ s.earlyDone = true ∧ s.fnExists fn = true

theorem configRequest_held (op : ConfigOp) (h : s.on = false ∨ s.pins.perstN = false) : Safety.Takes (.configRequest fn op) s s :=
  if_pos (by rcases h with h | h <;> simp [h])

theorem configRequest_retry (op : ConfigOp) (hon : s.on = true) (hp : s.pins.perstN = true) (h3 : s.pm.state ≠ 3) (he : s.earlyDone = false) :
    Safety.Takes (.configRequest fn op) s (s.emit (.cfgRetry fn)) := by
  refine (if_neg (by simp [hon, hp])).trans ((if_pos (by simp [he])).trans ?_)
  rw [State.tlp_of_ne h3]
  rfl

theorem configRequest_absent (op : ConfigOp) (hon : s.on = true) (hp : s.pins.perstN = true) (he : s.earlyDone = true) (hx : s.fnExists fn = false) :
    Safety.Takes (.configRequest fn op) s s :=
  (if_neg (by simp [hon, hp])).trans ((if_neg (by simp [he])).trans (if_pos (by simp [hx])))

/-- What is left of a request once the function answers. -/
theorem configRequest_row {op : ConfigOp} {x : State → Host.Outcome State Fault Refusal} (h : s.configures fn)
    (hrow : exec (.configRequest fn op) s =
      if !s.on || !s.pins.perstN then commit s s
      else if !s.earlyDone then commit s (s.tlp.emit (.cfgRetry fn))
      else if !s.fnExists fn then commit s s
      else x s.tlp) : exec (.configRequest fn op) s = x s := by
  obtain ⟨hon, hp, h3, he, hx⟩ := h
  rw [hrow, State.tlp_of_ne h3]
  exact (if_neg (by simp [hon, hp])).trans ((if_neg (by simp [he])).trans (if_neg (by simp [hx])))

theorem configRequest_answer (h : s.configures fn) : exec (.configRequest fn .read) s =
    commit s (s.emit (if fn = 0 then .cfgAnswer 0 0x1F5D 0x0832 s.image.early.subsysVid s.image.early.subsysDid s.image.early.totalVfs s.dev.numVfs s.dev.vfEnable
        else .cfgAnswer fn 0xFFFF 0xFFFF s.image.early.subsysVid s.image.early.subsysDid 0 0 false)) :=
  configRequest_row (x := fun z => commit s (z.emit (if fn = 0 then
    .cfgAnswer 0 0x1F5D 0x0832 z.image.early.subsysVid z.image.early.subsysDid z.image.early.totalVfs z.dev.numVfs z.dev.vfEnable
    else .cfgAnswer fn 0xFFFF 0xFFFF z.image.early.subsysVid z.image.early.subsysDid 0 0 false))) h rfl

/-- A field of the function set, and the messages that can then go sent. -/
def State.setFn (s : State) (fn : Nat) (f : PcieFn → PcieFn) : State := (s.modTn fn fun x => { x with fn := f x.fn }).flushMsix fn

theorem configRequest_busMaster (h : s.configures fn) (b : Bool) :
    Safety.Takes (.configRequest fn (.busMaster b)) s (s.setFn fn fun f => { f with busMaster := b }) :=
  configRequest_row (x := fun z => commit s (z.setFn fn fun f => { f with busMaster := b })) h rfl

theorem configRequest_msixEnable (h : s.configures fn) (b : Bool) :
    Safety.Takes (.configRequest fn (.msixEnable b)) s (s.setFn fn fun f => { f with msixEn := b }) :=
  configRequest_row (x := fun z => commit s (z.setFn fn fun f => { f with msixEn := b })) h rfl

theorem configRequest_functionMask (h : s.configures fn) (b : Bool) :
    Safety.Takes (.configRequest fn (.functionMask b)) s (s.setFn fn fun f => { f with msixMask := b }) :=
  configRequest_row (x := fun z => commit s (z.setFn fn fun f => { f with msixMask := b })) h rfl

theorem configRequest_numVfs (h : s.configures fn) (n : Nat) : Safety.Takes (.configRequest fn (.numVfs n)) s
    (if fn = 0 ∧ s.dev.vfEnable = false ∧ n ≤ s.image.early.totalVfs then { s with dev := { s.dev with numVfs := n } } else s) := by
  refine takes_of_commit (configRequest_row (x := fun z => commit s
    (if fn = 0 && !z.dev.vfEnable && n ≤ z.image.early.totalVfs then z.modDev fun d => { d with numVfs := n } else z)) h rfl) ?_
  simp only [Bool.and_eq_true, decide_eq_true_eq, Bool.not_eq_true', and_assoc]
  rfl

theorem configRequest_readReg (h : s.configures fn) (r : CfgReg) :
    Safety.Takes (.configRequest fn (.readReg r)) s (s.emit (.cfgReg fn r ((s.tn fn).fn.cfgReg fn s.dev.vfEnable r))) :=
  configRequest_row (x := fun z => commit s (z.emit (.cfgReg fn r ((z.tn fn).fn.cfgReg fn z.dev.vfEnable r)))) h rfl

theorem configRequest_writeReg (h : s.configures fn) (r : CfgReg) (v : Word) :
    Safety.Takes (.configRequest fn (.writeReg r v)) s (s.modTn fn fun x => { x with fn := x.fn.cfgWrite fn v r }) :=
  configRequest_row (x := fun z => commit s (z.modTn fn fun x => { x with fn := x.fn.cfgWrite fn v r })) h rfl

/-- The virtual functions that come up as VF Enable sets. -/
def State.vfsUp (s : State) : State :=
  (s.modDev fun d => { d with vfEnable := true }).each (List.range' 1 15) fun s u =>
    if s.fnExists u && s.ready rdHOST then s.modTn u fun x => { x with func := true } else s

theorem configRequest_vfEnable (h : s.configures fn) (b : Bool) : exec (.configRequest fn (.vfEnable b)) s =
    if fn ≠ 0 || s.image.safe then commit s s else if b then commit s s.vfsUp else commit s s.dropVfs.settle :=
  configRequest_row (x := fun z => if fn ≠ 0 || z.image.safe then commit s z else if b then commit s z.vfsUp else commit s z.dropVfs.settle) h rfl

theorem State.vfsUp_tenantsOnly (s : State) : (s.modDev fun d => { d with vfEnable := true }).TenantsOnly s.vfsUp :=
  State.TenantsOnly.each (fun s u => by
    split
    · exact rfl
    · exact rfl) _ _

theorem State.dev_vfsUp (s : State) : s.vfsUp.dev = { s.dev with vfEnable := true } := by
  rw [s.vfsUp_tenantsOnly]; rfl

end Configuration

/-- Settles O52: each register by its row, and each configuration request by what its function answers. -/
theorem registerAndConfigurationWrites : Obligations.RegisterAndConfigurationWrites := by
  unfold Obligations.RegisterAndConfigurationWrites
  refine ⟨⟨fun s => ⟨fun hr hp => ?_, fun h => ?_⟩, fun s u value => ⟨fun hr => ?_, fun hr => ⟨s.tqEvtWrite u value, rfl, ?_,
      fun d hd => State.evSrc_tqEvtWrite_hit hr hd, fun d hd => State.evSrc_tqEvtWrite_other hr hd⟩⟩,
    fun s lossId => ⟨fun h => takes_of_commit rfl (State.ringRel_of_nothing ?_), fun hr hs h0 h =>
      ⟨s.released lossId.toNat, takes_of_commit rfl (State.ringRel_of_held hr hs h0 h), s.lossDone_released lossId.toNat⟩⟩,
    fun s w => ⟨fun h => registerWrite_silent ?_, fun hr hb ho h3 off value hu h8 => ?_⟩⟩,
    fun s fn op => ⟨configRequest_held op, fun hon hp h3 => ⟨configRequest_retry op hon hp h3, configRequest_absent op hon hp, fun he hx => ?_⟩⟩⟩
  · refine takes_of_commit rfl ((if_pos (by rcases hp with hp | hp <;> simp [hr, hp])).trans (if_neg (by rcases hp with hp | hp <;> simp [hp])))
  · exact takes_of_commit rfl (if_neg (by rcases h with h | h <;> simp [h]))
  · exact takes_of_commit rfl (if_pos (by simp [hr]))
  · exact Eq.trans (State.tqEvtWrite_only hr value) (congrArg (fun z : State => { z with ev := (s.tqEvtWrite u value).ev }) s.tlp_eq)
  · rcases h with h | h | h | h
    · exact .inl h
    · exact .inr (.inl h)
    · exact .inr (.inr (.inl h))
    · refine .inr (.inr (.inr ?_))
      rintro ⟨e, he, hk, hd⟩
      rcases h e he with h | h
      · exact h hk
      · exact Bool.false_ne_true (hd.symm.trans h)
  · rcases h with h | h | h | h
    · exact .inl fun ha => Bool.false_ne_true (h.symm.trans ha.1)
    · exact .inl fun ha => ha.2.1.elim h.1 fun hb => h.2.elim (absurd hb.1) (absurd hb.2)
    · exact .inl fun ha => h ha.2.2
    · exact .inr h
  · have hdev : ∀ {e}, w.bar = 2 → off < 0x20000 → s.writeDevice off value (BitVec.allOnes 64) = e → Safety.Takes (.registerWrite w) s e :=
      fun hbar hlt he => registerWrite_word hr hb ho h3 hu h8 (by rw [hbar, writeReg_device s w.fn hlt, he])
    have hten : ∀ {e}, w.bar = 0 → s.writeBar0 w.fn off value (BitVec.allOnes 64) = e → Safety.Takes (.registerWrite w) s e :=
      fun hbar he => registerWrite_word hr hb ho h3 hu h8 (by rw [hbar, writeReg_tenant, he])
    refine ⟨fun ⟨hbar, hoff⟩ hv => hdev hbar (by omega) ?_, fun ⟨hbar, hoff⟩ => hdev hbar (by omega) ?_, fun ⟨hbar, hoff⟩ => hdev hbar (by omega) ?_,
      fun ⟨hbar, hoff⟩ => hdev hbar (by omega) ?_, fun ⟨hbar, hoff⟩ hv => hten hbar ?_, fun ⟨hbar, hoff⟩ hv => hten hbar ?_, fun ⟨hbar, hoff⟩ => hten hbar ?_,
      fun i hi ⟨hbar, hoff⟩ => hdev hbar (by omega) ?_, fun ⟨hbar, hoff⟩ => hdev hbar (by omega) ?_, fun ⟨hbar, hoff⟩ => hten hbar ?_⟩ <;> rw [hoff]
    · exact (if_pos rfl).trans (if_pos hv)
    · exact (if_neg (by decide)).trans ((if_pos rfl).trans (if_pos (by decide)))
    · rfl
    · rfl
    · exact (writeBar0_cfg s w.fn value).trans (if_pos hv)
    · exact (writeBar0_cfg s w.fn value).trans (if_neg (ne_true_of_eq_false hv))
    · rfl
    · exact writeDevice_evSts s hi value _
    · rfl
    · rfl
  · have h : s.configures fn := ⟨hon, hp, h3, he, hx⟩
    refine ⟨fun h0 => takes_of_commit (configRequest_answer h) (congrArg s.emit (if_pos h0)), fun h0 => takes_of_commit (configRequest_answer h) (congrArg s.emit (if_neg h0)),
      fun b => ⟨configRequest_busMaster h b, configRequest_msixEnable h b, configRequest_functionMask h b⟩, configRequest_numVfs h,
      fun r => ⟨_, configRequest_readReg h r, ?_, ?_, ?_, ?_, ?_⟩, fun r v => ⟨_, configRequest_writeReg h r v, rfl, ?_, ?_, ?_, ?_, ?_, ?_⟩,
      fun h0 b => (configRequest_vfEnable h b).trans (if_pos (by rcases h0 with h0 | h0 <;> simp [h0])),
      fun h0 hs => ⟨(configRequest_vfEnable h false).trans ((if_neg (by simp [h0, hs])).trans (if_neg (by decide))),
        s.vfsUp, (configRequest_vfEnable h true).trans ((if_neg (by simp [h0, hs])).trans (if_pos rfl)), ?_, ?_⟩⟩
    · rintro (rfl | rfl) <;> rfl
    · rintro (rfl | rfl) <;> rfl
    · rintro rfl rfl; rfl
    · rintro rfl rfl; rfl
    · rintro rfl; rfl
    · exact fun u hu => (s.tn_modTn fn u _).trans (if_neg hu)
    · rw [State.tn_modTn, if_pos rfl]
    · intro hr
      rw [State.tn_modTn, if_pos rfl]
      rcases hr with rfl | rfl | rfl | rfl <;> rfl
    · rintro rfl h0
      rw [State.tn_modTn, if_pos rfl]
      exact if_pos h0
    · rintro rfl
      rw [State.tn_modTn, if_pos rfl]; rfl
    · rintro rfl
      rw [State.tn_modTn, if_pos rfl]; rfl
    · exact s.dev_vfsUp
    · rw [s.dev_vfsUp]; exact s.vfsUp_tenantsOnly

end Sys2Proof.Machine

end

section

/-! PROOF. O55 and O56: the image commands, and blocks and gap entries. -/

namespace Sys2Proof.Machine

/-! ### Bytes of the NVM -/

theorem nvmRead_nil (x : Nat) : nvmRead [] x = 0xFF := rfl

theorem nvmRead_cons_of_ne {k x : Nat} (v : Byte) (r : List Host.Cell) (h : k ≠ x) : nvmRead ((k, v) :: r) x = nvmRead r x := by
  simp [nvmRead, h]

theorem nvmRead_cons_same (k : Nat) (v : Byte) (r : List Host.Cell) : nvmRead ((k, v) :: r) k = v := by
  simp [nvmRead]

/-- An address below every cell reads as erased. -/
theorem nvmRead_of_lt {m : List Host.Cell} {x : Nat} (h : ∀ c ∈ m, x < c.1) : nvmRead m x = 0xFF := by
  have hnone : m.find? (fun c => c.1 == x) = none := List.find?_eq_none.2 fun c hc => by simpa using Nat.ne_of_gt (h c hc)
  rw [nvmRead, hnone]; rfl

/-- Cells in order from `a` on give the byte of each address. -/
theorem nvmTake_eq_map (n a : Nat) (m : List Host.Cell) (hs : m.Pairwise fun x y => x.1 < y.1) (hm : ∀ c ∈ m, a ≤ c.1) :
    nvmTake n a m = (List.range' a n).map (nvmRead m) := by
  induction n generalizing a m with
  | zero => rfl
  | succ n ih =>
    rw [List.range'_succ, List.map_cons]
    match m, hs, hm with
    | [], hs, _ => exact congrArg (0xFF :: ·) (ih (a + 1) [] hs (by simp))
    | (k, v) :: r, hs, hm =>
      obtain ⟨hk, hr⟩ := List.pairwise_cons.1 hs
      rw [nvmTake]
      split
      · next h =>
        subst h
        rw [nvmRead_cons_same, ih (k + 1) r hr fun c hc => hk c hc]
        refine congrArg (v :: ·) (List.map_congr_left fun x hx => (nvmRead_cons_of_ne v r ?_).symm)
        have hx1 := (List.mem_range'_1.1 hx).1
        omega
      · next h =>
        have hak : a < k := Nat.lt_of_le_of_ne (hm _ List.mem_cons_self) (Ne.symm h)
        have hlt : ∀ c ∈ (k, v) :: r, a < c.1 := fun c hc => (List.mem_cons.1 hc).elim (fun e => e ▸ hak) fun hc => Nat.lt_trans hak (hk c hc)
        rw [nvmRead_of_lt hlt, ih (a + 1) _ hs hlt]

/-- Cells below an address play no part in what stands at or above it. -/
theorem nvmRead_dropWhile {m : List Host.Cell} {a x : Nat} (h : a ≤ x) : nvmRead (m.dropWhile fun c => decide (c.1 < a)) x = nvmRead m x := by
  induction m with
  | nil => rfl
  | cons c r ih =>
    rw [List.dropWhile_cons]
    split
    · next hc => rw [ih, ← nvmRead_cons_of_ne c.2 r (x := x) (k := c.1) (Nat.ne_of_lt (Nat.lt_of_lt_of_le (of_decide_eq_true hc) h))]
    · rfl

theorem le_of_mem_dropWhile {m : List Host.Cell} {a : Nat} (hs : m.Pairwise fun x y => x.1 < y.1) :
    ∀ c ∈ m.dropWhile fun c => decide (c.1 < a), a ≤ c.1 := by
  induction m with
  | nil => simp
  | cons c r ih =>
    obtain ⟨hc, hr⟩ := List.pairwise_cons.1 hs
    rw [List.dropWhile_cons]
    split
    · exact ih hr
    · next hlt =>
      have hac : a ≤ c.1 := Nat.le_of_not_lt (by simpa using hlt)
      exact fun d hd => (List.mem_cons.1 hd).elim (fun e => e ▸ hac) fun hd => Nat.le_trans hac (Nat.le_of_lt (hc d hd))

/-- The bytes of a memory in its canonical form are the byte at each address. -/
theorem nvmBytes_eq_map {m : List Host.Cell} (hm : Memory.wf m) (a n : Nat) : nvmBytes m a n = (List.range' a n).map (nvmRead m) := by
  refine (nvmTake_eq_map n a _ (hm.1.sublist (List.dropWhile_sublist _)) (le_of_mem_dropWhile hm.1)).trans ?_
  exact List.map_congr_left fun x hx => nvmRead_dropWhile (List.mem_range'_1.1 hx).1

/-- A write reads back, and leaves every other byte. -/
theorem nvmBytes_nvmWrite {m : List Host.Cell} (hm : Memory.wf m) (a : Nat) (bs : Bytes) :
    (∀ x, (x < a ∨ a + bs.length ≤ x) → nvmBytes (nvmWrite a bs m) x 1 = nvmBytes m x 1) ∧ nvmBytes (nvmWrite a bs m) a bs.length = bs := by
  have hw := nvmWrite_wf a bs m hm
  refine ⟨fun x hx => ?_, ?_⟩
  · rw [nvmBytes_eq_map hw, nvmBytes_eq_map hm]
    refine congrArg (fun b => [b]) ((nvmRead_nvmWrite a x bs m).trans (if_neg (by omega)))
  · rw [nvmBytes_eq_map hw]
    refine List.ext_getElem (by simp) fun i hi hi' => ?_
    rw [List.getElem_map, List.getElem_range', nvmRead_nvmWrite, if_pos (by omega)]
    simp [hi']

/-! ### Image Write and Image Activate -/

section Images

variable {s : State} {c : Cmd}

/-- What Image Write accepts. -/
def imageWriteOk (e : SubEntry) (h : HostData) : Prop :=
  e.headOk false false = true ∧ e.dataOk h = true ∧ fld e.w4 31 1 = 0 ∧ e.w5 = 0 ∧ e.w6 = 0 ∧ e.w7 = 0 ∧ fld e.w4 63 32 % 65536 = 0 ∧
    fld e.w4 63 32 < 16777216 ∧ e.len % 65536 = 0 ∧ 65536 ≤ e.len ∧ e.len ≤ 1048576 ∧ fld e.w4 63 32 + e.len ≤ 16777216

theorem imageWriteOk_iff (e : SubEntry) (h : HostData) :
    (e.headOk false false && e.dataOk h && fld e.w4 31 1 == 0 && zeros [e.w5, e.w6, e.w7] && fld e.w4 63 32 % 65536 == 0 &&
      decide (fld e.w4 63 32 < 16777216) && e.len % 65536 == 0 && decide (65536 ≤ e.len) && decide (e.len ≤ 1048576) &&
      decide (fld e.w4 63 32 + e.len ≤ 16777216)) = true ↔ imageWriteOk e h := by
  simp [imageWriteOk, zeros, and_assoc]

/-- Where the list of an Image Write goes. -/
def imageWriteAt (e : SubEntry) : Nat := copyBase (bit e.w4 0) + fld e.w4 63 32

theorem doImageWrite_fails (cut : Option Nat) (h : ¬ imageWriteOk c.entry c.data) : s.doImageWrite c cut = s.complete c ⟨0, 2⟩ {} :=
  if_pos (check_fails (imageWriteOk_iff _ _) h)

theorem doImageWrite_runs (cut : Option Nat) (h : imageWriteOk c.entry c.data) : s.doImageWrite c cut =
    match cut with
    | none => (s.modImage fun i => { i with nvm := nvmWrite (imageWriteAt c.entry) (hostBytes c.entry c.data) i.nvm }).succeed c
    | some k => (s.modImage fun i => { i with nvm := nvmWrite (imageWriteAt c.entry) (imagePages (hostBytes c.entry c.data) k) i.nvm }).dropCmd c.id := by
  refine (if_neg (check_passes (imageWriteOk_iff _ _) h)).trans ?_
  cases cut <;> rfl

/-- What Image Activate accepts. -/
def imageActivateOk (e : SubEntry) : Prop :=
  e.headOk false false = true ∧ e.noData = true ∧ fld e.w4 63 1 = 0 ∧ e.w5 = 0 ∧ e.w6 = 0 ∧ e.w7 = 0

theorem imageActivateOk_iff (e : SubEntry) :
    (e.headOk false false && e.noData && fld e.w4 63 1 == 0 && zeros [e.w5, e.w6, e.w7]) = true ↔ imageActivateOk e := by
  simp [imageActivateOk, zeros, and_assoc]

/-- The check of the copy that an Image Activate names. -/
def State.activateCheck (s : State) (c : Cmd) (fails : List NvmFail) : Except ImgFail ImgOk :=
  chkCopy s.fuses.keyHash (if s.image.earlyFrom.isSome then some s.image.earlyBytes else none) (failAt fails (bit c.entry.w4 0))
    (s.copyBytes (bit c.entry.w4 0))

/-- NEXT_COPY stands, and the command reports it with the check's result. -/
def State.activated (z : State) (c : Cmd) (nxt : Bool) : Except ImgFail ImgOk → State
  | .ok x => (z.modImage fun i => { i with nextCopy := nxt }).succeed c (mkw [(8, b2n nxt), (9, b2n x.sigOk)])
  | .error f => (z.modImage fun i => { i with nextCopy := nxt }).complete c Status.imageCheckFailed { result := mkw [(0, f.1), (8, b2n nxt), (32, f.2)] }

theorem doImageActivate_fails (fails : List NvmFail) (h : ¬ imageActivateOk c.entry) : s.doImageActivate c fails = s.complete c ⟨0, 2⟩ {} :=
  if_pos (check_fails (imageActivateOk_iff _) h)

theorem doImageActivate_some {fails : List NvmFail} {nxt : Bool} (h : imageActivateOk c.entry) (hn : s.nextLoad fails = some nxt) :
    s.doImageActivate c fails = s.activated c nxt (s.activateCheck c fails) := by
  refine (if_neg (check_passes (imageActivateOk_iff _) h)).trans ?_
  rw [hn, ← State.activateCheck]
  cases s.activateCheck c fails <;> rfl

theorem doImageActivate_none {fails : List NvmFail} (h : imageActivateOk c.entry) (hn : s.nextLoad fails = none) :
    s.doImageActivate c fails = s.take.activated c (s.free.getLsbD 0) (s.activateCheck c fails) := by
  refine (if_neg (check_passes (imageActivateOk_iff _) h)).trans ?_
  rw [hn, ← State.activateCheck]
  cases s.activateCheck c fails <;> rfl

theorem imageWrite_runs {e : State} {h : HostData} {cut : Option Nat} (hc : s.imageCmd 0x28 = some c) (h3 : s.dev.quiesced ≠ 3) (h4 : s.dev.quiesced ≠ 4)
    (he : (if s.loading then s.waitLoad c h else (s.doImageWrite { c with data := h } cut).settle) = e) : Safety.Takes (.imageWrite ⟨h, cut⟩) s e :=
  takes_run (if_neg (by simp [h3, h4])) hc he

theorem imageActivate_runs {e : State} {fails : List NvmFail} (hc : s.imageCmd 0x29 = some c)
    (he : (if s.loading then s.waitLoad c ⟨[], []⟩ else (s.doImageActivate c fails).settle) = e) : Safety.Takes (.imageActivate fails) s e :=
  takes_run rfl hc he

theorem imageWrite_settles {e : State} {h : HostData} {cut : Option Nat} (hc : s.imageCmd 0x28 = some c) (h3 : s.dev.quiesced ≠ 3) (h4 : s.dev.quiesced ≠ 4)
    (hl : s.loading = false) (he : s.doImageWrite { c with data := h } cut = e) : Safety.Settles (.imageWrite ⟨h, cut⟩) s e :=
  imageWrite_runs hc h3 h4 ((if_neg (ne_true_of_eq_false hl)).trans (congrArg State.settle he))

theorem imageActivate_settles {e : State} {fails : List NvmFail} (hc : s.imageCmd 0x29 = some c) (hl : s.loading = false)
    (he : s.doImageActivate c fails = e) : Safety.Settles (.imageActivate fails) s e :=
  imageActivate_runs hc ((if_neg (ne_true_of_eq_false hl)).trans (congrArg State.settle he))

end Images

/-- Settles O55: what an Image Write programs, whole or cut, and what an Image Activate reports. -/
theorem imageCommandsWriteAndCheck : Obligations.ImageCommandsWriteAndCheck := by
  unfold Obligations.ImageCommandsWriteAndCheck
  refine ⟨fun s h cut hq => if_pos (by rcases hq with hq | hq <;> simp [hq]), fun s c h cut hc h3 h4 =>
      ⟨fun hl => ?_, fun hl hno => ?_, fun hl hok hcut => ?_, fun hl hok k hcut => ?_⟩,
    fun s c fails hc => ⟨fun hl => ?_, fun hl hno => ?_, fun hl hok nxt hn => ⟨fun x hr => ?_, fun f hr => ?_⟩,
      fun hl hok hn => ⟨s.free.getLsbD 0, _, rfl, fun x hr => ?_, fun f hr => ?_⟩⟩⟩
  · exact imageWrite_runs hc h3 h4 (if_pos hl)
  · exact imageWrite_settles hc h3 h4 hl (doImageWrite_fails cut hno)
  · subst hcut
    exact ⟨_, imageWrite_settles hc h3 h4 hl (doImageWrite_runs none hok), fun hwf => nvmBytes_nvmWrite hwf _ _⟩
  · subst hcut
    exact ⟨_, imageWrite_settles hc h3 h4 hl (doImageWrite_runs (some k) hok), fun hwf => nvmBytes_nvmWrite hwf _ _⟩
  · exact imageActivate_runs hc (if_pos hl)
  · exact imageActivate_settles hc hl (doImageActivate_fails fails hno)
  · exact imageActivate_settles hc hl ((doImageActivate_some hok hn).trans (congrArg (s.activated c nxt) hr))
  · exact imageActivate_settles hc hl ((doImageActivate_some hok hn).trans (congrArg (s.activated c nxt) hr))
  · exact imageActivate_settles hc hl ((doImageActivate_none hok hn).trans (congrArg (s.take.activated c (s.free.getLsbD 0)) hr))
  · exact imageActivate_settles hc hl ((doImageActivate_none hok hn).trans (congrArg (s.take.activated c (s.free.getLsbD 0)) hr))

/-! ### Blocks and gap entries -/

theorem State.modVol_none {s : State} {v : Nat} (h : s.vol? v = none) (f : Volume → Volume) : s.modVol v f = s := by
  rw [State.modVol, h]

theorem State.modVol_some {s : State} {v : Nat} {w : Volume} (h : s.vol? v = some w) (f : Volume → Volume) : s.modVol v f = s.setVol v (f w) := by
  rw [State.modVol, h]

theorem State.closeGap_missing {s : State} {v tag : Nat} (h : ∀ w, s.vol? v = some w → Tab.has w.gaps tag = false) : s.closeGap v tag = s := by
  rw [State.closeGap]
  cases hv : s.vol? v with
  | none => rfl
  | some w => exact if_neg (ne_true_of_eq_false (h w hv))

theorem State.placeWaiting_none {s : State} {v : Nat} (h : ∀ w, s.vol? v = some w → w.gapWait = [] ∨ s.roomFor v 64 = none) : s.placeWaiting v = s := by
  rw [State.placeWaiting]
  cases hv : s.vol? v with
  | none => rfl
  | some w =>
    dsimp only
    cases hg : w.gapWait with
    | nil => rfl
    | cons g r =>
      dsimp only
      rw [(h w hv).resolve_left (by simp [hg])]

theorem State.placeWaiting_some {s z : State} {v : Nat} {w : Volume} {g : Nat × Bytes} {r : List (Nat × Bytes)} (hv : s.vol? v = some w)
    (hg : w.gapWait = g :: r) (hz : s.roomFor v 64 = some z) :
    s.placeWaiting v = (z.modVol v fun w => { w with gapWait := r }).placeGap v g.2 := by
  simp only [State.placeWaiting, hv, hg, hz]

/-- Settles O56: the timer and the gap rows by the volume's open block and gap entries, the codec and the sealer by their fatal bits. -/
theorem blocksAreCutCompressedAndSealed : Obligations.BlocksAreCutCompressedAndSealed := by
  unfold Obligations.BlocksAreCutCompressedAndSealed
  refine fun s v => ⟨fun hv => ⟨settles_of_commit rfl (State.modVol_none hv _), settles_of_commit rfl (State.placeWaiting_none fun w hw => ?_),
      fun tag => settles_of_commit rfl (State.closeGap_missing fun w hw => ?_)⟩,
    fun w hv => ⟨fun ho => settles_of_commit rfl ((State.modVol_some hv _).trans (congrArg (s.setVol v) (if_pos ?_))),
      fun ho => settles_of_commit rfl ((State.modVol_some hv _).trans (congrArg (s.setVol v) (if_neg ?_))),
      fun tag ht => settles_of_commit rfl (State.closeGap_missing fun w' hw => ?_), fun tag ht => rfl,
      fun hg => settles_of_commit rfl (State.placeWaiting_none fun w' hw => .inl ?_),
      fun g r hg => ⟨fun hz => settles_of_commit rfl (State.placeWaiting_none fun w' hw => .inr hz),
        fun z hz => settles_of_commit rfl (State.placeWaiting_some hv hg hz)⟩⟩,
    fun body fault => ⟨fun h => if_pos h, fun h => ⟨(if_neg (ne_true_of_eq_false h)).trans (if_pos rfl), (if_neg (ne_true_of_eq_false h)).trans (if_neg Bool.false_ne_true)⟩,
      fun h => if_pos h, fun h => ⟨(if_neg (ne_true_of_eq_false h)).trans (if_pos rfl), (if_neg (ne_true_of_eq_false h)).trans (if_neg Bool.false_ne_true)⟩⟩⟩
  · exact nomatch hv.symm.trans hw
  · exact nomatch hv.symm.trans hw
  · exact List.isEmpty_iff.2 ho
  · exact mt List.isEmpty_iff.1 ho
  · rwa [← Option.some.inj (hv.symm.trans hw)]
  · rwa [← Option.some.inj (hv.symm.trans hw)]

end Sys2Proof.Machine

end

section

/-! PROOF. O58 and O59: datasets, separators and read-back rows, and buffer errors. -/

namespace Sys2Proof.Machine

/-! ### Datasets, separators and rows -/

section Tape

variable {s : State} {t : Nat}

/-- A dataset with no room for one of its volumes, or one to close early. -/
def State.closeDue (s : State) (t : Nat) (f : Fill) : Prop := (∃ r ∈ f.regions, s.userRoom t f r.vidx = 0) ∨ s.closeEarly t = true

theorem State.closeDue_iff (s : State) (t : Nat) (f : Fill) :
    (f.regions.any (fun r => s.userRoom t f r.vidx == 0) || s.closeEarly t) = true ↔ s.closeDue t f := by
  simp only [State.closeDue, Bool.or_eq_true, List.any_eq_true, beq_iff_eq]

theorem datasetClose_none (h : (s.fmt t).fill = none) : Safety.Takes (.datasetClose t) s s := by
  change execDatasetClose t s = _
  rw [execDatasetClose, h]
  rfl

theorem datasetClose_some {f : Fill} (h : (s.fmt t).fill = some f) : exec (.datasetClose t) s =
    if f.regions.any (fun r => s.userRoom t f r.vidx == 0) || s.closeEarly t then commit s ((s.closeDataset t).settle) else commit s s := by
  change execDatasetClose t s = _
  rw [execDatasetClose, h]

/-- A transport that writes. -/
def State.writesTape (s : State) (t : Nat) : Prop :=
  ((s.mot t).state = .streaming ∨ (s.mot t).state = .unloading) ∧ (s.mot t).vel ≠ 0 ∧ (s.fmt t).writing = true ∧ s.upLanes t ≠ [] ∧ s.dev.quiesced = 0

theorem State.writesTape_iff (s : State) (t : Nat) :
    (((s.mot t).state == .streaming || (s.mot t).state == .unloading) && (s.mot t).vel != 0 && (s.fmt t).writing && !(s.upLanes t).isEmpty &&
      s.dev.quiesced == 0) = true ↔ s.writesTape t := by
  simp [State.writesTape, and_assoc]

theorem intervalStart_row (h : s.writesTape t) : exec (.intervalStart t) s =
    if (s.tp t).gu.gate then commit s ((s.separatorStep t).settle) else commit s ((s.requestGate t (s.tp t).link.wbi).settle) :=
  if_pos ((s.writesTape_iff t).2 h)

theorem intervalStart_shut {e : State} (h : s.writesTape t) (hg : (s.tp t).gu.gate = false)
    (he : (if (s.tp t).gu.permit && (s.tp t).gu.reopen ≤ (s.tp t).gu.validRun then s.gateOpen t (s.tp t).link.wbi
      else s.modGu t fun g => { g with openReq := some (s.tp t).link.wbi }) = e) : Safety.Settles (.intervalStart t) s e :=
  settles_of_commit ((intervalStart_row h).trans (if_neg (ne_true_of_eq_false hg))) ((if_neg (ne_true_of_eq_false hg)).trans he)

/-- The interval that a row of a data track is of. -/
def State.dataInterval (s : State) (t ord sub row : Nat) : Option IntervalRec :=
  (s.fmt t).intervals.find? fun i => i.ord == ord && decide (sub < 32) && decide (row < 104)

/-- The interval that a row of a probe is of. -/
def State.probeInterval (s : State) (t : Nat) (r : RowReport) : Option IntervalRec :=
  (s.fmt t).intervals.find? fun i => i.ord == r.interval && !i.tmask.getLsbD r.track

theorem rowStatus_data_none {r : RowReport} {dsn sub row : Nat} (h : r.track < 32) (hk : r.kind = .data dsn sub row)
    (hf : s.dataInterval t r.interval sub row = none) : Safety.Takes (.rowStatus t r) s s := by
  refine (if_neg (Nat.not_le.2 h)).trans ?_
  rw [hk]
  dsimp only
  rw [← State.dataInterval, hf]
  rfl

theorem rowStatus_data_some {r : RowReport} {dsn sub row : Nat} {i : IntervalRec} (h : r.track < 32) (hk : r.kind = .data dsn sub row)
    (hf : s.dataInterval t r.interval sub row = some i) : Safety.Settles (.rowStatus t r) s (s.dataRow t i r dsn sub row) := by
  refine (if_neg (Nat.not_le.2 h)).trans ?_
  rw [hk]
  dsimp only
  rw [← State.dataInterval, hf]
  rfl

theorem rowStatus_probe_none {r : RowReport} (h : r.track < 32) (hk : r.kind = .probe) (hf : s.probeInterval t r = none) :
    Safety.Takes (.rowStatus t r) s s := by
  refine (if_neg (Nat.not_le.2 h)).trans ?_
  rw [hk]
  dsimp only
  rw [← State.probeInterval, hf]
  rfl

theorem rowStatus_probe_some {r : RowReport} {i : IntervalRec} (h : r.track < 32) (hk : r.kind = .probe) (hf : s.probeInterval t r = some i) :
    Safety.Settles (.rowStatus t r) s (s.probeRow t i r) := by
  refine (if_neg (Nat.not_le.2 h)).trans ?_
  rw [hk]
  dsimp only
  rw [← State.probeInterval, hf]
  rfl

theorem rowStatus_directory {r : RowReport} {g b c : Nat} (h : r.track < 32) (hk : r.kind = .directory g b c) :
    Safety.Settles (.rowStatus t r) s (s.directoryRow t r g b c) := by
  refine (if_neg (Nat.not_le.2 h)).trans ?_
  rw [hk]
  rfl

end Tape

/-- Settles O58: a dataset by its room, a separator by the gate, and a row by its kind and its interval. -/
theorem separatorsAndRowsDriveTheWriter : Obligations.SeparatorsAndRowsDriveTheWriter := by
  unfold Obligations.SeparatorsAndRowsDriveTheWriter
  refine fun s t => ⟨datasetClose_none, fun f hf => ⟨fun h => (datasetClose_some hf).trans (if_pos ((s.closeDue_iff t f).2 h)),
      fun h => (datasetClose_some hf).trans (if_neg (mt (s.closeDue_iff t f).1 h))⟩,
    ⟨fun h => if_neg (mt (s.writesTape_iff t).1 h), fun h hg => (intervalStart_row h).trans (if_pos hg),
      fun h hg hp hr => intervalStart_shut h hg (if_pos (Bool.and_eq_true_iff.2 ⟨hp, decide_eq_true hr⟩)),
      fun h hg hno => intervalStart_shut h hg (if_neg ?_)⟩,
    fun r => ⟨fun h => if_pos h, fun h => ⟨fun g b c hk => rowStatus_directory h hk,
      fun hk => ⟨rowStatus_probe_none h hk, fun i => rowStatus_probe_some h hk⟩,
      fun dsn sub row hk => ⟨rowStatus_data_none h hk, fun i => rowStatus_data_some h hk⟩⟩⟩⟩
  · intro hb
    obtain ⟨hp, hr⟩ := Bool.and_eq_true_iff.1 hb
    exact hno.elim (fun hf => Bool.false_ne_true (hf.symm.trans hp)) (Nat.not_lt.2 (of_decide_eq_true hr))

/-! ### Buffer errors -/

section Errors

variable {s : State}

theorem State.retireSegment_eq (s : State) (pool : Bool) : s.retireSegment pool =
    (let z := (({ s with bm := { s.bm with uncorr := min 65535 (s.bm.uncorr + 1), retired := s.bm.retired + 1, shared := s.bm.shared - 1,
                                           sharedFree := if pool then s.bm.sharedFree - 1 else s.bm.sharedFree } } : State).stat (stDev 1) 1).raise evBufferUncorrectable
     if 100 * s.bm.retired ≤ s.bm.segTotal ∧ s.bm.segTotal < 100 * (s.bm.retired + 1) then z.raise evBufferWear else z) := by
  simp only [State.retireSegment, Bool.and_eq_true, decide_eq_true_eq]
  rfl

theorem bufferUncorrectable_output (h : s.bm.segTotal ≠ 0) : Safety.Takes (.bufferUncorrectable .output) s (s.retireSegment true) := if_neg h

theorem bufferUncorrectable_unit {target : EccTarget} {t : Nat} (h : s.bm.segTotal ≠ 0) (ht : target = .packer t ∨ target = .staging t) :
    exec (.bufferUncorrectable target) s = if s.tpExists t then commit s (s.retireSegment true) else commit s s := by
  rcases ht with rfl | rfl <;> exact if_neg h

theorem bufferUncorrectable_records {v k : Nat} {w : Volume} (h : s.bm.segTotal ≠ 0) (hv : s.vol? v = some w) :
    exec (.bufferUncorrectable (.records v k)) s =
      if w.segs.contains k && decide (65536 * k < w.bufPos) then commit s ((s.recordsSegment v k w).settle) else commit s s := by
  refine (if_neg h).trans ?_
  rw [hv]

theorem bufferUncorrectable_noVolume {v k : Nat} (h : s.bm.segTotal ≠ 0) (hv : s.vol? v = none) : Safety.Takes (.bufferUncorrectable (.records v k)) s s := by
  refine (if_neg h).trans ?_
  rw [hv]; rfl

end Errors

/-- Settles O59: a corrected bit, and an uncorrectable one by what its segment held. -/
theorem bufferErrorsRetireSegments : Obligations.BufferErrorsRetireSegments := by
  unfold Obligations.BufferErrorsRetireSegments
  refine fun s => ⟨fun h target n => ⟨if_pos h, if_pos h⟩, fun h => ⟨fun n => if_neg h, ?_⟩⟩
  intro retired
  have hret : retired = s.retireSegment := funext fun pool => (s.retireSegment_eq pool).symm
  clear_value retired
  subst hret
  refine ⟨bufferUncorrectable_output h,
    fun t => ⟨fun hx => ⟨(bufferUncorrectable_unit h (.inl rfl)).trans (if_pos hx), (bufferUncorrectable_unit h (.inr rfl)).trans (if_pos hx)⟩,
      fun hx => ⟨(bufferUncorrectable_unit h (.inl rfl)).trans (if_neg (ne_true_of_eq_false hx)),
        (bufferUncorrectable_unit h (.inr rfl)).trans (if_neg (ne_true_of_eq_false hx))⟩⟩,
    if_neg h, fun v k hv => bufferUncorrectable_noVolume h hv,
    fun v k w hv => ⟨fun hno => (bufferUncorrectable_records h hv).trans (if_neg ?_),
      fun hk hp => ⟨_, rfl, _, rfl, (bufferUncorrectable_records h hv).trans (if_pos ?_)⟩⟩⟩
  · intro hb
    obtain ⟨hk, hp⟩ := Bool.and_eq_true_iff.1 hb
    exact hno.elim (fun hn => hn (List.contains_iff_mem.1 hk)) (Nat.not_le.2 (of_decide_eq_true hp))
  · exact Bool.and_eq_true_iff.2 ⟨List.contains_iff_mem.2 hk, decide_eq_true hp⟩

end Sys2Proof.Machine

end

section

/-! PROOF. O60: Function Level Resets. -/

namespace Sys2Proof.Machine

/-! ### The commands there are, and RDY -/

/-- The commands of the part, by number and tenant, and RDY of each tenant. -/
def State.desk (s : State) : List (Nat × Nat) × (Nat → Bool) := (s.arb.cmds.map fun c => (c.id, c.u), fun u => (s.tn u).rdy)

theorem State.desk_congr {s s' : State} (ha : s'.arb = s.arb) (ht : s'.tenants = s.tenants) : s'.desk = s.desk := by
  simp only [State.desk, State.tn, ha, ht]

theorem State.desk_of_tn {s s' : State} (ha : s'.arb = s.arb) (ht : ∀ u, (s'.tn u).rdy = (s.tn u).rdy) : s'.desk = s.desk := by
  simp only [State.desk, ha, ht]

@[simp] theorem State.modDev_desk (s : State) (f : Device → Device) : (s.modDev f).desk = s.desk := rfl
@[simp] theorem State.modPm_desk (s : State) (f : Power → Power) : (s.modPm f).desk = s.desk := rfl
@[simp] theorem State.modEv_desk (s : State) (f : Tab EvSource → Tab EvSource) : (s.modEv f).desk = s.desk := rfl
@[simp] theorem State.modStats_desk (s : State) (f : Stats → Stats) : (s.modStats f).desk = s.desk := rfl
@[simp] theorem State.modBm_desk (s : State) (f : Buffer → Buffer) : (s.modBm f).desk = s.desk := rfl
@[simp] theorem State.modVols_desk (s : State) (f : Tab Volume → Tab Volume) : (s.modVols f).desk = s.desk := rfl
@[simp] theorem State.modTps_desk (s : State) (f : Tab Transport → Tab Transport) : (s.modTps f).desk = s.desk := rfl
@[simp] theorem State.modSachet_desk (s : State) (f : Sachet → Sachet) : (s.modSachet f).desk = s.desk := rfl
@[simp] theorem State.emit_desk (s : State) (o : Output) : (s.emit o).desk = s.desk := rfl
@[simp] theorem State.take_desk (s : State) : s.take.desk = s.desk := rfl

@[simp] theorem State.modTn_desk (s : State) (u : Nat) (f : Tenant → Tenant) (h : ∀ x, (f x).rdy = x.rdy) : (s.modTn u f).desk = s.desk := by
  refine State.desk_of_tn (State.modTn_arb s u f) fun v => ?_
  rw [State.tn_modTn]
  split
  · next hv => rw [h, hv]
  · rfl

/-- A change of the commands that leaves their numbers and tenants. -/
theorem State.modCmds_desk (s : State) (f : Cmd → Cmd) (h : ∀ c, (f c).id = c.id ∧ (f c).u = c.u) :
    (s.modArb fun a => { a with cmds := a.cmds.map f }).desk = s.desk := by
  refine congrArg (fun l => (l, fun u => (s.tn u).rdy)) ?_
  exact (List.map_map ..).trans (List.map_congr_left fun c _ => Prod.ext (h c).1 (h c).2)

theorem State.modTenants_desk_map (s : State) (f : Nat × Tenant → Nat × Tenant) (hkey : ∀ p, (f p).1 = p.1) (hval : ∀ p, (f p).2.rdy = p.2.rdy) :
    (s.modTenants fun m => m.map f).desk = s.desk :=
  State.desk_of_tn rfl fun v => Tab.get_map_of_eq _ s.tenants f _ hkey hval v

@[simp] theorem State.each_desk {α : Type} (s : State) (l : List α) (f : State → α → State) (h : ∀ s a, (f s a).desk = s.desk) :
    (s.each l f).desk = s.desk := State.each_invariant State.desk h s l

@[simp] theorem State.modTp_desk (s : State) (t : Nat) (f : Transport → Transport) : (State.modTp s t f).desk = s.desk :=
  State.desk_congr (State.modTp_arb s t f) (State.modTp_tenants s t f)
@[simp] theorem State.modLd_desk (s : State) (t : Nat) (f : Loading → Loading) : (State.modLd s t f).desk = s.desk := by
  unfold State.modLd
  simp
@[simp] theorem State.modFmt_desk (s : State) (t : Nat) (f : Format → Format) : (State.modFmt s t f).desk = s.desk := by
  unfold State.modFmt
  simp
@[simp] theorem State.modGov_desk (s : State) (t : Nat) (f : Governor → Governor) : (State.modGov s t f).desk = s.desk := by
  unfold State.modGov
  simp
@[simp] theorem State.modVfy_desk (s : State) (t : Nat) (f : Verifier → Verifier) : (State.modVfy s t f).desk = s.desk := by
  unfold State.modVfy
  simp
@[simp] theorem State.setVol_desk (s : State) (v : Nat) (x : Volume) : (State.setVol s v x).desk = s.desk :=
  State.desk_congr (State.setVol_arb s v x) (State.setVol_tenants s v x)
@[simp] theorem State.modVol_desk (s : State) (v : Nat) (f : Volume → Volume) : (State.modVol s v f).desk = s.desk :=
  State.desk_congr (State.modVol_arb s v f) (State.modVol_tenants s v f)
@[simp] theorem State.modQp_desk (s : State) (u q : Nat) (f : QueuePair → QueuePair) : (State.modQp s u q f).desk = s.desk := by
  unfold State.modQp
  split <;> simp
@[simp] theorem State.stat_desk (s : State) (i n : Nat) : (State.stat s i n).desk = s.desk :=
  State.desk_congr (State.stat_arb s i n) (State.stat_tenants s i n)
@[simp] theorem State.sendMsix_desk (s : State) (fn vec : Nat) : (State.sendMsix s fn vec).desk = s.desk := by
  unfold State.sendMsix
  simp [apply_ite State.desk]
@[simp] theorem State.modEvSrc_desk (s : State) (e : Nat) (f : EvSource → EvSource) : (State.modEvSrc s e f).desk = s.desk :=
  State.desk_congr (State.modEvSrc_arb s e f) (State.modEvSrc_tenants s e f)
@[simp] theorem State.raise_desk (s : State) (e : Nat) : (State.raise s e).desk = s.desk := by
  unfold State.raise
  simp [apply_ite State.desk]
@[simp] theorem State.logError_desk (s : State) (u : Nat) (st : Status) (i : ErrInfo) : (State.logError s u st i).desk = s.desk := by
  unfold State.logError
  simp [apply_ite State.desk]
@[simp] theorem State.returnSegs_desk (s : State) (u n : Nat) : (State.returnSegs s u n).desk = s.desk :=
  State.desk_congr (State.returnSegs_arb s u n) (State.returnSegs_tenants s u n)
@[simp] theorem State.ungrant_desk (s : State) (u : Nat) (g : Nat × Nat) : (State.ungrant s u g).desk = s.desk :=
  State.desk_congr (State.ungrant_arb s u g) (State.ungrant_tenants s u g)
@[simp] theorem State.postCqe_desk (s : State) (u q : Nat) (w0 w1 : Word) : (State.postCqe s u q w0 w1).desk = s.desk := by
  unfold State.postCqe
  simp
@[simp] theorem State.signalCq_desk (s : State) (u q : Nat) : (State.signalCq s u q).desk = s.desk := by
  unfold State.signalCq
  simp [apply_ite State.desk]
@[simp] theorem State.giveBack_desk (s : State) (u op vol len : Nat) (segs : Nat × Nat) (bound : Bool) : (State.giveBack s u op vol len segs bound).desk = s.desk :=
  State.desk_congr (State.giveBack_arb s u op vol len segs bound) (State.giveBack_tenants s u op vol len segs bound)
@[simp] theorem State.sachetWrite_desk (s : State) (key n bytes : Nat) : (State.sachetWrite s key n bytes).desk = s.desk := by
  unfold State.sachetWrite
  simp [apply_ite State.desk]
@[simp] theorem State.putSlot_desk (s : State) (reason : Nat) (vols : List CrashVol) : (State.putSlot s reason vols).desk = s.desk := by
  unfold State.putSlot
  simp
@[simp] theorem State.snapshot_desk (s : State) (reason : Nat) : (State.snapshot s reason).desk = s.desk := by
  unfold State.snapshot
  simp
@[simp] theorem State.journal_desk (s : State) (h : Nat) (isV : Bool) (value : Nat) : (State.journal s h isV value).desk = s.desk := by
  unfold State.journal
  simp only []
  (repeat' split) <;> simp
@[simp] theorem State.wholeArea_desk (s : State) (a : Nat) : (State.wholeArea s a).desk = s.desk := by
  unfold State.wholeArea
  simp
@[simp] theorem State.commitDir_desk (s : State) (t : Nat) : (State.commitDir s t).desk = s.desk := by
  unfold State.commitDir
  split <;> simp [apply_ite State.desk]
@[simp] theorem State.modDir_desk (s : State) (t : Nat) (f : Directory → Directory) : (State.modDir s t f).desk = s.desk := by
  unfold State.modDir
  simp
@[simp] theorem State.ringDone_desk (s : State) (p : RingEntry → Bool) : (State.ringDone s p).desk = s.desk := by
  unfold State.ringDone
  simp
@[simp] theorem State.ringAppend_desk (s : State) (uuid : BitVec 128) (seq : Nat) (body : Bytes) : (State.ringAppend s uuid seq body).desk = s.desk := by
  unfold State.ringAppend
  simp
theorem State.takeSeg_desk (s : State) (u : Nat) : ∀ s1, State.takeSeg s u = some s1 → s1.desk = s.desk := by
  unfold State.takeSeg
  simp only []
  (repeat' split) <;> simp
theorem State.roomFor_desk (s : State) (h n : Nat) : ∀ s1, State.roomFor s h n = some s1 → s1.desk = s.desk := by
  intro s1 e
  unfold State.roomFor at e
  split at e
  · simp at e
  · split at e
    · simp_all
    · obtain ⟨a, ha, rfl⟩ := Option.map_eq_some_iff.1 e
      simp [State.takeSeg_desk _ _ a ha]
@[simp] theorem State.placeGap_desk (s : State) (h : Nat) (bs : Bytes) : (State.placeGap s h bs).desk = s.desk := by
  unfold State.placeGap
  simp
@[simp] theorem State.gapLog_desk (s : State) (h : Nat) (w : Volume) (tag : Nat) (g : GapOpen) : (State.gapLog s h w tag g).desk = s.desk := by
  unfold State.gapLog
  simp
@[simp] theorem State.dropGaps_desk (s : State) (h : Nat) : (State.dropGaps s h).desk = s.desk := by
  unfold State.dropGaps
  split <;> simp
@[simp] theorem State.closeGap_desk (s : State) (h tag : Nat) : (State.closeGap s h tag).desk = s.desk := by
  unfold State.closeGap
  split
  · rfl
  · split
    · simp only []
      split
      · rename_i s4 e
        split at e
        · simp [State.roomFor_desk _ _ _ _ e]
        · simp at e
      · simp
    · rfl
@[simp] theorem State.closeGaps_desk (s : State) (h : Nat) : (State.closeGaps s h).desk = s.desk := by
  unfold State.closeGaps
  split <;> simp
@[simp] theorem State.cut_desk (s : State) (h code : Nat) : (State.cut s h code).desk = s.desk := by
  unfold State.cut
  simp
@[simp] theorem State.syncDir_desk (s : State) (h : Nat) : (State.syncDir s h).desk = s.desk := by
  unfold State.syncDir
  split <;> simp
@[simp] theorem State.addLost_desk (s : State) (t : Nat) (r : LostRange) : (State.addLost s t r).desk = s.desk := by
  unfold State.addLost
  simp
@[simp] theorem State.zeroise_desk (s : State) (h : Nat) : (State.zeroise s h).desk = s.desk := by
  unfold State.zeroise
  simp
@[simp] theorem State.dropVol_desk (s : State) (h : Nat) : (State.dropVol s h).desk = s.desk := by
  unfold State.dropVol
  split
  · rfl
  · simp only [State.returnSegs_desk, State.modVols_desk]
    refine (State.modTenants_desk_map _ _ ?key ?val).trans (State.modCmds_desk _ _ fun c => ?cmds)
    · exact fun _ => rfl
    · exact fun _ => rfl
    · split <;> exact ⟨rfl, rfl⟩
@[simp] theorem State.takeDsn_desk (s : State) (t : Nat) : (State.takeDsn s t).2.desk = s.desk := by
  unfold State.takeDsn
  simp only []
  split
  · dsimp only
    simp
  · simp
@[simp] theorem State.reuseGroup_desk (s : State) (t g : Nat) : (State.reuseGroup s t g).desk = s.desk := by
  unfold State.reuseGroup
  simp
@[simp] theorem State.halt_desk (s : State) (t : Nat) : (State.halt s t).desk = s.desk := by
  unfold State.halt
  simp [apply_ite State.desk]
@[simp] theorem State.packOn_desk (s : State) (t : Nat) : (State.packOn s t).desk = s.desk := by
  unfold State.packOn
  (repeat' split) <;> simp
@[simp] theorem State.retarget_desk (s : State) (t : Nat) : (State.retarget s t).desk = s.desk := by
  unfold State.retarget
  split <;> simp [apply_ite State.desk]
@[simp] theorem State.closeGroup_desk (s : State) (t : Nat) : (State.closeGroup s t).desk = s.desk := by
  unfold State.closeGroup
  simp only []
  (repeat' split) <;> simp
@[simp] theorem State.groupCheck_desk (s : State) (t : Nat) : (State.groupCheck s t).desk = s.desk := by
  unfold State.groupCheck
  simp [apply_ite State.desk]
@[simp] theorem State.closeRegion_desk (s : State) (t off : Nat) (r : Region) : (State.closeRegion s t off r).2.desk = s.desk := by
  unfold State.closeRegion
  split <;> simp
@[simp] theorem State.closeDataset_desk (s : State) (t : Nat) : (State.closeDataset s t).desk = s.desk := by
  have fold : ∀ (l : List Region) (a : List Region × Nat × State), (l.foldl (fun (a : List Region × Nat × State) r =>
      let (r1, s') := a.2.2.closeRegion t a.2.1 r
      (a.1 ++ [r1], a.2.1 + (regionAll r1).length, s')) a).2.2.desk = a.2.2.desk := by
    intro l
    induction l with
    | nil => intro a; rfl
    | cons r l ih => intro a; rw [List.foldl_cons, ih]; simp
  unfold State.closeDataset
  split
  · rfl
  · simp only [State.groupCheck_desk]
    refine (State.each_desk _ _ _ fun s r => ?_).trans ?_
    · split <;> simp
    · simp only [State.modFmt_desk]
      exact fold _ _
theorem State.fillFor_desk (s : State) (t vidx : Nat) (force : Bool) : ∀ s1, State.fillFor s t vidx force = some s1 → s1.desk = s.desk := by
  unfold State.fillFor
  simp only []
  (repeat' split) <;> simp
@[simp] theorem State.placeBlock_desk (force : Bool) (n h ord : Nat) (s : State) : (State.placeBlock force n h ord s).desk = s.desk := by
  induction n generalizing s with
  | zero => rfl
  | succ n ih =>
    unfold State.placeBlock
    split
    · rfl
    · split
      · rfl
      · split
        · rfl
        · split
          · rfl
          · rename_i s1 e
            have e1 := State.fillFor_desk _ _ _ _ _ e
            split
            · exact e1
            · simp only [ih]
              split <;> simp [e1]
@[simp] theorem State.placeRest_desk (s : State) (h : Nat) : (State.placeRest s h).desk = s.desk := by
  unfold State.placeRest
  split <;> simp
@[simp] theorem State.sealBlock_desk (s : State) (h : Nat) (w : Volume) (b : Block) (dsn idx : Nat) : (State.sealBlock s h w b dsn idx).desk = s.desk := by
  unfold State.sealBlock
  simp
@[simp] theorem State.sealNext_desk (s : State) (h : Nat) (force : Bool) : (State.sealNext s h force).desk = s.desk := by
  unfold State.sealNext
  simp only []
  split
  · simp
  · split
    · simp
    · split
      · simp
      · split
        · split <;> simp
        · rename_i s1 e
          have e1 : s1.desk = s.desk := by
            split at e
            · rw [State.fillFor_desk _ _ _ _ _ e, State.placeRest_desk]
            · simp at e
          split <;> simp [e1]
@[simp] theorem State.compressNext_desk (s : State) (h : Nat) (body : Option Bytes) (force : Bool) : (State.compressNext s h body force).desk = s.desk := by
  unfold State.compressNext
  simp only []
  (repeat' split) <;> simp
@[simp] theorem State.sealAll_desk (s : State) (h : Nat) : (State.sealAll s h).desk = s.desk := by
  unfold State.sealAll
  simp only []
  (repeat' split) <;> simp
@[simp] theorem State.writeAgain_desk (s : State) (t : Nat) (d : Dataset) (again : Bool) : (State.writeAgain s t d again).desk = s.desk := by
  unfold State.writeAgain
  simp only [State.groupCheck_desk]
  rw [State.each_desk _ _ _ (fun s r => by split <;> simp)]
  simp
@[simp] theorem State.excludeOld_desk (s : State) (t : Nat) (ds : List Dataset) : (State.excludeOld s t ds).desk = s.desk := by
  unfold State.excludeOld
  simp
@[simp] theorem State.moveWrap_desk (s : State) (t : Nat) (ds : List Dataset) (wrap : Nat) : (State.moveWrap s t ds wrap).desk = s.desk := by
  unfold State.moveWrap
  simp
@[simp] theorem State.toPackWrap_desk (s : State) (t : Nat) : (State.toPackWrap s t).desk = s.desk := by
  unfold State.toPackWrap
  simp [apply_ite State.desk]
@[simp] theorem State.abandonMove_desk (s : State) (t : Nat) : (State.abandonMove s t).desk = s.desk := by
  unfold State.abandonMove
  simp [apply_ite State.desk]
@[simp] theorem State.tryResume_desk (s : State) (t : Nat) : (State.tryResume s t).desk = s.desk := by
  unfold State.tryResume
  simp only []
  (repeat' split) <;> simp
@[simp] theorem State.closeFor_desk (s : State) (t vidx : Nat) : (State.closeFor s t vidx).desk = s.desk := by
  unfold State.closeFor
  split <;> simp [apply_ite State.desk]
@[simp] theorem State.withdraw_desk (s : State) (u q : Nat) : (State.withdraw s u q).desk = s.desk := by
  unfold State.withdraw
  simp only []
  (repeat' split) <;> simp
@[simp] theorem State.offer_desk (s : State) (t n : Nat) : (State.offer s t n).desk = s.desk := by
  unfold State.offer
  simp
theorem State.grow_desk (s : State) (h n : Nat) : ∀ s1, State.grow s h n = some s1 → s1.desk = s.desk := by
  intro s1 e
  unfold State.grow at e
  split at e
  · simp at e
  · simp only [] at e
    split at e
    · obtain rfl := Option.some.inj e
      simp
    · simp at e
@[simp] theorem State.storeRecord_desk (s : State) (h seq : Nat) (rec : Bytes) (urgent : Bool) : (State.storeRecord s h seq rec urgent).desk = s.desk := by
  unfold State.storeRecord
  simp
@[simp] theorem State.bindCmd_desk (s : State) (c : Cmd) (len more : Nat) : (State.bindCmd s c len more).desk = s.desk := by
  refine (State.modCmds_desk _ _ fun c => ?_).trans (State.modVol_desk _ _ _)
  split <;> exact ⟨rfl, rfl⟩
theorem State.roomForWrite_desk (s : State) (c : Cmd) (w : Volume) : ∀ s1, State.roomForWrite s c w = some s1 → s1.desk = s.desk := by
  intro s1 e
  unfold State.roomForWrite at e
  simp only [] at e
  (repeat' split at e) <;> simp at e
  · rw [e]
  · rw [← e]; simp
  · obtain ⟨a, ha, rfl⟩ := e
    simp [State.grow_desk _ _ _ _ ha]
@[simp] theorem State.pruneRecord_desk (s : State) (c : Cmd) (t level : Nat) (r : Bytes) : (State.pruneRecord s c t level r).desk = s.desk := by
  unfold State.pruneRecord
  simp
@[simp] theorem State.takeRecord_desk (s : State) (c : Cmd) (t : Nat) (r : Bytes) : (State.takeRecord s c t r).desk = s.desk := by
  unfold State.takeRecord
  simp only []
  (repeat' split) <;> simp
@[simp] theorem State.admitted_desk (s : State) (c : Cmd) : (State.admitted s c).desk = s.desk := by
  unfold State.admitted
  simp only []
  (repeat' split) <;> simp
theorem State.putList_desk (s : State) (c : Cmd) (w : Volume) (rs : List Bytes) : ∀ s1, State.putList s c w rs = some s1 → s1.desk = s.desk := by
  intro s1 e
  obtain ⟨s2, e2, rfl⟩ := Option.map_eq_some_iff.1 e
  have h2 := State.roomForWrite_desk _ _ _ _ e2
  simp [apply_ite State.desk, h2]
@[simp] theorem State.flrWrite_desk (s : State) (c0 : Cmd) (h : HostData) : (State.flrWrite s c0 h).desk = s.desk := by
  unfold State.flrWrite
  simp only []
  split
  · rfl
  · split
    · split
      · rfl
      · split
        · rfl
        · rename_i w _ _ _ rs _ _
          cases e : s.putList { c0 with data := h } w rs with
          | none => rfl
          | some s1 => simpa using State.putList_desk _ _ _ _ _ e
    · rfl
@[simp] theorem State.flrSeal_desk (s : State) (l : List (Nat × Volume)) : (State.flrSeal s l).desk = s.desk := by
  unfold State.flrSeal
  simp [apply_ite State.desk]

/-! ### What ends commands -/

/-- What a step of the reset that ends commands leaves: the rest as it stands, no new command, and a tenant that is out of service so. -/
structure State.Winds (s s' : State) : Prop where
  still : s'.still = s.still
  keys : ∀ k ∈ s'.desk.1, k ∈ s.desk.1
  low : ∀ u, (s.tn u).cfgEn = false → (s.tn u).rdy = false → (s'.tn u).rdy = false

theorem State.Winds.of_frames {s s' : State} (hs : s'.still = s.still) (hd : s'.desk = s.desk) : s.Winds s' :=
  ⟨hs, fun _ hk => hd ▸ hk, fun u _ hr => (congrFun (congrArg Prod.snd hd) u).trans hr⟩

theorem State.Winds.refl (s : State) : s.Winds s := .of_frames rfl rfl

theorem State.cfgEn_of_still {s s' : State} (h : s'.still = s.still) (u : Nat) : (s'.tn u).cfgEn = (s.tn u).cfgEn :=
  congrArg (fun x => x.2.2.2.2.2) (State.tn_of_still h u)

theorem State.Winds.trans {s s' s'' : State} (h : s.Winds s') (h' : s'.Winds s'') : s.Winds s'' :=
  ⟨h'.still.trans h.still, fun k hk => h.keys k (h'.keys k hk),
    fun u he hr => h'.low u ((State.cfgEn_of_still h.still u).trans he) (h.low u he hr)⟩

theorem State.dropCmd_eq (s : State) (id : Nat) : ∃ z : State, z.desk = s.desk ∧
    s.dropCmd id = z.modArb fun a => { a with cmds := a.cmds.filter fun c => c.id != id } := by
  refine ⟨_, ?_, rfl⟩
  split <;> simp

theorem State.mem_keys_dropCmd {s : State} {id : Nat} {k : Nat × Nat} (h : k ∈ (s.dropCmd id).desk.1) : k ∈ s.desk.1 ∧ k.1 ≠ id := by
  obtain ⟨z, hz, hdrop⟩ := s.dropCmd_eq id
  rw [hdrop] at h
  obtain ⟨c, hc, rfl⟩ := List.mem_map.1 h
  obtain ⟨hc, hid⟩ := List.mem_filter.1 hc
  exact ⟨hz ▸ List.mem_map.2 ⟨c, hc, rfl⟩, by simpa using hid⟩

theorem State.dropCmd_winds (s : State) (id : Nat) : s.Winds (s.dropCmd id) := by
  refine ⟨s.dropCmd_still id, fun k hk => (State.mem_keys_dropCmd hk).1, fun u _ hr => ?_⟩
  obtain ⟨z, hz, hdrop⟩ := s.dropCmd_eq id
  rw [hdrop]
  exact (congrFun (congrArg Prod.snd hz) u).trans hr

/-- A tenant out of service does not come into it. -/
theorem State.tryRdy_of_off {s : State} {u : Nat} (h : (s.tn u).cfgEn = false) : s.tryRdy u = s := by
  simp [State.tryRdy, h]

theorem State.tn_tryRdy_other (s : State) {u v : Nat} (h : v ≠ u) : (s.tryRdy u).tn v = s.tn v := by
  simp only [State.tryRdy]
  split
  · split <;> exact (s.tn_modTn u v _).trans (if_neg h)
  · rfl

theorem State.rdy_rdyDown {s : State} {u v : Nat} (he : (s.tn v).cfgEn = false) (hr : (s.tn v).rdy = false) : ((s.rdyDown u).tn v).rdy = false := by
  rw [State.rdyDown]
  split
  · by_cases hv : v = u
    · subst hv
      rw [State.tryRdy_of_off (by rw [State.tn_modTn, if_pos rfl]; exact he), State.tn_modTn, if_pos rfl]
    · rw [State.tn_tryRdy_other _ hv, State.tn_modTn, if_neg hv, hr]
  · exact hr

theorem State.rdyDown_winds (s : State) (u : Nat) : s.Winds (s.rdyDown u) :=
  ⟨s.rdyDown_still u, fun _ hk => by rwa [State.desk, State.rdyDown_arb] at hk, fun _ he hr => State.rdy_rdyDown he hr⟩

theorem State.complete_eq (s : State) (c : Cmd) (st : Status) (r : Reply) : ∃ z : State, z.still = (s.dropCmd c.id).still ∧ z.desk = (s.dropCmd c.id).desk ∧
    s.complete c st r = z.rdyDown c.u := by
  refine ⟨_, ?_, ?_, rfl⟩
  · simp [apply_ite State.still]
  · simp [apply_ite State.desk]

theorem State.complete_winds (s : State) (c : Cmd) (st : Status) (r : Reply) : s.Winds (s.complete c st r) := by
  obtain ⟨z, hs, hd, hc⟩ := s.complete_eq c st r
  rw [hc]
  exact (s.dropCmd_winds c.id).trans ((State.Winds.of_frames hs hd).trans (z.rdyDown_winds c.u))

theorem State.finishDelete_winds (s : State) (c : Cmd) : s.Winds (s.finishDelete c) := by
  rw [State.finishDelete]
  split
  · exact s.complete_winds ..
  · exact State.Winds.trans (.of_frames (by simp) (by simp)) (State.complete_winds ..)

theorem State.finishClear_winds (s : State) (c : Cmd) : s.Winds (s.finishClear c) := by
  have hseal : s.Winds (s.sealAll c.entry.vol) := .of_frames (by simp) (by simp)
  rw [State.finishClear]
  split
  · exact hseal.trans (State.complete_winds ..)
  · split
    · exact hseal.trans (State.Winds.trans (.of_frames (by simp) (by simp)) (State.complete_winds ..))
    · exact hseal

/-! ### The commands of a tenant in a reset end -/

theorem State.flrCmd_eq (p : State × List (Nat × Nat × HostData)) (c : Cmd) : ∃ z : State, p.1.Winds z ∧ (State.flrCmd p c).1 = z.dropCmd c.id := by
  obtain ⟨s, held⟩ := p
  simp only [State.flrCmd]
  split
  · refine ⟨_, ?_, rfl⟩
    split
    · exact s.finishDelete_winds c
    · exact s.finishClear_winds c
  · split
    · split
      · exact ⟨_, .of_frames (by simp) (by simp), rfl⟩
      · exact ⟨s, .refl s, rfl⟩
    · exact ⟨s, .refl s, rfl⟩
  · exact ⟨s, .refl s, rfl⟩

theorem State.flrCmds_winds (l : List Cmd) (p : State × List (Nat × Nat × HostData)) :
    p.1.Winds (l.foldl State.flrCmd p).1 ∧ ∀ c ∈ l, ∀ k ∈ (l.foldl State.flrCmd p).1.desk.1, k.1 ≠ c.id := by
  induction l generalizing p with
  | nil => exact ⟨.refl _, fun c hc => absurd hc List.not_mem_nil⟩
  | cons c r ih =>
    obtain ⟨z, hz, hdrop⟩ := State.flrCmd_eq p c
    obtain ⟨hw, hgone⟩ := ih (State.flrCmd p c)
    refine ⟨(hz.trans (hdrop ▸ z.dropCmd_winds c.id)).trans hw, fun d hd k hk => ?_⟩
    rcases List.mem_cons.1 hd with rfl | hd
    · have hkd := hw.keys k hk
      rw [hdrop] at hkd
      exact (State.mem_keys_dropCmd hkd).2
    · exact hgone d hd k hk

/-- The tenants of a list out of service, in their reset. -/
def State.flrBegun (s : State) (us : List Nat) : State :=
  s.each us fun s u => s.modTn u fun x => { x with func := false, inFlr := true, cfgEn := false, rdy := false }

/-- Their pairs closed. -/
def State.flrClosed (s : State) (us : List Nat) : State :=
  (s.flrBegun us).each us fun s u => s.each (s.tn u).qps fun s p => s.closePair u p.1

theorem State.closePair_desk (s : State) (u q : Nat) : (s.closePair u q).desk = s.desk := by
  rw [State.closePair, State.modQp_desk, State.withdraw_desk]

theorem State.flrClosed_winds (s : State) (us : List Nat) : (s.flrBegun us).Winds (s.flrClosed us) :=
  .of_frames (State.each_still _ _ _ fun _ _ => State.each_still _ _ _ fun _ _ => State.closePair_still ..)
    (State.each_desk _ _ _ fun _ _ => State.each_desk _ _ _ fun _ _ => State.closePair_desk ..)

theorem State.flrStop_eq (s : State) (us : List Nat) (held : List (Nat × Nat × HostData)) :
    s.flrStop us held = (((s.flrClosed us).cmdsWhere fun c => us.contains c.u).foldl State.flrCmd (s.flrClosed us, held)).1 := rfl

theorem State.flrStop_winds (s : State) (us : List Nat) (held : List (Nat × Nat × HostData)) : (s.flrBegun us).Winds (s.flrStop us held) := by
  rw [State.flrStop_eq]
  exact (s.flrClosed_winds us).trans (State.flrCmds_winds _ (s.flrClosed us, held)).1

/-- No command of the tenants of a list is left. -/
def State.noCmdOf (s : State) (us : List Nat) : Prop := ∀ k ∈ s.desk.1, k.2 ∉ us

theorem State.noCmdOf_flrStop (s : State) (us : List Nat) (held : List (Nat × Nat × HostData)) : (s.flrStop us held).noCmdOf us := by
  intro k hk hu
  rw [State.flrStop_eq] at hk
  obtain ⟨hw, hgone⟩ := State.flrCmds_winds ((s.flrClosed us).cmdsWhere fun c => us.contains c.u) (s.flrClosed us, held)
  obtain ⟨c, hc, rfl⟩ := List.mem_map.1 (hw.keys k hk)
  exact hgone c (List.mem_filter.2 ⟨hc, List.contains_iff_mem.2 hu⟩) _ hk rfl

theorem State.noCmdOf_of_desk {s s' : State} {us : List Nat} (h : s'.desk.1 = s.desk.1) (hs : s.noCmdOf us) : s'.noCmdOf us := by
  rw [State.noCmdOf, h]
  exact hs

theorem State.noCmdOf_cmds {s : State} {us : List Nat} (h : s.noCmdOf us) : ∀ c ∈ s.arb.cmds, c.u ∉ us :=
  fun c hc => h (c.id, c.u) (List.mem_map.2 ⟨c, hc, rfl⟩)

theorem State.flrSeal_winds (s : State) (l : List (Nat × Volume)) : s.Winds (s.flrSeal l) := .of_frames (s.flrSeal_still l) (s.flrSeal_desk l)

/-! ### Changes of the tenants of a list -/

/-- A change of each tenant of a list that made twice is made once. -/
theorem State.tn_each_modTn {f : Tenant → Tenant} (hf : ∀ x, f (f x) = f x) (us : List Nat) (s : State) (v : Nat) :
    (s.each us fun s u => s.modTn u f).tn v = if v ∈ us then f (s.tn v) else s.tn v := by
  induction us generalizing s with
  | nil => rfl
  | cons u r ih =>
    refine (ih (s.modTn u f)).trans ?_
    rw [State.tn_modTn]
    by_cases hu : v = u
    · subst hu
      rw [if_pos rfl, if_pos List.mem_cons_self, hf, ite_self]
    · rw [if_neg hu]
      simp only [List.mem_cons, hu, false_or]

theorem State.tn_flrBegun (s : State) (us : List Nat) (v : Nat) : (s.flrBegun us).tn v =
    if v ∈ us then { s.tn v with func := false, inFlr := true, cfgEn := false, rdy := false } else s.tn v :=
  State.tn_each_modTn (f := fun x => { x with func := false, inFlr := true, cfgEn := false, rdy := false }) (fun _ => rfl) us s v

/-- What a Function Level Reset carries over of each tenant, and what the part is in. -/
def State.bearing (s : State) : (Nat → Nat × Bool × Nat) × (Device × Bool) × Image :=
  (fun u => ((s.tn u).gen, (s.tn u).snapRead, (s.tn u).snapLost), s.dev.still, s.image)

theorem State.bearing_flrBegun (s : State) (us : List Nat) : (s.flrBegun us).bearing = s.bearing := by
  have hdev : (s.flrBegun us).dev = s.dev := State.each_invariant State.dev (fun s u => s.modTn_dev u _) s us
  have himage : (s.flrBegun us).image = s.image := State.each_invariant State.image (fun s u => s.modTn_image u _) s us
  have htn : ∀ v, (((s.flrBegun us).tn v).gen, ((s.flrBegun us).tn v).snapRead, ((s.flrBegun us).tn v).snapLost) =
      ((s.tn v).gen, (s.tn v).snapRead, (s.tn v).snapLost) := fun v => by
    rw [State.tn_flrBegun]
    split <;> rfl
  rw [State.bearing, State.bearing, hdev, himage]
  exact congrArg (fun f => (f, s.dev.still, s.image)) (funext htn)

theorem State.bearing_of_still {s s' : State} (h : s'.still = s.still) : s'.bearing = s.bearing := by
  have htn : ∀ v, ((s'.tn v).gen, (s'.tn v).snapRead, (s'.tn v).snapLost) = ((s.tn v).gen, (s.tn v).snapRead, (s.tn v).snapLost) :=
    fun v => congrArg (fun x => (x.1, x.2.1, x.2.2.1)) (State.tn_of_still h v)
  have hdev : s'.dev.still = s.dev.still := congrArg Prod.fst h
  rw [State.bearing, State.bearing, State.image_of_still h, hdev]
  exact congrArg (fun f => (f, s.dev.still, s.image)) (funext htn)

/-- The tenants of a reset that stands: out of service, their GEN as before. -/
theorem State.stands_of_winds {s z : State} {us : List Nat} (h : (s.flrBegun us).Winds z) {u : Nat} (hu : u ∈ us) :
    (z.tn u).func = false ∧ (z.tn u).inFlr = true ∧ (z.tn u).cfgEn = false ∧ (z.tn u).rdy = false ∧ (z.tn u).gen = (s.tn u).gen := by
  have htn : (s.flrBegun us).tn u = { s.tn u with func := false, inFlr := true, cfgEn := false, rdy := false } := (s.tn_flrBegun us u).trans (if_pos hu)
  have hstill := State.tn_of_still h.still u
  rw [htn] at hstill
  refine ⟨congrArg (fun x => x.2.2.2.1) hstill, congrArg (fun x => x.2.2.2.2.1) hstill, congrArg (fun x => x.2.2.2.2.2) hstill,
    h.low u ?_ ?_, congrArg Prod.fst hstill⟩ <;> rw [htn]

theorem State.bearing_of_winds {s z : State} {us : List Nat} (h : (s.flrBegun us).Winds z) : z.bearing = s.bearing :=
  (State.bearing_of_still h.still).trans (s.bearing_flrBegun us)

theorem State.gen_of_bearing {s s' : State} (h : s'.bearing = s.bearing) (u : Nat) :
    ((s'.tn u).gen, (s'.tn u).snapRead, (s'.tn u).snapLost) = ((s.tn u).gen, (s.tn u).snapRead, (s.tn u).snapLost) := congrArg (fun x => x.1 u) h

theorem State.vfEnable_of_bearing {s s' : State} (h : s'.bearing = s.bearing) : s'.dev.vfEnable = s.dev.vfEnable := congrArg (fun x => x.2.1.1.vfEnable) h

theorem State.numVfs_of_bearing {s s' : State} (h : s'.bearing = s.bearing) : s'.dev.numVfs = s.dev.numVfs := congrArg (fun x => x.2.1.1.numVfs) h

theorem State.host_of_bearing {s s' : State} (h : s'.bearing = s.bearing) : s'.ready rdHOST = s.ready rdHOST := congrArg (fun x => x.2.1.2) h

theorem State.fnExists_of_bearing {s s' : State} (h : s'.bearing = s.bearing) (u : Nat) : s'.fnExists u = s.fnExists u := by
  have himage : s'.image = s.image := congrArg (fun x => x.2.2) h
  rw [State.fnExists, State.fnExists, State.vfEnable_of_bearing h, State.numVfs_of_bearing h, himage]

/-! ### Keys -/

/-- The volumes of the tenants of a list without their keys. -/
def State.zeroised (s : State) (us : List Nat) : State := s.each (s.flrVols us) fun s p => s.zeroise p.1

theorem State.vol?_zeroise {s : State} {h v : Nat} {w' : Volume} (hv : (s.zeroise h).vol? v = some w') :
    ∃ w, s.vol? v = some w ∧ w'.tenant = w.tenant ∧ (w.key = none → w'.key = none) ∧ (v = h → w'.key = none) := by
  cases hs : s.vol? h with
  | none =>
    rw [State.zeroise, State.modVol_none hs] at hv
    exact ⟨w', hv, rfl, id, fun hvh => nomatch (hvh ▸ hv).symm.trans hs⟩
  | some w =>
    rw [State.zeroise, State.modVol_some hs] at hv
    by_cases hvh : v = h
    · subst hvh
      rw [State.vol?_setVol] at hv
      obtain rfl := Option.some.inj hv
      exact ⟨w, hs, rfl, fun _ => rfl, fun _ => rfl⟩
    · rw [State.vol?_setVol_other _ _ hvh] at hv
      exact ⟨w', hv, rfl, id, fun h => absurd h hvh⟩

theorem State.vol?_each_zeroise (l : List (Nat × Volume)) {s : State} {v : Nat} {w' : Volume} (hv : (s.each l fun s p => s.zeroise p.1).vol? v = some w') :
    ∃ w, s.vol? v = some w ∧ w'.tenant = w.tenant ∧ (w.key = none → w'.key = none) ∧ (v ∈ l.map Prod.fst → w'.key = none) := by
  induction l generalizing s with
  | nil => exact ⟨w', hv, rfl, id, fun h => absurd h List.not_mem_nil⟩
  | cons p r ih =>
    obtain ⟨w1, h1, ht1, hk1, hin1⟩ := ih (s := s.zeroise p.1) hv
    obtain ⟨w, h0, ht0, hk0, hin0⟩ := State.vol?_zeroise h1
    exact ⟨w, h0, ht1.trans ht0, fun h => hk1 (hk0 h), fun h => (List.mem_cons.1 h).elim (fun h => hk1 (hin0 h)) hin1⟩

theorem State.mem_vols_of_vol? {s : State} {v : Nat} {w : Volume} (h : s.vol? v = some w) : (v, w) ∈ s.vols := by
  obtain ⟨p, hp, rfl⟩ := Option.map_eq_some_iff.1 h
  have hv : p.1 = v := by simpa using List.find?_some hp
  exact hv ▸ List.mem_of_find?_eq_some hp

/-- Each volume of the tenants of a list is without a key. -/
def State.keyless (s : State) (us : List Nat) : Prop := ∀ v w, s.vol? v = some w → w.tenant ∈ us → w.key = none

theorem State.keyless_zeroised (s : State) (us : List Nat) : (s.zeroised us).keyless us := by
  intro v w' hv hu
  obtain ⟨w, h0, ht, -, hin⟩ := State.vol?_each_zeroise _ hv
  refine hin (List.mem_map.2 ⟨(v, w), List.mem_filter.2 ⟨State.mem_vols_of_vol? h0, List.contains_iff_mem.2 ?_⟩, rfl⟩)
  exact ht ▸ hu

theorem State.keyless_of_vols {s s' : State} {us : List Nat} (h : s'.vols = s.vols) (hs : s.keyless us) : s'.keyless us :=
  fun v w hv => hs v w ((State.vol?_congr h v).symm.trans hv)

theorem State.keyless_modVol {s : State} {us : List Nat} (hs : s.keyless us) (h : Nat) (f : Volume → Volume)
    (hf : ∀ w, (f w).tenant = w.tenant ∧ (f w).key = w.key) : (s.modVol h f).keyless us := by
  intro v w' hv hu
  cases hw : s.vol? h with
  | none => exact hs v w' (State.modVol_none hw f ▸ hv) hu
  | some w =>
    rw [State.modVol_some hw] at hv
    by_cases hvh : v = h
    · subst hvh
      rw [State.vol?_setVol] at hv
      obtain rfl := Option.some.inj hv
      exact (hf w).2.trans (hs v w hw ((hf w).1 ▸ hu))
    · exact hs v w' ((State.vol?_setVol_other _ _ hvh).symm.trans hv) hu

/-! ### Step 5 of one tenant -/

/-- A tenant as a reset leaves it, by what it carries over. -/
def Tenant.afterReset (x : Tenant) (log : Log) : Tenant :=
  { ({} : Tenant) with gen := x.gen + 1, pruneLog := log, snapRead := x.snapRead, snapLost := x.snapLost }

/-- The reports of a tenant and the enables it owns cleared. -/
def State.hushed (s : State) (u : Nat) : State :=
  ((s.orphanDeferred u).clearEnables u).each (s.volsOfTenant u) fun s p => s.modVol p.1 fun w => { w with report := none }

/-- No enable is set that a tenant owns. -/
def State.silent (s : State) (x : Nat) : Prop := ∀ e, e < 512 → (s.evSrc e).owner = x → (s.evSrc e).ena = false

theorem State.silent_of_ev {s s' : State} {x : Nat} (h : s'.ev = s.ev) (hs : s.silent x) : s'.silent x := by
  intro e he ho
  rw [State.evSrc_congr e h] at ho ⊢
  exact hs e he ho

/-- An occurrence changes no owner and no enable. -/
theorem State.owner_ena_raise (s : State) (e d : Nat) : ((s.raise e).evSrc d).owner = (s.evSrc d).owner ∧ ((s.raise e).evSrc d).ena = (s.evSrc d).ena := by
  by_cases hr : evReserved e = true
  · rw [State.raise, if_pos hr]; exact ⟨rfl, rfl⟩
  · by_cases hp : s.pm.state = 3
    · rw [s.raise_of_ps3 (eq_false_of_ne_true hr) hp]; exact ⟨rfl, rfl⟩
    · rw [s.evSrc_raise d (eq_false_of_ne_true hr) hp]
      split
      · next h => rw [h]; exact ⟨rfl, rfl⟩
      · exact ⟨rfl, rfl⟩

theorem State.silent_raise {s : State} {x : Nat} (hs : s.silent x) (e : Nat) : (s.raise e).silent x := by
  intro d hd ho
  obtain ⟨how, hen⟩ := s.owner_ena_raise e d
  rw [hen]
  exact hs d hd (how ▸ ho)

theorem State.tn_sendMsix_other (s : State) {fn x : Nat} (vec : Nat) (h : x ≠ fn) : (s.sendMsix fn vec).tn x = s.tn x := by
  simp only [State.sendMsix]
  split
  · split
    · exact (s.tn_modTn fn x _).trans (if_neg h)
    · rfl
  · rfl

/-- An occurrence does not reach a tenant that owns no enable. -/
theorem State.tn_raise_of_silent {s : State} {x e : Nat} (hs : s.silent x) (he : e < 512) : (s.raise e).tn x = s.tn x := by
  simp only [State.raise]
  split
  · rfl
  · split
    · rfl
    · split
      · next hsend =>
        have hena : (s.evSrc e).ena = true := (Bool.and_eq_true_iff.1 hsend).2
        exact (State.tn_sendMsix_other _ _ fun hx => Bool.false_ne_true ((hs e he hx.symm).symm.trans hena)).trans rfl
      · rfl

/-- A tenant at rest: as it stands, with no enable. -/
def State.rests (s : State) (x : Nat) (y : Tenant) : Prop := s.tn x = y ∧ s.silent x

theorem State.rests_each {α : Type} {x : Nat} {y : Tenant} {f : State → α → State} (hf : ∀ s a, s.rests x y → (f s a).rests x y) (l : List α) {s : State}
    (hs : s.rests x y) : (s.each l f).rests x y := by
  induction l generalizing s with
  | nil => exact hs
  | cons a r ih => exact ih (hf s a hs)

theorem State.rests_orphanDeferred {s : State} {x u : Nat} {y : Tenant} (hs : s.rests x y) (hu : u < 16) : (s.orphanDeferred u).rests x y := by
  have he : evTen u 5 < 512 := by rw [evTen]; omega
  exact State.rests_each (fun s a ⟨htn, hsil⟩ => ⟨(State.tn_raise_of_silent (s := s.modSachet _) hsil he).trans htn,
    State.silent_raise (s := s.modSachet _) hsil _⟩) _ hs

/-- An enable that its owner's reset clears, cleared. -/
def State.clearEnable (s : State) (u e : Nat) : State := if (s.evSrc e).owner = u && (s.evSrc e).ena then s.modEvSrc e fun x => { x with ena := false } else s

theorem State.clearEnables_eq (s : State) (u : Nat) : s.clearEnables u = s.each (List.range 512) fun s e => s.clearEnable u e := rfl

theorem State.evSrc_clearEnable (s : State) (u e d : Nat) : ((s.clearEnable u e).evSrc d).owner = (s.evSrc d).owner ∧
    ((s.clearEnable u e).evSrc d).ena = if d = e ∧ (s.evSrc d).owner = u then false else (s.evSrc d).ena := by
  rw [State.clearEnable]
  by_cases hde : d = e
  · subst hde
    split
    · next h =>
      obtain ⟨ho, -⟩ := Bool.and_eq_true_iff.1 h
      rw [State.evSrc_modEvSrc, if_pos rfl, if_pos ⟨rfl, of_decide_eq_true ho⟩]
      exact ⟨rfl, rfl⟩
    · next h =>
      refine ⟨rfl, ?_⟩
      split
      · next ho => exact eq_false_of_ne_true fun hena => h (Bool.and_eq_true_iff.2 ⟨decide_eq_true ho.2, hena⟩)
      · rfl
  · have hno : ¬ (d = e ∧ (s.evSrc d).owner = u) := fun h => hde h.1
    rw [if_neg hno]
    split
    · rw [State.evSrc_modEvSrc, if_neg hde]; exact ⟨rfl, rfl⟩
    · exact ⟨rfl, rfl⟩

theorem State.silent_clearEnable {s : State} {x : Nat} (hs : s.silent x) (u e : Nat) : (s.clearEnable u e).silent x := by
  intro d hd ho
  obtain ⟨how, hen⟩ := s.evSrc_clearEnable u e d
  rw [hen, hs d hd (how ▸ ho), ite_self]

theorem State.rests_clearEnables {s : State} {x : Nat} {y : Tenant} (hs : s.rests x y) (u : Nat) : (s.clearEnables u).rests x y := by
  rw [State.clearEnables_eq]
  refine State.rests_each (fun s e ⟨htn, hsil⟩ => ⟨?_, State.silent_clearEnable hsil u e⟩) _ hs
  rw [State.clearEnable]
  split <;> exact htn

/-- Each enable that a tenant owns is cleared. -/
theorem State.silent_clearEnables (s : State) (u : Nat) : (s.clearEnables u).silent u := by
  rw [State.clearEnables_eq]
  intro d hd
  refine State.each_establishes (p := fun s => (s.evSrc d).owner = u → (s.evSrc d).ena = false) (fun s e hs ho => ?_) (fun s ho => ?_) s (List.mem_range.2 hd)
  · obtain ⟨how, hen⟩ := s.evSrc_clearEnable u e d
    rw [hen, hs (how ▸ ho), ite_self]
  · obtain ⟨how, hen⟩ := s.evSrc_clearEnable u d d
    rw [hen, if_pos ⟨rfl, how ▸ ho⟩]

theorem State.rests_hushed {s : State} {x u : Nat} {y : Tenant} (hs : s.rests x y) (hu : u < 16) : (s.hushed u).rests x y :=
  State.rests_each (fun s p ⟨htn, hsil⟩ => ⟨(State.tn_congr x (s.modVol_tenants p.1 _)).trans htn, State.silent_of_ev (s.modVol_ev p.1 _) hsil⟩) _
    (State.rests_clearEnables (State.rests_orphanDeferred hs hu) u)

theorem State.flrClear_eq (s : State) (u : Nat) : s.flrClear u = (s.hushed u).modTn u fun x => x.afterReset x.pruneLog := rfl

theorem State.rests_flrClear {s : State} {x u : Nat} {y : Tenant} (hs : s.rests x y) (hu : u < 16) (hne : x ≠ u) : (s.flrClear u).rests x y := by
  obtain ⟨htn, hsil⟩ := State.rests_hushed hs hu
  refine ⟨?_, State.silent_of_ev ((s.hushed u).modTn_ev u _) hsil⟩
  rw [State.flrClear_eq, State.tn_modTn, if_neg hne, htn]

theorem State.hushed_still (s : State) (u : Nat) : (s.hushed u).still = s.still := by
  refine (State.each_still _ _ _ fun s p => ?_).trans ((State.clearEnables_still _ u).trans (s.orphanDeferred_still u))
  exact s.modVol_still p.1 _

theorem State.silent_hushed (s : State) (u : Nat) : (s.hushed u).silent u :=
  State.silent_of_ev (State.each_invariant State.ev (fun (s : State) (p : Nat × Volume) => s.modVol_ev p.1 fun w => { w with report := none }) _ _) (State.silent_clearEnables _ u)

/-- Step 5 puts its tenant to rest. -/
theorem State.flrClear_rests (s : State) (u : Nat) : ∃ log, (s.flrClear u).rests u ((s.tn u).afterReset log) := by
  refine ⟨((s.hushed u).tn u).pruneLog, ?_, State.silent_of_ev ((s.hushed u).modTn_ev u _) (s.silent_hushed u)⟩
  have hgen := State.gen_of_bearing (State.bearing_of_still (s.hushed_still u)) u
  simp only [Prod.mk.injEq] at hgen
  obtain ⟨hg, hr, hl⟩ := hgen
  rw [State.flrClear_eq, State.tn_modTn, if_pos rfl, Tenant.afterReset, hg, hr, hl]
  rfl

/-! ### Step 5 of the tenants of a list -/

theorem State.rests_flrClears {x : Nat} {y : Tenant} (us : List Nat) (hus : ∀ u ∈ us, u < 16 ∧ x ≠ u) {s : State} (hs : s.rests x y) :
    (s.each us State.flrClear).rests x y := by
  induction us generalizing s with
  | nil => exact hs
  | cons u r ih =>
    obtain ⟨hu, hne⟩ := hus u List.mem_cons_self
    exact ih (fun v hv => hus v (List.mem_cons_of_mem u hv)) (State.rests_flrClear hs hu hne)

theorem State.carried_flrClear (s : State) {x u : Nat} (hne : x ≠ u) :
    (((s.flrClear u).tn x).gen, ((s.flrClear u).tn x).snapRead, ((s.flrClear u).tn x).snapLost) = ((s.tn x).gen, (s.tn x).snapRead, (s.tn x).snapLost) := by
  rw [State.flrClear_eq, State.tn_modTn, if_neg hne]
  exact State.gen_of_bearing (State.bearing_of_still (s.hushed_still u)) x

theorem Tenant.afterReset_congr {x y : Tenant} (h : (x.gen, x.snapRead, x.snapLost) = (y.gen, y.snapRead, y.snapLost)) (log : Log) :
    x.afterReset log = y.afterReset log := by
  simp only [Prod.mk.injEq] at h
  obtain ⟨hg, hr, hl⟩ := h
  rw [Tenant.afterReset, Tenant.afterReset, hg, hr, hl]

/-- Each tenant of the list comes to rest. -/
theorem State.flrClears_rest (us : List Nat) (hnd : us.Nodup) (h16 : ∀ u ∈ us, u < 16) (s : State) {x : Nat} (hx : x ∈ us) :
    ∃ log, (s.each us State.flrClear).rests x ((s.tn x).afterReset log) := by
  induction us generalizing s with
  | nil => exact absurd hx List.not_mem_nil
  | cons u r ih =>
    obtain ⟨hur, hr⟩ := List.nodup_cons.1 hnd
    have h16r : ∀ v ∈ r, v < 16 := fun v hv => h16 v (List.mem_cons_of_mem u hv)
    by_cases hxu : x = u
    · subst hxu
      obtain ⟨log, hrest⟩ := s.flrClear_rests x
      exact ⟨log, State.rests_flrClears r (fun v hv => ⟨h16r v hv, fun h : x = v => hur (h.symm ▸ hv)⟩) hrest⟩
    · obtain ⟨log, hrest⟩ := ih hr h16r (s.flrClear u) ((List.mem_cons.1 hx).resolve_left hxu)
      exact ⟨log, Tenant.afterReset_congr (s.carried_flrClear hxu) log ▸ hrest⟩

theorem State.gen_flrClears_other (us : List Nat) (s : State) {x : Nat} (hx : x ∉ us) : ((s.each us State.flrClear).tn x).gen = (s.tn x).gen := by
  induction us generalizing s with
  | nil => rfl
  | cons u r ih =>
    rw [List.mem_cons, not_or] at hx
    exact (ih (s.flrClear u) hx.2).trans (congrArg Prod.fst (s.carried_flrClear hx.1))

/-- What decides which functions there are. -/
def State.stance (s : State) : (Device × Bool) × Image := (s.dev.still, s.image)

theorem State.stance_of_still {s s' : State} (h : s'.still = s.still) : s'.stance = s.stance :=
  congrArg₂ Prod.mk (congrArg Prod.fst h : s'.dev.still = s.dev.still) (State.image_of_still h)

theorem State.stance_flrClear (s : State) (u : Nat) : (s.flrClear u).stance = s.stance :=
  Eq.trans (b := (s.hushed u).stance) rfl (State.stance_of_still (s.hushed_still u))

/-! ### The end of a reset -/

/-- Steps 4 and 5 of the tenants of a list. -/
def State.cleared (s : State) (us : List Nat) : State := (s.zeroised us).each us State.flrClear

/-- The virtual functions that a reset of the physical function takes away. -/
def State.vfsDown (s : State) (pf : Bool) : State := if pf then s.modDev fun d => { d with vfEnable := false, numVfs := 0 } else s

/-- FUNC of a function that exists, with HOST at 1. -/
def State.funcBack (s : State) (u : Nat) : State := if s.fnExists u && s.ready rdHOST then s.modTn u fun x => { x with func := true } else s

theorem State.flrEnd_eq (s : State) (us : List Nat) (pf : Bool) : s.flrEnd us pf = ((s.cleared us).vfsDown pf).each us State.funcBack := rfl

theorem State.zeroised_still (s : State) (us : List Nat) : (s.zeroised us).still = s.still :=
  State.each_still _ _ _ fun s p => s.zeroise_still p.1

theorem State.stance_cleared (s : State) (us : List Nat) : (s.cleared us).stance = s.stance :=
  (State.each_invariant State.stance State.stance_flrClear _ us).trans (State.stance_of_still (s.zeroised_still us))

theorem State.funcBack_tenantsOnly (s : State) (u : Nat) : s.TenantsOnly (s.funcBack u) := by
  rw [State.funcBack]
  split <;> rfl

theorem State.fnExists_funcBack (s : State) (u v : Nat) : (s.funcBack u).fnExists v = s.fnExists v ∧ (s.funcBack u).ready rdHOST = s.ready rdHOST := by
  rw [State.funcBack_tenantsOnly s u]
  exact ⟨rfl, rfl⟩

theorem State.tn_funcsBack (us : List Nat) (s : State) (v : Nat) : (s.each us State.funcBack).tn v =
    if v ∈ us ∧ (s.fnExists v && s.ready rdHOST) = true then { s.tn v with func := true } else s.tn v := by
  induction us generalizing s with
  | nil => rw [if_neg fun h => List.not_mem_nil h.1]; rfl
  | cons u r ih =>
    obtain ⟨hex, hhost⟩ := s.fnExists_funcBack u v
    refine (ih (s.funcBack u)).trans ?_
    rw [hex, hhost]
    by_cases hv : v = u
    · subst hv
      by_cases hc : (s.fnExists v && s.ready rdHOST) = true
      · have hone : (s.funcBack v).tn v = { s.tn v with func := true } := by rw [State.funcBack, if_pos hc, State.tn_modTn, if_pos rfl]
        rw [hone]
        simp only [List.mem_cons, true_or, hc, and_true, if_true, ite_self]
      · have hone : (s.funcBack v).tn v = s.tn v := by rw [State.funcBack, if_neg hc]
        have hno : ∀ p : Prop, ¬ (p ∧ (s.fnExists v && s.ready rdHOST) = true) := fun _ h => hc h.2
        rw [hone, if_neg (hno _), if_neg (hno _)]
    · have hone : (s.funcBack u).tn v = s.tn v := by
        rw [State.funcBack]
        split
        · exact (s.tn_modTn u v _).trans (if_neg hv)
        · rfl
      rw [hone]
      simp only [List.mem_cons, hv, false_or]

theorem State.arb_hushed (s : State) (u : Nat) : (s.hushed u).arb = s.arb := by
  refine (State.each_invariant State.arb (fun (s : State) (p : Nat × Volume) => s.modVol_arb p.1 fun w => { w with report := none }) _ _).trans ?_
  rw [State.clearEnables_eq]
  refine (State.each_invariant State.arb (fun s e => ?_) _ _).trans (State.each_invariant State.arb (fun s a => ?_) _ _)
  · rw [State.clearEnable]; split <;> rfl
  · exact State.raise_arb _ _

theorem State.arb_flrClear (s : State) (u : Nat) : (s.flrClear u).arb = s.arb := ((s.hushed u).modTn_arb u _).trans (s.arb_hushed u)

theorem State.arb_flrEnd (s : State) (us : List Nat) (pf : Bool) : (s.flrEnd us pf).arb = s.arb := by
  rw [State.flrEnd_eq]
  refine (State.each_invariant State.arb (fun s u => ?_) _ us).trans (Eq.trans ?_ ((State.each_invariant State.arb State.arb_flrClear (s.zeroised us) us).trans
    (State.each_invariant State.arb (fun (s : State) (p : Nat × Volume) => s.modVol_arb p.1 fun w => { w with key := none, clearing := none }) s _)))
  · rw [s.funcBack_tenantsOnly u]
  · rw [State.vfsDown]; split <;> rfl

theorem State.keyless_each {α : Type} {us : List Nat} {f : State → α → State} (hf : ∀ s a, s.keyless us → (f s a).keyless us) (l : List α) {s : State}
    (hs : s.keyless us) : (s.each l f).keyless us := by
  induction l generalizing s with
  | nil => exact hs
  | cons a r ih => exact ih (hf s a hs)

theorem State.vols_clearEnables (s : State) (u : Nat) : (s.clearEnables u).vols = s.vols := by
  rw [State.clearEnables_eq]
  refine State.each_invariant State.vols (fun s e => ?_) _ _
  rw [State.clearEnable]; split <;> rfl

theorem State.vols_orphanDeferred (s : State) (u : Nat) : (s.orphanDeferred u).vols = s.vols := by
  refine State.each_invariant State.vols (fun s a => ?_) _ _
  exact State.raise_vols _ _

theorem State.keyless_flrClear {s : State} {us : List Nat} (hs : s.keyless us) (u : Nat) : (s.flrClear u).keyless us := by
  refine State.keyless_of_vols ((s.hushed u).modTn_vols u _) 
    (State.keyless_each (fun s p hs => State.keyless_modVol hs p.1 (fun w => { w with report := none }) fun w => ⟨rfl, rfl⟩) _ ?_)
  exact State.keyless_of_vols ((State.vols_clearEnables _ u).trans (s.vols_orphanDeferred u)) hs

theorem State.keyless_flrEnd (s : State) (us : List Nat) (pf : Bool) : (s.flrEnd us pf).keyless us := by
  have hclear : (s.cleared us).keyless us := State.keyless_each (fun s u hs => State.keyless_flrClear hs u) us (s.keyless_zeroised us)
  rw [State.flrEnd_eq]
  refine State.keyless_of_vols (Eq.trans (State.each_invariant State.vols (fun s u => ?_) _ us) ?_) hclear
  · rw [s.funcBack_tenantsOnly u]
  · rw [State.vfsDown]; split <;> rfl

theorem State.fnExists_of_stance {s s' : State} (h : s'.stance = s.stance) (u : Nat) : s'.fnExists u = s.fnExists u := by
  have hen : s'.dev.vfEnable = s.dev.vfEnable := congrArg (fun x => x.1.1.vfEnable) h
  have hnum : s'.dev.numVfs = s.dev.numVfs := congrArg (fun x => x.1.1.numVfs) h
  have himage : s'.image = s.image := congrArg Prod.snd h
  rw [State.fnExists, State.fnExists, hen, hnum, himage]

section End

variable {s z : State} {us : List Nat}

/-- A tenant after the reset of its list. -/
theorem State.tn_flrEnd (h : z.bearing = s.bearing) (hnd : us.Nodup) (h16 : ∀ u ∈ us, u < 16) (pf : Bool) {u : Nat} (hu : u ∈ us) :
    ∃ log, (z.flrEnd us pf).tn u =
      { (s.tn u).afterReset log with func := (if pf then u == 0 else s.fnExists u) && s.ready rdHOST } := by
  obtain ⟨log, hrest, -⟩ := State.flrClears_rest us hnd h16 (z.zeroised us) hu
  have hstance : (z.cleared us).stance = s.stance := (z.stance_cleared us).trans (congrArg Prod.snd h)
  have hfn : ((z.cleared us).vfsDown pf).fnExists u = if pf then u == 0 else s.fnExists u := by
    cases pf with
    | false => exact State.fnExists_of_stance hstance u
    | true => simp [State.vfsDown, State.fnExists]
  have hhost : ((z.cleared us).vfsDown pf).ready rdHOST = s.ready rdHOST := by
    refine Eq.trans ?_ (congrArg (fun x => x.1.2) hstance : (z.cleared us).ready rdHOST = s.ready rdHOST)
    cases pf <;> rfl
  have htn : ((z.cleared us).vfsDown pf).tn u = (s.tn u).afterReset log := by
    have hgen := State.gen_of_bearing ((State.bearing_of_still (z.zeroised_still us)).trans h) u
    refine Eq.trans ?_ (hrest.trans (Tenant.afterReset_congr hgen log))
    cases pf <;> rfl
  refine ⟨log, ?_⟩
  rw [State.flrEnd_eq, State.tn_funcsBack, htn, hfn, hhost]
  by_cases hc : ((if pf then u == 0 else s.fnExists u) && s.ready rdHOST) = true
  · rw [if_pos ⟨hu, hc⟩, hc]
  · rw [if_neg fun hb => hc hb.2, eq_false_of_ne_true hc]; rfl

theorem State.gen_flrEnd_other (h : z.bearing = s.bearing) (pf : Bool) {x : Nat} (hx : x ∉ us) : ((z.flrEnd us pf).tn x).gen = (s.tn x).gen := by
  have hgen := congrArg Prod.fst (State.gen_of_bearing ((State.bearing_of_still (z.zeroised_still us)).trans h) x)
  rw [State.flrEnd_eq, State.tn_funcsBack, if_neg fun hb => hx hb.1]
  refine Eq.trans ?_ ((State.gen_flrClears_other us (z.zeroised us) hx).trans hgen)
  cases pf <;> rfl

theorem State.dev_flrEnd (z : State) (us : List Nat) (pf : Bool) : (z.flrEnd us pf).dev = ((z.cleared us).vfsDown pf).dev := by
  rw [State.flrEnd_eq]
  refine State.each_invariant State.dev (fun s u => ?_) _ us
  rw [s.funcBack_tenantsOnly u]

theorem State.vfEnable_flrEnd (h : z.bearing = s.bearing) : (z.flrEnd us false).dev.vfEnable = s.dev.vfEnable := by
  rw [State.dev_flrEnd]
  exact congrArg (fun x => x.1.1.vfEnable) ((z.stance_cleared us).trans (congrArg Prod.snd h))

/-- Where a reset that seals comes to, of some of its volumes. -/
def State.flrSealed (s : State) (us : List Nat) (held : List (Nat × Nat × HostData)) (n : Option Nat) : State :=
  let s1 := s.flrStop us held
  match n with
  | some n => s1.flrSeal ((s1.flrVols us).take n)
  | none => s1.flrSeal (s1.flrVols us)

theorem State.flrSealed_winds (s : State) (us : List Nat) (held : List (Nat × Nat × HostData)) (n : Option Nat) :
    (s.flrBegun us).Winds (s.flrSealed us held n) := by
  refine (s.flrStop_winds us held).trans ?_
  cases n <;> exact State.flrSeal_winds _ _

theorem State.noCmdOf_flrSealed (s : State) (us : List Nat) (held : List (Nat × Nat × HostData)) (n : Option Nat) : (s.flrSealed us held n).noCmdOf us := by
  refine State.noCmdOf_of_desk ?_ (s.noCmdOf_flrStop us held)
  cases n <;> exact congrArg Prod.fst (State.flrSeal_desk _ _)

end End

theorem State.bearing_tlp (s : State) : s.tlp.bearing = s.bearing := by
  rw [State.tlp_eq]; rfl

theorem State.bearing_flrSealed (s : State) (us : List Nat) (held : List (Nat × Nat × HostData)) (n : Option Nat) :
    (s.tlp.flrSealed us held n).bearing = s.bearing := (State.bearing_of_winds (s.tlp.flrSealed_winds us held n)).trans s.bearing_tlp

theorem State.stands_flrSealed (s : State) {us : List Nat} {u : Nat} (hu : u ∈ us) (held : List (Nat × Nat × HostData)) (n : Option Nat) :
    let e := s.tlp.flrSealed us held n
    (e.tn u).func = false ∧ (e.tn u).inFlr = true ∧ (e.tn u).cfgEn = false ∧ (e.tn u).rdy = false ∧ (e.tn u).gen = (s.tn u).gen := by
  have hstands := State.stands_of_winds (s.tlp.flrSealed_winds us held n) hu
  rwa [State.tn_congr u s.tlp_tenants] at hstands

theorem State.reach_exists {s : State} {u : Nat} (h : s.reach u = true) : s.fnExists u = true := by
  simp only [State.reach, Bool.and_eq_true] at h
  exact h.1.2

/-- No command of a reset's tenants is left at its end. -/
theorem State.cmds_flrEnd (s : State) (us : List Nat) (held : List (Nat × Nat × HostData)) (n : Option Nat) (pf : Bool) :
    ∀ c ∈ ((s.flrSealed us held n).flrEnd us pf).arb.cmds, c.u ∉ us := by
  rw [State.arb_flrEnd]
  exact State.noCmdOf_cmds (s.noCmdOf_flrSealed us held n)

theorem State.flr_none (s : State) (us : List Nat) (held : List (Nat × Nat × HostData)) (pf : Bool) :
    s.flr us held none pf = ((s.flrSealed us held none).flrEnd us pf).settle := rfl

theorem State.flr_some (s : State) (us : List Nat) (held : List (Nat × Nat × HostData)) (n : Nat) (pf : Bool) :
    s.flr us held (some n) pf = s.flrSealed us held (some n) := rfl

/-- The data held for a virtual function's queues, with its tenant. -/
def vfHeld (u : Nat) (held : List (Nat × HostData)) : List (Nat × Nat × HostData) := held.map fun p => (u, p.1, p.2)

theorem vfFlr_row {s e : State} {u : Nat} {held : List (Nat × HostData)} {cut : Option Nat} (hu : 0 < u) (h16 : u < 16) (hr : s.reach u = true)
    (he : s.tlp.flr [u] (vfHeld u held) cut false = e) : Safety.Takes (.vfFlr u ⟨held, cut⟩) s e :=
  takes_of_commit (if_neg (by simp [hr, Nat.ne_of_gt hu, h16])) he

theorem pfFlr_row {s e : State} {held : List (Nat × Nat × HostData)} {cut : Option Nat} (hr : s.reach 0 = true)
    (he : s.tlp.flr (List.range 16) held cut true = e) : Safety.Takes (.pfFlr ⟨held, cut⟩) s e :=
  takes_of_commit (if_neg (by simp [hr])) he

theorem vfFlr_whole {s : State} {u : Nat} {held : List (Nat × HostData)} (hu : 0 < u) (h16 : u < 16) (hr : s.reach u = true) :
    Safety.Settles (.vfFlr u ⟨held, none⟩) s ((s.tlp.flrSealed [u] (vfHeld u held) none).flrEnd [u] false) := by
  refine vfFlr_row (held := held) (cut := none) (e := State.settle _) hu h16 hr ?_
  exact s.tlp.flr_none [u] _ false

theorem pfFlr_whole {s : State} {held : List (Nat × Nat × HostData)} (hr : s.reach 0 = true) :
    Safety.Settles (.pfFlr ⟨held, none⟩) s ((s.tlp.flrSealed (List.range 16) held none).flrEnd (List.range 16) true) := by
  exact pfFlr_row (held := held) (cut := none) (e := State.settle _) hr (s.tlp.flr_none (List.range 16) held true)

theorem vfFlr_cut {s : State} {u n : Nat} {held : List (Nat × HostData)} (hu : 0 < u) (h16 : u < 16) (hr : s.reach u = true) :
    Safety.Takes (.vfFlr u ⟨held, some n⟩) s (s.tlp.flrSealed [u] (vfHeld u held) (some n)) := by
  refine vfFlr_row (held := held) (cut := some n) hu h16 hr ?_
  exact s.tlp.flr_some [u] _ n false

/-- Settles O60: what the reset's commands leave, and its end for each tenant of its list. -/
theorem functionLevelResetsClearTheTenant : Obligations.FunctionLevelResetsClearTheTenant := by
  unfold Obligations.FunctionLevelResetsClearTheTenant
  refine ⟨fun s u held cut => ⟨fun h => if_pos ?_, fun hu h16 hr => ⟨fun hcut => ?_, fun n hcut => ?_⟩⟩,
    fun s held cut => ⟨fun h => if_pos (by simp [h]), fun hr => ⟨fun hcut => ?_, fun n hcut => ?_⟩⟩⟩
  · rcases h with h | h | h <;> simp [h]
  · subst hcut
    have hb := s.bearing_flrSealed [u] (vfHeld u held) none
    obtain ⟨log, htn⟩ := State.tn_flrEnd hb (List.nodup_singleton u) (fun v hv => List.mem_singleton.1 hv ▸ h16) false (List.mem_singleton_self u)
    rw [State.reach_exists hr] at htn
    refine ⟨(s.tlp.flrSealed [u] (vfHeld u held) none).flrEnd [u] false, vfFlr_whole hu h16 hr,
      fun c hc h => ?_, fun v w hv hw => ?_, ?_, State.vfEnable_flrEnd hb, fun x hx => ?_⟩
    · exact State.cmds_flrEnd _ _ _ none false c hc (List.mem_singleton.2 h)
    · exact State.keyless_flrEnd _ _ false v w hv (List.mem_singleton.2 hw)
    · rw [htn]; rfl
    · exact State.gen_flrEnd_other hb false (mt List.mem_singleton.1 hx)
  · subst hcut
    exact ⟨_, vfFlr_cut hu h16 hr, fun c hc h => State.noCmdOf_cmds (State.noCmdOf_flrSealed _ _ _ (some n)) c hc (List.mem_singleton.2 h),
      s.stands_flrSealed (List.mem_singleton_self u) _ (some n)⟩
  · subst hcut
    have hb := s.bearing_flrSealed (List.range 16) held none
    refine ⟨(s.tlp.flrSealed (List.range 16) held none).flrEnd (List.range 16) true, pfFlr_whole hr,
      fun c hc => ?_, fun v w hv hw => ?_, fun u hu => ?_, ?_, ?_⟩
    · exact Nat.le_of_not_lt (mt List.mem_range.2 (State.cmds_flrEnd _ _ _ none true c hc))
    · exact State.keyless_flrEnd _ _ true v w hv (List.mem_range.2 hw)
    · obtain ⟨log, htn⟩ := State.tn_flrEnd hb List.nodup_range (fun v hv => List.mem_range.1 hv) true (List.mem_range.2 hu)
      rw [htn]; rfl
    · rw [State.dev_flrEnd]; rfl
    · rw [State.dev_flrEnd]; rfl
  · subst hcut
    have hb := s.bearing_flrSealed (List.range 16) held (some n)
    refine ⟨_, pfFlr_row hr (State.flr_some ..), fun c hc => ?_, fun u hu => s.stands_flrSealed (List.mem_range.2 hu) _ (some n), State.vfEnable_of_bearing hb,
      State.numVfs_of_bearing hb⟩
    exact Nat.le_of_not_lt (mt List.mem_range.2 (State.noCmdOf_cmds (State.noCmdOf_flrSealed _ _ _ (some n)) c hc))

end Sys2Proof.Machine

end
